-- ==== Sys2Proof/Word.lean ====
section
/-!
DEFINITION. The word types of the model and the type of its sparse tables.
-/

namespace Sys2Proof

/-- A 64-bit register or address (R6, R132). -/
abbrev Word := BitVec 64

/-- One 32-bit instruction word (R49). -/
abbrev Code := BitVec 32

/-- One byte (R6). -/
abbrev Byte := BitVec 8

/-- A sparse table: numbered entries, keys rising; an entry that is not listed has the table's default value. -/
abbrev Table (α : Type) := List (Nat × α)

end Sys2Proof
end

