-- ==== Sys2Proof/Syntax.lean ====
section
/-!
DEFINITION. The rows of spec/opcode_table.json as one inductive type: 229 instructions and 166 steps the part takes of its own.
An extended instruction carries its operand words as the record Ext (R54); a base form carries its own fields (R51).
-/

namespace Sys2Proof

/-- The fields of an extended form (R54); lit is the literal of LEN 11 (R60). -/
structure Ext where
  /-- guard predicate -/
  pg : BitVec 3
  /-- the guard is negated -/
  pn : Bool
  rm : BitVec 3
  dfmt : BitVec 4
  sat : Bool
  d : BitVec 7
  a : BitVec 7
  b : BitVec 7
  c : BitVec 7
  sfmt : BitVec 4
  row0 : BitVec 5
  rcnt : BitVec 5
  men : Bool
  km : BitVec 2
  imm : BitVec 19
  lit : Option Word
deriving DecidableEq, Repr

/-- What a cold boot finds and is given (R20, R21, R331): the environment's part of COLD_BOOT. -/
structure BootArgs where
  /-- the firmware image passes LMS verification (R331) -/
  imageOk : Bool
  /-- UCIe links, numbered as in R396, that fail after lane repair (R21) -/
  failedLinks : List Nat
  /-- LPDDR-6 channels that fail their training (R412) -/
  failedChannels : List Nat
  /-- HBM4 rate point, 0 to 2 (R23) -/
  hbmRate : Nat
  /-- the wheel descriptor firmware writes (R33) -/
  whldesc : Word
  /-- log2 of the Attic engines' bucket count (R377) -/
  log2b : Nat
  /-- package number within the domain (R119) -/
  pkg : Nat
  /-- the HOME owner the operator sets for a cluster (R346): cluster and owner -/
  homes : List (Nat × Nat)
  /-- far package and Treco port of the firmware routing table (R281) -/
  trecoRoutes : List (Nat × Nat)
  /-- UEPEER entries described by the security core (R404): index, first word, second word -/
  peers : List (Nat × Word × Word)
  /-- a page-fill limit is set in the firmware configuration (R392) -/
  fillLimit : Bool
deriving DecidableEq, Repr

/-- A page of memory firmware hands to a context: physical address and bytes (R332). -/
structure Page where
  pa : Nat
  bytes : Nat
deriving DecidableEq, Repr

/-- Pool pages of an Attic domain on one stack (R364): lines of 128 bytes from base. -/
structure AtticPool where
  stack : Nat
  base : Nat
  lines : Nat
deriving DecidableEq, Repr

/-- What a connection manager tells its peer on another package about a circuit that both share (R281). -/
inductive PeerKind where
  /-- plan the far half: context, endpoint entry (R276), plane and wheel slot of each flit as it leaves the sender's port, planes, NWIN, EVEN and DUPLEX -/
  | plan (ctx : Nat) (entry : Word) (slots : List (Nat × Nat)) (planes nwin : Nat) (even duplex : Bool)
  /-- resize the far half: the slots as in plan, and NWIN -/
  | resize (slots : List (Nat × Nat)) (nwin : Nat)
  /-- the answer to either: RES, the record of the half that was planned, the wheel slots that its forward part takes from the sender's port on, plane and
  wheel slot of each flit of its reverse part as it leaves this link's far port, and the wheel slots that part takes up to there -/
  | answer (res num lat : Nat) (rslots : List (Nat × Nat)) (rlat : Nat)
  /-- the earliest switch turn at which the sender's routers can switch -/
  | turn (n : Nat)
  /-- the other half closes; or it is gone and this one is withdrawn at once -/
  | close (withdraw : Bool)
  /-- the resize under way is given up -/
  | undo
  /-- the other half has failed, with its FCAUSE -/
  | failed (fcause : Nat)
deriving DecidableEq, Repr

/-- A message from a peer package's connection manager (R281). -/
structure PeerRequest where
  /-- the sender's package -/
  pkg : Nat
  /-- the circuit record of the sender for a plan; of this package for any other message -/
  cnum : Nat
  /-- the Treco port of this package on which a planned circuit arrives -/
  port : Nat
  kind : PeerKind
deriving DecidableEq, Repr

/-- What an SPDM request over PCIe DOE asks of the security core (R5): attestation, measurement or key exchange; anything else, the keys of a selective
IDE stream among it, is not supported. -/
inductive SpdmKind where
  | attest
  | measure
  | keyExchange
  | selectiveIde
  | other
deriving DecidableEq, Repr

/-- An SPDM request: what it asks, and its nonce. -/
structure SpdmAsk where
  kind : SpdmKind
  nonce : BitVec 128
deriving DecidableEq, Repr

/-- A request for relay places on Treco links (R42): the links, each a node and the outward port there; a further place on a link on which the context holds
one already. -/
structure PlaceAsk where
  links : List (Nat × Nat)
  further : Bool := false
deriving DecidableEq, Repr

/-- A flit of ring data, 64 bytes of a 512-byte block (R304, R305). -/
structure RingFlit where
  /-- gateway die of the receiving engine, context and ring id -/
  eng : Nat
  ctx : Nat
  rid : Nat
  /-- what the first flit of the sender's circuit states of its job (R424, 0x83) -/
  nb : Nat
  op : Nat
  red : Nat
  efmt : Nat
  p : Nat
  /-- 0 reduce-scatter, 1 all-gather; segment and block within the segment -/
  phase : Nat
  seg : Nat
  blk : Nat
  /-- number of the flit in its block, and its data -/
  n : Nat
  data : BitVec 512
  /-- marked bad under R399, or read with a failure (R305) -/
  bad : Bool
deriving DecidableEq, Repr

/-- A machine check (R421): its cause code, the unit or physical address it names, and the context and thread it concerns. -/
structure MachineCheck where
  cause : BitVec 8
  unit : Nat
  addr : Nat
  ctx : Nat
  tid : Nat
deriving DecidableEq, Repr

/-- What a debug or scan read names (R359). -/
inductive DebugTarget where
  /-- a physical page of a context -/
  | page (ctx pa : Nat) (cls : Nat)
  /-- weight bank b of a core's slice -/
  | bank (core b : Nat)
  /-- accumulator a of a core's slice -/
  | acc (core a : Nat)
deriving DecidableEq, Repr

/-- One constructor for every row of spec/opcode_table.json, in the table's order. -/
inductive Instr where
  /-- NOP (R79): Changes no state and completes like any other instruction. -/
  | nop
  /-- TRAP (R153): Raises the software trap with the 16-bit code as FAULTINFO.DETAIL. -/
  | trap (code : BitVec 16)
  /-- BRK (R153): Raises the breakpoint trap with the 16-bit code as FAULTINFO.DETAIL. -/
  | brk (code : BitVec 16)
  /-- ADDI (R135): Adds a sign-extended 10-bit immediate to g[A] into g[D]. -/
  | addi (d a : BitVec 7) (imm : BitVec 10)
  /-- ADDI_LIT (R135): ADDI with a 64-bit literal operand (LEN 01). -/
  | addiLit (d a : BitVec 7) (lit : Word)
  /-- ANDI (R135): Bitwise AND of g[A] with the immediate into g[D]. -/
  | andi (d a : BitVec 7) (imm : BitVec 10)
  /-- ANDI_LIT (R135): ANDI with a 64-bit literal operand. -/
  | andiLit (d a : BitVec 7) (lit : Word)
  /-- ORI (R135): Bitwise OR of g[A] with the immediate into g[D]. -/
  | ori (d a : BitVec 7) (imm : BitVec 10)
  /-- ORI_LIT (R135): ORI with a 64-bit literal operand. -/
  | oriLit (d a : BitVec 7) (lit : Word)
  /-- XORI (R135): Bitwise XOR of g[A] with the immediate into g[D]. -/
  | xori (d a : BitVec 7) (imm : BitVec 10)
  /-- XORI_LIT (R135): XORI with a 64-bit literal operand. -/
  | xoriLit (d a : BitVec 7) (lit : Word)
  /-- SHLI (R135): Shifts g[A] left by the immediate mod 64 into g[D]. -/
  | shli (d a : BitVec 7) (imm : BitVec 10)
  /-- SHLI_LIT (R135): SHLI with a 64-bit literal shift amount. -/
  | shliLit (d a : BitVec 7) (lit : Word)
  /-- SHRI (R135): Logical right shift of g[A] by the immediate mod 64 into g[D]. -/
  | shri (d a : BitVec 7) (imm : BitVec 10)
  /-- SHRI_LIT (R135): SHRI with a 64-bit literal shift amount. -/
  | shriLit (d a : BitVec 7) (lit : Word)
  /-- SARI (R135): Arithmetic right shift of g[A] by the immediate mod 64 into g[D]. -/
  | sari (d a : BitVec 7) (imm : BitVec 10)
  /-- SARI_LIT (R135): SARI with a 64-bit literal shift amount. -/
  | sariLit (d a : BitVec 7) (lit : Word)
  /-- ROTI (R135): Rotates g[A] left by the immediate mod 64 into g[D]. -/
  | roti (d a : BitVec 7) (imm : BitVec 10)
  /-- ROTI_LIT (R135): ROTI with a 64-bit literal rotate amount. -/
  | rotiLit (d a : BitVec 7) (lit : Word)
  /-- MOVL (R136): Loads a 64-bit literal into g[D]; defined only with LEN 01. -/
  | movl (d : BitVec 7) (lit : Word)
  /-- LEA (R137): Writes PC + g[A] + immediate into g[D]. -/
  | lea (d a : BitVec 7) (imm : BitVec 10)
  /-- LEA_LIT (R137): LEA with a 64-bit literal displacement. -/
  | leaLit (d a : BitVec 7) (lit : Word)
  /-- CMPI (R142): Compares g[A] with the immediate under condition CC into predicate PD. -/
  | cmpi (pd : BitVec 3) (cc : BitVec 4) (a : BitVec 7) (imm : BitVec 10)
  /-- CMPI_LIT (R142): CMPI with a 64-bit literal operand. -/
  | cmpiLit (pd : BitVec 3) (cc : BitVec 4) (a : BitVec 7) (lit : Word)
  /-- CMP (R142): Compares g[A] with g[B] under condition CC into predicate PD. -/
  | cmp (pd : BitVec 3) (cc : BitVec 4) (a b : BitVec 7)
  /-- ADD (R134): g[D] := g[A] + g[B] mod 2^64. -/
  | add (d a b : BitVec 7)
  /-- SUB (R134): g[D] := g[A] - g[B] mod 2^64. -/
  | sub (d a b : BitVec 7)
  /-- AND (R134): Bitwise AND of g[A] and g[B]. -/
  | and (d a b : BitVec 7)
  /-- OR (R134): Bitwise OR of g[A] and g[B]. -/
  | or (d a b : BitVec 7)
  /-- XOR (R134): Bitwise XOR of g[A] and g[B]. -/
  | xor (d a b : BitVec 7)
  /-- ANDN (R134): g[D] := g[A] AND NOT g[B]. -/
  | andn (d a b : BitVec 7)
  /-- MIN (R134): Signed minimum of g[A] and g[B]. -/
  | min (d a b : BitVec 7)
  /-- MAX (R134): Signed maximum of g[A] and g[B]. -/
  | max (d a b : BitVec 7)
  /-- SHL (R134): Shifts g[A] left by g[B] mod 64. -/
  | shl (d a b : BitVec 7)
  /-- SHR (R134): Logical right shift of g[A] by g[B] mod 64. -/
  | shr (d a b : BitVec 7)
  /-- SAR (R134): Arithmetic right shift of g[A] by g[B] mod 64. -/
  | sar (d a b : BitVec 7)
  /-- ROT (R134): Rotates g[A] left by g[B] mod 64. -/
  | rot (d a b : BitVec 7)
  /-- MINN (R134): Unsigned minimum of g[A] and g[B]. -/
  | minn (d a b : BitVec 7)
  /-- MAXN (R134): Unsigned maximum of g[A] and g[B]. -/
  | maxn (d a b : BitVec 7)
  /-- MUL (R138): Low 64 bits of g[A] × g[B]. -/
  | mul (d a b : BitVec 7)
  /-- MULH (R138): High 64 bits of the signed product. -/
  | mulh (d a b : BitVec 7)
  /-- MULHN (R138): High 64 bits of the unsigned product. -/
  | mulhn (d a b : BitVec 7)
  /-- DIV (R138): Signed division truncated toward zero; traps on a zero divisor. -/
  | div (d a b : BitVec 7)
  /-- DIVN (R138): Unsigned division; traps on a zero divisor. -/
  | divn (d a b : BitVec 7)
  /-- REM (R138): Signed remainder with the dividend's sign; traps on a zero divisor. -/
  | rem (d a b : BitVec 7)
  /-- REMN (R138): Unsigned remainder; traps on a zero divisor. -/
  | remn (d a b : BitVec 7)
  /-- CLZ (R139): Counts leading zero bits of g[A]. -/
  | clz (d a : BitVec 7)
  /-- CTZ (R139): Counts trailing zero bits of g[A]. -/
  | ctz (d a : BitVec 7)
  /-- POPC (R139): Counts one bits of g[A]. -/
  | popc (d a : BitVec 7)
  /-- BREV (R139): Reverses the bit order of g[A]. -/
  | brev (d a : BitVec 7)
  /-- MOV (R139): Copies g[A] into g[D]. -/
  | mov (d a : BitVec 7)
  /-- PAND (R144): P[D] := P[A] and P[B]. -/
  | pand (d a b : BitVec 7)
  /-- POR (R144): P[D] := P[A] or P[B]. -/
  | por (d a b : BitVec 7)
  /-- PXOR (R144): P[D] := P[A] xor P[B]. -/
  | pxor (d a b : BitVec 7)
  /-- PNOT (R144): P[D] := not P[A]. -/
  | pnot (d a : BitVec 7)
  /-- SEL (R145): g[D] := g[A] if predicate N is true, else g[B]. -/
  | sel (d a b : BitVec 7) (n : BitVec 3)
  /-- FCMP (R143): Floating-point compare of g[A] and g[B] in fp32 or fp64 into predicate PD. -/
  | fcmp (pd : BitVec 3) (cc : BitVec 4) (a b : BitVec 7) (f64 : Bool)
  /-- BRI (R152): Branches to the address in g[A]. -/
  | bri (a : BitVec 7)
  /-- RET (R152): Branches to the address in g[A], read by tools as a return. -/
  | ret (a : BitVec 7)
  /-- BR (R150): Unconditional branch by a fetch-block displacement. -/
  | br (disp : BitVec 20)
  /-- BR_LIT (R150): Unconditional branch to an absolute literal target. -/
  | brLit (lit : Word)
  /-- BRP (R150): Branch taken when P[PG] xor PN. -/
  | brp (pg : BitVec 3) (pn : Bool) (disp : BitVec 20)
  /-- BRP_LIT (R150): Predicated branch to an absolute literal target. -/
  | brpLit (pg : BitVec 3) (pn : Bool) (lit : Word)
  /-- CALL (R150): Predicated branch that writes the next fetch-block address into g7. -/
  | call (pg : BitVec 3) (pn : Bool) (disp : BitVec 20)
  /-- CALL_LIT (R150): CALL to an absolute literal target. -/
  | callLit (pg : BitVec 3) (pn : Bool) (lit : Word)
  /-- LOOP (R151): Decrements counter g[CNT] and branches while it is not zero. -/
  | loop (cnt : BitVec 3) (disp : BitVec 20)
  /-- LOOP_LIT (R151): LOOP with an absolute literal target. -/
  | loopLit (cnt : BitVec 3) (lit : Word)
  /-- FENCE (R154): Parks with reason ORDER until every earlier access is performed. -/
  | fence
  /-- FENCE_RED (R154): As FENCE, and also waits for REDOUT = 0. -/
  | fenceRed
  /-- EXIT (R125): Waits for earlier accesses, drops the join registration and frees the thread slot. -/
  | exit
  /-- YIELD (R126): Holds the thread out of the issue rotation until others issue or 64 cycles pass. -/
  | yield
  /-- MFS (R122): Reads a system register into g[D]. -/
  | mfs (d : BitVec 7) (n : BitVec 12)
  /-- MTS (R122): Writes the RW fields of a system register from g[D]. -/
  | mts (d : BitVec 7) (n : BitVec 12)
  /-- LD_I8 (R224): Loads one byte, sign-extended. -/
  | ldI8 (d a : BitVec 7) (ord : BitVec 2) (off : BitVec 8)
  /-- LD_I8_LIT (R224): LD .i8 with a literal byte offset. -/
  | ldI8Lit (d a : BitVec 7) (ord : BitVec 2) (lit : Word)
  /-- LD_N8 (R224): Loads one byte, zero-extended. -/
  | ldN8 (d a : BitVec 7) (ord : BitVec 2) (off : BitVec 8)
  /-- LD_N8_LIT (R224): LD .n8 with a literal byte offset. -/
  | ldN8Lit (d a : BitVec 7) (ord : BitVec 2) (lit : Word)
  /-- LD_I16 (R224): Loads two bytes, sign-extended. -/
  | ldI16 (d a : BitVec 7) (ord : BitVec 2) (off : BitVec 8)
  /-- LD_I16_LIT (R224): LD .i16 with a literal byte offset. -/
  | ldI16Lit (d a : BitVec 7) (ord : BitVec 2) (lit : Word)
  /-- LD_N16 (R224): Loads two bytes, zero-extended. -/
  | ldN16 (d a : BitVec 7) (ord : BitVec 2) (off : BitVec 8)
  /-- LD_N16_LIT (R224): LD .n16 with a literal byte offset. -/
  | ldN16Lit (d a : BitVec 7) (ord : BitVec 2) (lit : Word)
  /-- LD_I32 (R224): Loads four bytes, sign-extended. -/
  | ldI32 (d a : BitVec 7) (ord : BitVec 2) (off : BitVec 8)
  /-- LD_I32_LIT (R224): LD .i32 with a literal byte offset. -/
  | ldI32Lit (d a : BitVec 7) (ord : BitVec 2) (lit : Word)
  /-- LD_N32 (R224): Loads four bytes, zero-extended. -/
  | ldN32 (d a : BitVec 7) (ord : BitVec 2) (off : BitVec 8)
  /-- LD_N32_LIT (R224): LD .n32 with a literal byte offset. -/
  | ldN32Lit (d a : BitVec 7) (ord : BitVec 2) (lit : Word)
  /-- LD_64 (R224): Loads eight bytes. -/
  | ld64 (d a : BitVec 7) (ord : BitVec 2) (off : BitVec 8)
  /-- LD_64_LIT (R224): 64-bit load with a literal byte offset. -/
  | ld64Lit (d a : BitVec 7) (ord : BitVec 2) (lit : Word)
  /-- LD_128 (R224): Loads sixteen bytes into the pair g[D], g[D+1]. -/
  | ld128 (d a : BitVec 7) (ord : BitVec 2) (off : BitVec 8)
  /-- LD_128_LIT (R224): 128-bit load with a literal byte offset. -/
  | ld128Lit (d a : BitVec 7) (ord : BitVec 2) (lit : Word)
  /-- ST_8 (R224): Stores the low byte of g[D]. -/
  | st8 (d a : BitVec 7) (ord : BitVec 2) (off : BitVec 8)
  /-- ST_8_LIT (R224): 8-bit store with a literal byte offset. -/
  | st8Lit (d a : BitVec 7) (ord : BitVec 2) (lit : Word)
  /-- ST_16 (R224): Stores the low two bytes of g[D]. -/
  | st16 (d a : BitVec 7) (ord : BitVec 2) (off : BitVec 8)
  /-- ST_16_LIT (R224): 16-bit store with a literal byte offset. -/
  | st16Lit (d a : BitVec 7) (ord : BitVec 2) (lit : Word)
  /-- ST_32 (R224): Stores the low four bytes of g[D]. -/
  | st32 (d a : BitVec 7) (ord : BitVec 2) (off : BitVec 8)
  /-- ST_32_LIT (R224): 32-bit store with a literal byte offset. -/
  | st32Lit (d a : BitVec 7) (ord : BitVec 2) (lit : Word)
  /-- ST_64 (R224): Stores eight bytes of g[D]. -/
  | st64 (d a : BitVec 7) (ord : BitVec 2) (off : BitVec 8)
  /-- ST_64_LIT (R224): 64-bit store with a literal byte offset. -/
  | st64Lit (d a : BitVec 7) (ord : BitVec 2) (lit : Word)
  /-- ST_128 (R224): Stores the register pair as sixteen bytes. -/
  | st128 (d a : BitVec 7) (ord : BitVec 2) (off : BitVec 8)
  /-- ST_128_LIT (R224): 128-bit store with a literal byte offset. -/
  | st128Lit (d a : BitVec 7) (ord : BitVec 2) (lit : Word)
  /-- MOV_TO_C (R141): Moves g[A] to core-shared register c[C]. -/
  | movToC (a : BitVec 7) (c : BitVec 4)
  /-- MOV_FROM_C (R141): Moves core-shared register c[C] to g[D]. -/
  | movFromC (d : BitVec 7) (c : BitVec 4)
  /-- MTD (R160): Writes a tile descriptor field from g[D] plus the immediate. -/
  | mtd (t : BitVec 4) (d : BitVec 7) (fld : BitVec 4) (imm : BitVec 9)
  /-- MTD_LIT (R160): MTD with a 64-bit literal in place of IMM9. -/
  | mtdLit (t : BitVec 4) (d : BitVec 7) (fld : BitVec 4) (lit : Word)
  /-- MFD (R160): Reads a tile descriptor field into g[D]. -/
  | mfd (t : BitVec 4) (d : BitVec 7) (fld : BitVec 4)
  /-- TZERO (R161): Zeroes the chosen data, scale and codebook areas of a tile. -/
  | tzero (t : BitVec 4) (fld : BitVec 4)
  /-- FADD (R146): Scalar floating-point add rounded once. -/
  | fadd (x : Ext)
  /-- FSUB (R146): Scalar floating-point subtract rounded once. -/
  | fsub (x : Ext)
  /-- FMUL (R146): Scalar floating-point multiply rounded once. -/
  | fmul (x : Ext)
  /-- FDIV (R146): Scalar floating-point divide rounded once. -/
  | fdiv (x : Ext)
  /-- FMIN (R146): Scalar floating-point minimum by the rule of R83. -/
  | fmin (x : Ext)
  /-- FMAX (R146): Scalar floating-point maximum by the rule of R83. -/
  | fmax (x : Ext)
  /-- FSQRT (R146): Scalar square root rounded once. -/
  | fsqrt (x : Ext)
  /-- FFMA (R146): Fused multiply-add with one rounding. -/
  | ffma (x : Ext)
  /-- FCVT (R147): Converts a value between formats. -/
  | fcvt (x : Ext)
  /-- FCLASS (R148): Sets one class bit of g[D] for the value in g[A]. -/
  | fclass (x : Ext)
  /-- EXT (R140): Extracts a bit field, sign-extended. -/
  | ext (x : Ext)
  /-- EXTN (R140): Extracts a bit field, zero-extended. -/
  | extn (x : Ext)
  /-- INS (R140): Inserts the low bits of g[A] into a field of g[D]. -/
  | ins (x : Ext)
  /-- LDF (R225): Loads when the granule is FULL, else registers a wait and parks. -/
  | ldf (x : Ext)
  /-- LDF_CLR (R225): Loads and empties a FULL granule, else registers a wait and parks. -/
  | ldfClr (x : Ext)
  /-- STF (R225): Stores into an EMPTY granule and sets it FULL, else parks. -/
  | stf (x : Ext)
  /-- STS (R225): Stores and sets the granule FULL regardless of state. -/
  | sts (x : Ext)
  /-- SETE (R225): Sets the granule EMPTY. -/
  | sete (x : Ext)
  /-- SETF (R225): Sets the granule FULL. -/
  | setf (x : Ext)
  /-- FEQ (R225): Reads the granule state into g[D]. -/
  | feq (x : Ext)
  /-- ROINV (R226): Invalidates one line of the cluster's read-only buffer for the context. -/
  | roinv (x : Ext)
  /-- AADD (R227): Atomic add at the home, returning the old value. -/
  | aadd (x : Ext)
  /-- AAND (R227): Atomic AND at the home. -/
  | aand (x : Ext)
  /-- AOR (R227): Atomic OR at the home. -/
  | aor (x : Ext)
  /-- AXOR (R227): Atomic XOR at the home. -/
  | axor (x : Ext)
  /-- AMIN (R227): Atomic signed minimum at the home. -/
  | amin (x : Ext)
  /-- AMAX (R227): Atomic signed maximum at the home. -/
  | amax (x : Ext)
  /-- AMINN (R227): Atomic unsigned minimum at the home. -/
  | aminn (x : Ext)
  /-- AMAXN (R227): Atomic unsigned maximum at the home. -/
  | amaxn (x : Ext)
  /-- AXCHG (R227): Atomic exchange at the home. -/
  | axchg (x : Ext)
  /-- ACAS (R227): Atomic compare-and-swap at the home. -/
  | acas (x : Ext)
  /-- AFADD (R227): Atomic floating-point add rounded to nearest even. -/
  | afadd (x : Ext)
  /-- REDADD (R230): Reduction add sent to the home with no value returned. -/
  | redadd (x : Ext)
  /-- REDMIN (R230): Reduction minimum at the home. -/
  | redmin (x : Ext)
  /-- REDMAX (R230): Reduction maximum at the home. -/
  | redmax (x : Ext)
  /-- REDAND (R230): Reduction AND at the home. -/
  | redand (x : Ext)
  /-- REDOR (R230): Reduction OR at the home. -/
  | redor (x : Ext)
  /-- REDXOR (R230): Reduction XOR at the home. -/
  | redxor (x : Ext)
  /-- REDFADD (R230): Reduction floating-point add at the home. -/
  | redfadd (x : Ext)
  /-- SPAWN (R123): Creates a child thread on a target logical core, optionally joined to a phaser. -/
  | spawn (x : Ext)
  /-- MIGRATE (R128): Moves the thread to the home cluster of an address. -/
  | migrate (x : Ext)
  /-- RPUT (R127): Writes or empties a register of another thread of the cluster. -/
  | rput (x : Ext)
  /-- TLD (R169): Loads rows of a tile image into a tile and its descriptor. -/
  | tld (x : Ext)
  /-- TLDV (R171): Loads rows of a tile image with a version check, up to 64 attempts. -/
  | tldv (x : Ext)
  /-- TST (R170): Stores rows of a tile into an image without touching VERSION. -/
  | tst (x : Ext)
  /-- TST_AON (R170): Stores rows of a tile bracketed by odd and even VERSION writes. -/
  | tstAon (x : Ext)
  /-- TMOV (R184): Copies tile elements without inspecting them. -/
  | tmov (x : Ext)
  /-- TTR (R185): Transposes a whole tile. -/
  | ttr (x : Ext)
  /-- VADD (R173): Lane-wise add. -/
  | vadd (x : Ext)
  /-- VSUB (R173): Lane-wise subtract. -/
  | vsub (x : Ext)
  /-- VMUL (R173): Lane-wise multiply. -/
  | vmul (x : Ext)
  /-- VMIN (R173): Lane-wise minimum. -/
  | vmin (x : Ext)
  /-- VMAX (R173): Lane-wise maximum. -/
  | vmax (x : Ext)
  /-- VFMA (R173): Lane-wise fused multiply-add. -/
  | vfma (x : Ext)
  /-- VABS (R174): Lane-wise absolute value. -/
  | vabs (x : Ext)
  /-- VNEG (R174): Lane-wise negation. -/
  | vneg (x : Ext)
  /-- VAND (R175): Lane-wise bitwise AND. -/
  | vand (x : Ext)
  /-- VOR (R175): Lane-wise bitwise OR. -/
  | vor (x : Ext)
  /-- VXOR (R175): Lane-wise bitwise XOR. -/
  | vxor (x : Ext)
  /-- VSHL (R175): Lane-wise left shift. -/
  | vshl (x : Ext)
  /-- VSHR (R175): Lane-wise right shift. -/
  | vshr (x : Ext)
  /-- VCMP (R176): Compares lanes of one row into a mask register. -/
  | vcmp (x : Ext)
  /-- VSEL (R177): Selects lanes of A or B by a mask. -/
  | vsel (x : Ext)
  /-- VCVT (R178): Lane-wise format conversion. -/
  | vcvt (x : Ext)
  /-- VQNT (R179): Quantises 32-element blocks with a derived or supplied scale. -/
  | vqnt (x : Ext)
  /-- VDQ (R180): Dequantises block-scaled elements. -/
  | vdq (x : Ext)
  /-- VEXP2 (R181): Lane-wise 2^x. -/
  | vexp2 (x : Ext)
  /-- VLOG2 (R181): Lane-wise log2 x. -/
  | vlog2 (x : Ext)
  /-- VRCP (R181): Lane-wise reciprocal. -/
  | vrcp (x : Ext)
  /-- VRSQ (R181): Lane-wise reciprocal square root. -/
  | vrsq (x : Ext)
  /-- VREDSUM (R182): Tree-sums each row into one element. -/
  | vredsum (x : Ext)
  /-- VREDMAX (R182): Tree-maximum of each row. -/
  | vredmax (x : Ext)
  /-- VREDMIN (R182): Tree-minimum of each row. -/
  | vredmin (x : Ext)
  /-- VBCST (R186): Broadcasts a register value or a tile lane to all active lanes. -/
  | vbcst (x : Ext)
  /-- VPERM (R187): Permutes lanes within a row by an index tile. -/
  | vperm (x : Ext)
  /-- VGATHER (R187): Gathers elements from anywhere in a tile by index. -/
  | vgather (x : Ext)
  /-- VSCAN (R183): Forms serial running sums over active lanes. -/
  | vscan (x : Ext)
  /-- MGANG (R196): Arrives to form a gang of N adjacent slices. -/
  | mgang (x : Ext)
  /-- MLEAVE (R197): Dissolves the gang after draining work and zeroing slices. -/
  | mleave (x : Ext)
  /-- WLD (R198): Gang-issued load of weights into the shadow bank. -/
  | wld (x : Ext)
  /-- WSWAP (R199): Gang-issued exchange of active and shadow weight banks. -/
  | wswap (x : Ext)
  /-- MMA (R200): Gang-issued multiply of activation rows into an accumulator. -/
  | mma (x : Ext)
  /-- MDRAIN (R201): Gang-issued conversion of accumulator rows into a tile through an epilogue. -/
  | mdrain (x : Ext)
  /-- MZERO (R202): Gang-issued clear of an accumulator. -/
  | mzero (x : Ext)
  /-- MSTAT (R203): Reads the slice state into g[D]. -/
  | mstat (x : Ext)
  /-- WPUSH (R258): Appends an entry at the tail of the core's work list. -/
  | wpush (x : Ext)
  /-- WPOP (R258): Takes the tail entry of the work list, or 0 when empty. -/
  | wpop (x : Ext)
  /-- WLEN (R258): Reads the work-list length. -/
  | wlen (x : Ext)
  /-- BALCFG (R259): Sets the balancer interval and threshold for the cluster. -/
  | balcfg (x : Ext)
  /-- PHNEW (R270): Takes a free phaser and returns a handle. -/
  | phnew (x : Ext)
  /-- PHREG (R270): Registers as signaller, waiter or join on a phaser. -/
  | phreg (x : Ext)
  /-- PHDROP (R270): Drops the handle's registrations after a release wait. -/
  | phdrop (x : Ext)
  /-- PHSIG (R270): Signals the phaser after a release wait. -/
  | phsig (x : Ext)
  /-- PHWAIT (R270): Waits for the handle's phase to complete. -/
  | phwait (x : Ext)
  /-- PHNEXT (R270): Signals once and then waits for the phase. -/
  | phnext (x : Ext)
  /-- PHFREE (R270): Frees an idle phaser. -/
  | phfree (x : Ext)
  /-- PHQ (R271): Reads the phaser's counts and phase. -/
  | phq (x : Ext)
  /-- COPEN (R289): Sends a circuit-open request to the connection manager. -/
  | copen (x : Ext)
  /-- CRESIZE (R289): Sends a circuit-resize request. -/
  | cresize (x : Ext)
  /-- CCLOSE (R289): Sends a circuit-close request. -/
  | cclose (x : Ext)
  /-- CQUERY (R289): Reads the source NI's copy of a circuit record. -/
  | cquery (x : Ext)
  /-- CPY (R300): Enqueues a strided copy job. -/
  | cpy (x : Ext)
  /-- CPYG (R300): Enqueues a gather copy job. -/
  | cpyg (x : Ext)
  /-- CPYS (R300): Enqueues a scatter copy job. -/
  | cpys (x : Ext)
  /-- CPYC (R301): Enqueues a stream copy over a circuit to a remote NI. -/
  | cpyc (x : Ext)
  /-- CPYN (R301): Enqueues a copy of the leaves of an Attic tree. -/
  | cpyn (x : Ext)
  /-- COLL (R304): Enqueues a ring collective on a collective engine. -/
  | coll (x : Ext)
  /-- QFENCE (R302): Enqueues a fence entry that ends when named queues drain. -/
  | qfence (x : Ext)
  /-- JWAIT (R303): Parks until the job has ended, then merges its flags. -/
  | jwait (x : Ext)
  /-- JPOLL (R303): Reads word 0 of a job record. -/
  | jpoll (x : Ext)
  /-- JCANCEL (R303): Cancels a job that has not ended. -/
  | jcancel (x : Ext)
  /-- WLDS (R355): Gang-issued sealed weight load into the shadow bank. -/
  | wlds (x : Ext)
  /-- SRQ (R361): Reads the plaintext fields of a sealed tensor header. -/
  | srq (x : Ext)
  /-- NAME (R372): Looks up or allocates the Attic name of a 128-byte block. -/
  | name (x : Ext)
  /-- NLD (R373): Loads 8 bytes of a named line. -/
  | nld (x : Ext)
  /-- NREF (R374): Adds one reference on a name. -/
  | nref (x : Ext)
  /-- NREL (R374): Releases one reference on a name. -/
  | nrel (x : Ext)
  /-- NSWAP (R375): Compare-and-swaps a root slot with reference bookkeeping. -/
  | nswap (x : Ext)
  /-- NROOT (R376): Reads a root slot and takes a reference on its name. -/
  | nroot (x : Ext)
  /-- NSTAT (R377): Reads the index entry of a name. -/
  | nstat (x : Ext)
  /-- TLBW (R388): Installs a leaf in the TLBs. -/
  | tlbw (x : Ext)
  /-- TLBI (R389): Invalidates TLB entries at a chosen scope. -/
  | tlbi (x : Ext)
  /-- TLBP (R390): Probes the TLBs for a VA page. -/
  | tlbp (x : Ext)
  /-- WALKRET (R391): Answers the head TLB miss and waits for the next. -/
  | walkret (x : Ext)
  /-- THREAD_WAKE (R110): A parked thread's wake event occurs and its instruction re-executes. -/
  | threadWake (tid : Nat)
  /-- YIELD_HOLD_END (R126): The YIELD hold ends after 64 issue cycles. -/
  | yieldHoldEnd (tid : Nat)
  /-- SETPT_WRITE (R18): A write to CLKCTL starts, queues or rejects a set-point change. -/
  | setptWrite (cluster : Nat) (v : Word)
  /-- SETPT_CHANGE_DONE (R18): The cluster clock restarts after a set-point change and any queued value is applied. -/
  | setptChangeDone (cluster : Nat)
  /-- SUPPLY_DROOP (R16): The oscillator slows with the supply, counting floor hits. -/
  | supplyDroop (cluster freq : Nat) (under : Bool)
  /-- COLD_BOOT (R20): Power-on: ROM verifies the image and boot proceeds through training to wheel start. -/
  | coldBoot (b : BootArgs)
  /-- FWRLD_WRITE (R331): A legal LEN write while rejected starts verification of a staged image. -/
  | fwrldWrite (v : Word)
  /-- IMAGE_VERIFY_DONE (R331): Verification of a staged image ends, booting it or returning to rejected. -/
  | imageVerifyDone (ok : Bool) (b : BootArgs)
  /-- FLIT_ARRIVAL (R29): A flit arriving on a router input is forwarded, copied, passed to the NI or discarded. -/
  | flitArrival (flit : Nat) (bad : Bool)
  /-- CIRCUIT_INJECT (R32): The NI injects a waiting circuit flit in the circuit's next owned wheel slot. -/
  | circuitInject (cnum : Nat) (rev : Bool) (n : Nat)
  /-- CONFIG_FLIT_RECEIVE (R36): A router takes a configuration flit's entry writes into shadow banks or window tables and acknowledges. -/
  | configFlitReceive (msg : Nat)
  /-- CONFIG_FLIT_FORWARD (R37): An NI forwards held configuration traffic in the next turn's configuration wheel slot. -/
  | configFlitForward (msg : Nat)
  /-- CONFIG_ACK_RECEIVE (R37): The connection manager receives acknowledgements and names a switch turn once all are in. -/
  | configAckReceive (msg : Nat)
  /-- COMMIT_RECEIVE (R37): A router receives the commit for a switch turn. -/
  | commitReceive (msg : Nat)
  /-- SWITCH_TURN (R37): At wheel slot 0 of turn N routers exchange active and shadow banks. -/
  | switchTurn (turn : Nat)
  /-- INJECT_STOP (R38): From turn N-D the NI stops injecting into wheel slots being removed. -/
  | injectStop (cnum : Nat)
  /-- RELAY_FLIT_SEND (R40): An NI sends a relay flit of a context in its owned relay wheel slot when it holds a credit. -/
  | relayFlitSend (node dir ctx : Nat)
  /-- CREDIT_RETURN_SEND (R40): An NI sends a credit-return flit in an owned relay slot when it owes credits and has no flit. -/
  | creditReturnSend (node dir ctx : Nat)
  /-- CREDIT_RETURN_RECEIVE (R40): A sender receives returned relay credits and may send again. -/
  | creditReturnReceive (node dir ctx : Nat)
  /-- RELAY_MESSAGE_ACCEPT (R41): A relay message is ready at the receiving NI and is forwarded or handed to its unit. -/
  | relayMessageAccept (msg : Nat)
  /-- RELAY_PLACE_REQUEST (R42): Connection managers exchange requests to grant a context places on Treco links. -/
  | relayPlaceRequest (ctx : Nat) (ask : PlaceAsk)
  /-- HOME_REQUEST_ARRIVE (R228): An access, atomic, reduction or granule request takes effect at its home in arrival order. -/
  | homeRequestArrive (req part : Nat) (macFail : Bool)
  /-- GRANULE_WAKE (R216): A granule wake message reaches a registered thread, which re-executes. -/
  | granuleWake (tid : Nat)
  /-- GRANULE_RETRY_TIMEOUT (R216): A thread whose registration was refused wakes after one turn. -/
  | granuleRetryTimeout (tid : Nat)
  /-- DRAM_REQUEST_ARRIVE (R44): A request reaches a DRAM controller and joins its context's queue or waits for a place. -/
  | dramRequestArrive (req part : Nat)
  /-- HBM_ACCESS_WINDOW (R44): An access window serves its owner's oldest request or gives spare service. -/
  | hbmAccessWindow (pc win : Nat) (macFail : Bool)
  /-- HBM_REFRESH (R43): Refresh runs in the refresh window of each service period. -/
  | hbmRefresh (pc : Nat)
  /-- LPDDR_SERVE (R412): An LPDDR-6 controller serves the next context's request round-robin. -/
  | lpddrServe (ch : Nat) (macFail : Bool)
  /-- HBMRATE_REQUEST (R409): A write to HBMRATE.REQ requests a rate point, checked and refused or accepted. -/
  | hbmrateRequest (v : Word)
  /-- HBM_RATE_STALL_BEGIN (R409): The rate-switch stall begins at the next period boundary. -/
  | hbmRateStallBegin
  /-- HBM_RATE_SWITCH_DONE (R409): After three stalled periods windows move to their new positions and RATE updates. -/
  | hbmRateSwitchDone
  /-- PTP_EXCHANGE (R48): An IEEE 1588 exchange measures skew and compares it with the guard. -/
  | ptpExchange (port : Nat) (skew : BitVec 16)
  /-- REMOTE_REPLY_ARRIVE (R221): A load, atomic or remote reply writes its destination register and sets presence, or is an error reply. -/
  | remoteReplyArrive (req : Nat)
  /-- STORE_ACK_ARRIVE (R219): An acknowledgement of a performed store or granule write reaches the issuer. -/
  | storeAckArrive (req : Nat)
  /-- RED_ACK_ARRIVE (R230): Reduction acknowledgements arrive, decrement REDOUT and carry flags. -/
  | redAckArrive (reqs : List Nat)
  /-- RELAY_FAILURE_REPORT (R229): A failure report for a drained or refused message reaches its sender. -/
  | relayFailureReport (req : Nat) (lost : Bool)
  /-- RPUT_DELIVER (R127): An RPUT write or empty reaches the target thread slot. -/
  | rputDeliver (req : Nat)
  /-- MIGRATION_PLACE (R130): An arriving thread claims a guest slot when one is free. -/
  | migrationPlace (req : Nat)
  /-- MIGRATION_FLIT_LAND (R109): A migration flit lands, making the guest READY or setting presence bits. -/
  | migrationFlitLand (req : Nat)
  /-- MIGRATION_ACCEPT (R129): The acceptance reply frees the origin slot and sends the join message. -/
  | migrationAccept (req : Nat)
  /-- SPAWN_REMOTE_CREATE (R124): The destination NI creates a cross-cluster SPAWN child or refuses. -/
  | spawnRemoteCreate (req : Nat)
  /-- SPAWN_REPLY (R124): The SPAWN reply writes g[D] at the parent. -/
  | spawnReply (req : Nat)
  /-- JOIN_MESSAGE (R268): The join message lands and sets the thread's JOIN. -/
  | joinMessage (req : Nat)
  /-- GANG_BARRIER_RELEASE (R191): All members have arrived and the gang-issued instruction takes effect or traps. -/
  | gangBarrierRelease (head : Nat)
  /-- MGANG_TIMEOUT (R196): Not all members arrive within TIMEOUT and arrived MGANGs trap. -/
  | mgangTimeout (head : Nat)
  /-- MMA_BEGIN (R195): A released MMA begins feeding rows when its dependences allow. -/
  | mmaBegin (head : Nat)
  /-- MMA_COMPLETE (R195): An MMA writes its last accumulator row. -/
  | mmaComplete (head : Nat)
  /-- WLD_READS_DONE (R198): All reads of a WLD are performed and the shadow bank becomes READY. -/
  | wldReadsDone (core : Nat)
  /-- WEIGHT_CHUNK_VERIFY (R357): The weight-load channel decrypts and verifies one sealed chunk. -/
  | weightChunkVerify (core : Nat)
  /-- TLDV_RETRY (R171): A TLDV attempt begins after its back-off delay. -/
  | tldvRetry (req : Nat)
  /-- BALANCE_INSTANT (R260): The balancer samples list lengths and removes entries from sources. -/
  | balanceInstant (cluster ctx knum : Nat)
  /-- BALANCE_INSERT (R256): Moved entries are appended at the target's tail. -/
  | balanceInsert (cluster : Nat)
  /-- CORE_RELEASE (R253): The scheduler releases a core whose core group completed. -/
  | coreRelease (ctx knum lc : Nat)
  /-- PHASER_REQUEST (R264): A phaser request takes effect at its unit, followed by the completion rule. -/
  | phaserRequest (req : Nat)
  /-- PHASER_REPLY (R270): A phaser reply reaches the issuer and its instruction completes. -/
  | phaserReply (req : Nat)
  /-- PHASER_RETRY_TIMEOUT (R269): A wait whose registration was refused re-executes after one turn. -/
  | phaserRetryTimeout (tid : Nat)
  /-- CM_REQUEST (R278): The connection manager takes a circuit request and plans or answers it. -/
  | cmRequest (req : Nat)
  /-- CM_PEER_REQUEST (R281): A peer connection manager plans the far half of a cross-package circuit. -/
  | cmPeerRequest (p : PeerRequest)
  /-- CM_PEER_TIMEOUT (R281): No peer reply within 1,000 turns withdraws writes and refuses with RES 4. -/
  | cmPeerTimeout (cnum : Nat)
  /-- CIRCUIT_ANSWER (R289): A connection-manager answer writes the circuit handle and sets presence. -/
  | circuitAnswer (req : Nat)
  /-- LINK_FAIL (R290): A link fails: flits are discarded, circuits fail, relay queues drain. -/
  | linkFail (node port cause : Nat)
  /-- ROUTE_RECOMPUTE (R290): After the drain, firmware recomputes relay routes around failed links. -/
  | routeRecompute
  /-- JOB_BEGIN (R292): A queued job begins once earlier jobs of its context in the queue have ended. -/
  | jobBegin (job : Nat)
  /-- JOB_ITEM_START (R298): A job item starts or resumes its reads and writes. -/
  | jobItemStart (job item : Nat)
  /-- JOB_UNSTALL (R295): Firmware reports the page present or unresolvable and the job runs again. -/
  | jobUnstall (job : Nat) (present : Bool)
  /-- JOB_ITEM_DONE (R298): All acknowledgements of an item arrive, the item is DONE and SF is applied. -/
  | jobItemDone (job item : Nat)
  /-- COLL_ENQUEUE_ACCEPT (R300): The collective engine accepts an enqueue request and replies. -/
  | collEnqueueAccept (req : Nat)
  /-- RING_FLIT_ARRIVE (R305): A ring flit arrives at a collective engine and is combined or written. -/
  | ringFlitArrive (f : RingFlit)
  /-- COLL_TIMEOUT (R305): No ring flit for TMO µs fails every remaining item. -/
  | collTimeout (job : Nat)
  /-- STREAM_DESCRIPTOR (R301): A CPYC stream descriptor reaches the endpoint NI and is accepted. -/
  | streamDescriptor (req : Nat)
  /-- STREAM_FLIT_ARRIVE (R301): A bare stream flit is written to its row position. -/
  | streamFlitArrive (cluster cnum : Nat)
  /-- ROW_ACK (R301): Row acknowledgements reach the copy unit and rows become DONE. -/
  | rowAck (job count : Nat)
  /-- ENGINE_WATCHDOG (R424): An item without progress for 10 ms fails. -/
  | engineWatchdog (job item : Nat)
  /-- LAUNCH (R324): A LAUNCH packet is admitted in share or surplus, or waits. -/
  | launch (q : Nat)
  /-- THRESUME (R323): Control packet making a trapped thread READY under HOLD. -/
  | thresume (q : Nat)
  /-- THEND (R323): Control packet ending a thread as if by EXIT. -/
  | thend (q : Nat)
  /-- KEND (R323): Control packet moving a kernel to ENDING. -/
  | kend (q : Nat)
  /-- DOORBELL_WRITE (R320): A doorbell write sets QTAIL and the pending-kick bit. -/
  | doorbellWrite (q : Nat) (v : BitVec 32)
  /-- QUEUE_SCAN (R321): The active scheduler takes a kicked queue and its packets. -/
  | queueScan
  /-- HEAP_BIND (R325): The scheduler binds the first heap entry whose cores are free, pre-empting where allowed. -/
  | heapBind
  /-- BIND_RECORD (R326): Dispatch takes a bind record and populates or restores cores. -/
  | bindRecord
  /-- PREEMPT_REQUEST (R314): A pre-emption request halts every populated core of a kernel. -/
  | preemptRequest (ctx knum : Nat)
  /-- CORE_SAVE (R314): After pending work lands a halted core's state is written to its core block. -/
  | coreSave (ctx knum lc : Nat)
  /-- KERNEL_SAVED (R310): Every core and phaser, job and list save is done and the kernel is SAVED. -/
  | kernelSaved (ctx knum : Nat)
  /-- KERNEL_RETIRE (R317): Every job has ended and the retirement record and completion are written. -/
  | kernelRetire (ctx knum : Nat)
  /-- RETIRE_REPORT (R326): The scheduler takes a retirement report and writes the completion. -/
  | retireReport
  /-- SCHED_HEARTBEAT_TIMEOUT (R329): The active scheduler misses its heartbeat for 100 µs and take-over begins. -/
  | schedHeartbeatTimeout
  /-- SCHED_IMEM_ERROR (R329): The active scheduler traps on an instruction-memory error and take-over begins. -/
  | schedImemError
  /-- STANDBY_READY (R330): The reset core passes self-test and becomes standby. -/
  | standbyReady
  /-- PROGRESS_CHECK (R347): Every 10 ms the progress controller compares owners' usage and may set XFER. -/
  | progressCheck
  /-- BORDER_MOVE (R347): At cluster-group completion USER passes to the trailing owner. -/
  | borderMove (cluster : Nat)
  /-- CREATE (R336): Security command creating a context. -/
  | create (ctx owner : Nat) (prot : Bool) (spill ptroot : Word) (pages : List Page)
  /-- ATTACH (R335): Security command attaching cores and a window, granting relay places. -/
  | attach (ctx cluster : Nat) (mask : BitVec 8) (base size : Nat)
  /-- EPSET (R335): Security command writing an endpoint entry. -/
  | epset (ctx cluster ep : Nat) (entry : Word)
  /-- ACTIVATE (R335): Security command making a context ACTIVE. -/
  | activate (ctx : Nat)
  /-- REKEY (R341): Security command replacing a weight key or starting a fabric rekey barrier. -/
  | rekey (ctx slot : Nat) (key : BitVec 256)
  /-- EFWD (R335): Security command setting early forwarding. -/
  | efwd (ctx : Nat) (on : Bool)
  /-- DESTROY (R349): Security command draining a context for scrub. -/
  | destroy (ctx : Nat)
  /-- RESUME (R343): Security command returning an unprotected suspended context to ACTIVE. -/
  | resume (ctx : Nat)
  /-- KEYLOAD (R335): Secured command installing a key slot. -/
  | keyload (ctx slot : Nat) (key : BitVec 256) (adom : Nat)
  /-- LEND (R347): Security command lending an idle cluster to another owner. -/
  | lend (cluster borrower : Nat)
  /-- RECALL (R347): Security command handing a lent cluster back within 1 ms. -/
  | recallCluster (cluster : Nat)
  /-- SNAP (R348): Security command returning a signed usage snapshot. -/
  | snap (owner : Nat) (nonce : BitVec 128)
  /-- ADOMCFG (R364): Secured command creating an Attic domain or granting pool pages. -/
  | adomcfg (adom : Nat) (dk : Option (BitVec 256)) (lines : List AtticPool)
  /-- REKEY_SWAP (R341): After the drain the fabric key slot swaps at a switch turn and injection reopens. -/
  | rekeySwap (ctx : Nat)
  /-- REKEY_ABANDON (R341): The drain exceeds 100 µs and the fabric rekey is abandoned. -/
  | rekeyAbandon (ctx : Nat)
  /-- FABRIC_REKEY_AUTO (R339): The security core starts a fabric rekey before 2^47 turns pass. -/
  | fabricRekeyAuto (ctx : Nat)
  /-- CONTEXT_POISON (R340): A forwarded read's MAC check fails and the context is poisoned. -/
  | contextPoison (ctx : Nat)
  /-- HOT_RESET (R343): Hot reset suspends active contexts after saving kernels and restarts scrubs. -/
  | hotReset
  /-- SUSPEND_EXPIRE (R336): A suspended context reaches 10 s and is drained. -/
  | suspendExpire (ctx : Nat)
  /-- HOST_LINK_DOWN (R342): The host link goes down and host-side scans and completions are deferred. -/
  | hostLinkDown
  /-- HOST_LINK_UP (R342): The IDE session is re-established and deferred work resumes. -/
  | hostLinkUp
  /-- SCRUB_START (R349): A drained context enters SCRUBBING and its scrub is assigned. -/
  | scrubStart (ctx : Nat)
  /-- SCRUB_DONE (R349): The scrub phases end, the context becomes FREE and HELD clears. -/
  | scrubDone (ctx : Nat)
  /-- DIE_LOSS (R422): A die is lost and the contexts that touched it are trapped. -/
  | dieLoss (die : Nat)
  /-- MACHINE_CHECK (R421): An uncorrectable error or self-check failure is handled at its scope. -/
  | machineCheck (m : MachineCheck)
  /-- ATTIC_NAME_REQUEST (R368): A NAME request is looked up or allocated at the home engine. -/
  | atticNameRequest (req : Nat)
  /-- ATTIC_CHILD_REPLY (R367): Child reference replies arrive and a node allocation completes or fails. -/
  | atticChildReply (req : Nat)
  /-- ATTIC_REF_REQUEST (R366): An NREF step takes effect at the engine. -/
  | atticRefRequest (req : Nat)
  /-- ATTIC_REL_REQUEST (R366): An NREL step takes effect at the engine. -/
  | atticRelRequest (req : Nat)
  /-- ATTIC_NLD_REQUEST (R373): An NLD request reads 8 bytes of a named line. -/
  | atticNldRequest (req : Nat)
  /-- ATTIC_STAT_REQUEST (R377): An NSTAT request reads an index entry. -/
  | atticStatRequest (req : Nat)
  /-- ATTIC_LEAF_READ (R301): A CPYN leaf-read request resolves a leaf and replies with its line. -/
  | atticLeafRead (req : Nat)
  /-- ATTIC_RECLAIM (R366): The engine reclaims a DORMANT entry and releases its children. -/
  | atticReclaim (stack entry : Nat)
  /-- ATTIC_REPLY (R371): An Attic engine reply reaches the issuer. -/
  | atticReply (req : Nat)
  /-- WALKER_MISS_ARRIVE (R391): A miss reaches the mailbox head and a waiting WALKRET completes. -/
  | walkerMissArrive (core : Nat)
  /-- MISS_DEFER_EXPIRE (R385): A deferred miss's delay runs out and it is presented again. -/
  | missDeferExpire (core miss : Nat)
  /-- WALKER_OVERDUE (R424): A miss unanswered for 1 ms fails with the walker-overdue cause. -/
  | walkerOverdue (core miss : Nat)
  /-- TLBI_REMOTE (R389): A scope-2 invalidation message removes entries at a cluster and replies. -/
  | tlbiRemote (req cluster : Nat)
  /-- PAGE_FILL_DONE (R392): Firmware makes an absent page present and answers deferred misses. -/
  | pageFillDone (ctx : Nat) (va pte : Word)
  /-- PAGE_FILL_TIMEOUT (R392): A fill exceeds the page-fill limit and is reported unresolvable. -/
  | pageFillTimeout (ctx : Nat) (va : Word)
  /-- PAGE_MIGRATION_DONE (R392): A page migration ends with the new PTE and wakes at the old homes. -/
  | pageMigrationDone (ctx : Nat) (va pte : Word)
  /-- REMAP_TABLE_ERROR (R395): A row-remap table error fences a pseudo-channel and poisons it. -/
  | remapTableError (pc : Nat)
  /-- PSEUDO_CHANNEL_UNFENCE (R395): Firmware rebuilds the remap table and unfences the pseudo-channel. -/
  | pseudoChannelUnfence (pc : Nat)
  /-- LANE_ERROR_THRESHOLD (R398): A UCIe lane exceeds its error or margin limit and a repair is agreed. -/
  | laneErrorThreshold (link lane : Nat)
  /-- LANE_REPAIR_APPLY (R398): A lane moves to a spare at the next turn that is a multiple of 1,024. -/
  | laneRepairApply (link : Nat)
  /-- TRECO_RETRAIN (R403): A write of RETRAIN starts Treco port training. -/
  | trecoRetrain (port : Nat)
  /-- TRECO_TRAINED (R403): Lanes come up with matching descriptors and measuring begins. -/
  | trecoTrained (port : Nat) (lanesUp descOk : Bool) (peerPkg peerPort : Nat)
  /-- TRECO_ALIGN (R403): Both ends agree OFFSET and the port becomes ALIGNED. -/
  | trecoAlign (port : Nat) (skewMax : BitVec 16) (peerPlane peerGuard : Nat)
  /-- TRECO_LANE_FAIL (R403): A Treco lane fails and the port becomes FAILED. -/
  | trecoLaneFail (port : Nat)
  /-- UE_TRANSPORT_FAIL (R404): The Ultra Ethernet transport gives up on its peer and the circuit fails. -/
  | ueTransportFail (cnum : Nat)
  /-- UE_PORT_DOWN (R405): An Ultra Ethernet port goes DOWN. -/
  | uePortDown (q : Nat)
  /-- IDE_INTEGRITY_FAIL (R407): A link IDE check fails and the port becomes insecure. -/
  | ideIntegrityFail
  /-- IDE_KEY_PROGRAM (R407): IDE keys are programmed by IDE_KM in an SPDM session. -/
  | ideKeyProgram
  /-- LPDDR_FENCE (R412): An LPDDR-6 channel loses training and is fenced. -/
  | lpddrFence (ch : Nat)
  /-- EYE_SAMPLE (R411): A lane monitor samples its eye and may set ALERT and interrupt. -/
  | eyeSample (n h v : Nat)
  /-- EYE_MONITOR_WRITE (R410): A write to a monitor register; clearing ALERT resets HLOW and VLOW. -/
  | eyeMonitorWrite (n : Nat) (v : Word)
  /-- RTRSTAT_WRITE (R291): A write to RTRSTAT clears CFGDROP, MISR or NOSW. -/
  | rtrstatWrite (node : Nat) (v : Word)
  /-- LNKSTAT_WRITE (R400): A write to LNKSTAT clears FLITERR. -/
  | lnkstatWrite (link : Nat) (v : Word)
  /-- UESTAT_WRITE (R405): A write to UESTAT clears RETX. -/
  | uestatWrite (q : Nat) (v : Word)
  /-- LPSTAT_WRITE (R412): A write to LPSTAT clears UECC or CECC. -/
  | lpstatWrite (ch : Nat) (v : Word)
  /-- TRKWHL_WRITE (R47): A write to TRKWHL clears SLIP or sets GUARD. -/
  | trkwhlWrite (port : Nat) (v : Word)
  /-- QCFG_WRITE (R318): A firmware write to QCFG; enabling sets QHEAD to QTAIL. -/
  | qcfgWrite (q : Nat) (v : Word)
  /-- FQCFG_WRITE (R418): A firmware write to FQCFG; setting EN sets TAIL to 0. -/
  | fqcfgWrite (ctx : Nat) (v : Word)
  /-- OWNCFG_WRITE (R324): A weight change re-tests waiting queues. -/
  | owncfgWrite (owner : Nat) (v : Word)
  /-- REGISTER_WRITE (R23): A write to a device register that has no behaviour of its own. -/
  | registerWrite (addr v : Word)
  /-- FAULT_RECORD_WRITE (R419): The collector writes a fault record into the fault queue or drops it. -/
  | faultRecordWrite (ctx : Nat)
  /-- TAKE_OVER_END (R329): The new active scheduler core finishes replay and reconciliation, writes the held completions, and clears HOLD and TKO. -/
  | takeOverEnd
  /-- IEEE_1588_LOST (R424): No IEEE 1588 exchange occurs for 100 µs on a Treco port, and the port is handled as slipped. -/
  | ieee1588Lost (port : Nat)
  /-- UE_PORT_UP (R405): An Ultra Ethernet port comes up and UESTAT.STATE becomes UP. -/
  | uePortUp (q : Nat)
  /-- DEBUG_SESSION_OPEN (R424): A debug session opens and a 0xFD record goes to every context. -/
  | debugSessionOpen
  /-- DEBUG_READ (R359): A debug or scan read reaches device state; for a sealed bank or a Strongroom page it returns zeros and logs the Strongroom debug cause. -/
  | debugRead (target : DebugTarget)
  /-- SPDM_REQUEST (R5): The security core, as SPDM responder, answers an attestation, measurement or key-exchange request over PCIe DOE. -/
  | spdmRequest (session : Nat) (ask : SpdmAsk)
  /-- SERVICE_CORE_WATCHDOG (R424): A firmware service thread misses its heartbeat and is restarted with a 0xFC record. -/
  | serviceCoreWatchdog (unit : Nat)
  /-- FABRIC_REFERENCE_LOST (R424): The package fabric reference clock fails and the part stops at package scope with 0xD7. -/
  | fabricReferenceLost
  /-- THERMAL_SHUTDOWN (R424): The critical temperature is reached and the part stops at package scope with 0xE5. -/
  | thermalShutdown
deriving DecidableEq, Repr

end Sys2Proof
end

