-- ==== Sys2Proof/WellFormed.lean ====
section
/-!
DEFINITION. Checks 3 and 4 of R63 on an instruction's own words: which codes are assigned, and which field values each
instruction accepts (R55, R56, R57, R58, R75, R76 and the entries). Checks 5 and 6 need the thread and stand with the meanings.
-/

namespace Sys2Proof

/-- The letters of R76's "Fields used" column. -/
inductive Fld where
  | D | A | B | C | S | F | M | T | W | K | I
deriving DecidableEq, Repr

/-- The immediate of an extended instruction: the literal of LEN 11, else IMM19 sign-extended (R54, R60). -/
def Ext.immV (x : Ext) : Word :=
  match x.lit with
  | some l => l
  | none => x.imm.signExtend 64

/-- The same with IMM19 read as a bit string (instructions whose IMM19 holds fields). -/
def Ext.immZ (x : Ext) : Word :=
  match x.lit with
  | some l => l
  | none => x.imm.setWidth 64

/-- R55, R60: every field the instruction does not use is zero, ROW0 + RCNT is at most 31, RM is legal, a literal needs IMM19 zero. -/
def Ext.usesOnly (x : Ext) (u : List Fld) : Bool :=
  (u.contains .D || x.d == 0) && (u.contains .A || x.a == 0) && (u.contains .B || x.b == 0) &&
  (u.contains .C || x.c == 0) && (u.contains .S || x.sfmt == 0) && (u.contains .F || x.dfmt == 0) &&
  (u.contains .M || x.rm == 0) && x.rm.toNat ≤ 5 && (u.contains .T || !x.sat) &&
  (u.contains .W || (x.row0 == 0 && x.rcnt == 0)) && x.row0.toNat + x.rcnt.toNat ≤ 31 &&
  (u.contains .K || (!x.men && x.km == 0)) && (u.contains .I || (x.imm == 0 && x.lit.isNone)) &&
  (x.lit.isNone || x.imm == 0)

/-- A format code is one of a list (R58). -/
def fmtIn (f : BitVec 4) (l : List Nat) : Bool := l.contains f.toNat

/-- The formats of R173. -/
def vecFmts : List Nat := [9, 10, 11, 12, 13, 0, 1, 2, 4, 5, 6]
/-- The integer formats with lanes (R162, R175). -/
def vecInts : List Nat := [0, 1, 2, 4, 5, 6]
/-- A format code is an integer format (R58). -/
def fmtInt (f : BitVec 4) : Bool := f.toNat < 8
/-- A t operand (R56). -/
def tOk (r : BitVec 7) : Bool := r.toNat < 16
/-- An even register of a pair (R75, R371). -/
def evenOk (r : BitVec 7) : Bool := r.toNat % 2 == 0
/-- Bits at and above n are zero. -/
def below (v : Word) (n : Nat) : Bool := v.toNat < 2 ^ n

/-- R140: the bit-field immediate: WID in [12:6], POS in [5:0]. -/
def bitFieldOk (v : Word) : Bool :=
  let wid := (v.toNat / 64) % 128
  let pos := v.toNat % 64
  below v 13 && 1 ≤ wid && wid ≤ 64 && pos + wid ≤ 64

/-- R299: the job flags SF, WF, CLR. -/
def jobFlagsOk (v : Word) : Bool := below v 3 && (v.getLsbD 1 || !v.getLsbD 2)

/-- R302: the QFENCE immediate. -/
def qfenceOk (v : Word) : Bool :=
  below v 19 && (v.toNat / 512) % 16 == 0 && (v.getLsbD 18 || (v.toNat / 8192) % 8 == 0)

/-- R201: the epilogue immediate. -/
def epilogueOk (v : Word) : Bool :=
  below v 11 && v.toNat % 8 ≤ 1 && (v.getLsbD 3 || v.getLsbD 4 || (v.toNat / 128) % 16 == 0)

/-- R186: the VBCST immediate: FROMT, zero bits, LANE. DESIGN CHOICE (assumption 98): with FROMT = 0 a LANE that is not 0 is accepted and ignored; R186 does not say
whether it is illegal. -/
def vbcstOk (x : Ext) : Bool :=
  below x.immZ 19 && (x.immZ.toNat / 256) % 1024 == 0 && (!x.immZ.getLsbD 18 || tOk x.a)

/-- R173, R182, R183: RM must be 000 for an integer format. -/
def rmInt (x : Ext) : Bool := !fmtInt x.dfmt || x.rm == 0

/-- The AMO and RED formats of R227. -/
def amoFmts : List Nat := [2, 3, 6, 7]

/-- A system register number is assigned (R117). -/
def sysAssigned (n : BitVec 12) : Bool := n.toNat ≤ 0x00F || (0x800 ≤ n.toNat && n.toNat ≤ 0x804)

/-- A system register has a field that MTS writes (R117, R122). -/
def sysWritable (n : BitVec 12) : Bool := [0x008, 0x009, 0x00F, 0x802, 0x803, 0x804].contains n.toNat

/-- The rows that are steps of the part, with no encoding (95_what_each_step_holds.md). -/
def Instr.isEvent : Instr → Bool
  | .threadWake _ => true
  | .yieldHoldEnd _ => true
  | .setptWrite _ _ => true
  | .setptChangeDone _ => true
  | .supplyDroop _ _ _ => true
  | .coldBoot _ => true
  | .fwrldWrite _ => true
  | .imageVerifyDone _ _ => true
  | .flitArrival _ _ => true
  | .circuitInject _ _ _ => true
  | .configFlitReceive _ => true
  | .configFlitForward _ => true
  | .configAckReceive _ => true
  | .commitReceive _ => true
  | .switchTurn _ => true
  | .injectStop _ => true
  | .relayFlitSend _ _ _ => true
  | .creditReturnSend _ _ _ => true
  | .creditReturnReceive _ _ _ => true
  | .relayMessageAccept _ => true
  | .relayPlaceRequest _ _ => true
  | .homeRequestArrive _ _ _ => true
  | .granuleWake _ => true
  | .granuleRetryTimeout _ => true
  | .dramRequestArrive _ _ => true
  | .hbmAccessWindow _ _ _ => true
  | .hbmRefresh _ => true
  | .lpddrServe _ _ => true
  | .hbmrateRequest _ => true
  | .hbmRateStallBegin => true
  | .hbmRateSwitchDone => true
  | .ptpExchange _ _ => true
  | .remoteReplyArrive _ => true
  | .storeAckArrive _ => true
  | .redAckArrive _ => true
  | .relayFailureReport _ _ => true
  | .rputDeliver _ => true
  | .migrationPlace _ => true
  | .migrationFlitLand _ => true
  | .migrationAccept _ => true
  | .spawnRemoteCreate _ => true
  | .spawnReply _ => true
  | .joinMessage _ => true
  | .gangBarrierRelease _ => true
  | .mgangTimeout _ => true
  | .mmaBegin _ => true
  | .mmaComplete _ => true
  | .wldReadsDone _ => true
  | .weightChunkVerify _ => true
  | .tldvRetry _ => true
  | .balanceInstant _ _ _ => true
  | .balanceInsert _ => true
  | .coreRelease _ _ _ => true
  | .phaserRequest _ => true
  | .phaserReply _ => true
  | .phaserRetryTimeout _ => true
  | .cmRequest _ => true
  | .cmPeerRequest _ => true
  | .cmPeerTimeout _ => true
  | .circuitAnswer _ => true
  | .linkFail _ _ _ => true
  | .routeRecompute => true
  | .jobBegin _ => true
  | .jobItemStart _ _ => true
  | .jobUnstall _ _ => true
  | .jobItemDone _ _ => true
  | .collEnqueueAccept _ => true
  | .ringFlitArrive _ => true
  | .collTimeout _ => true
  | .streamDescriptor _ => true
  | .streamFlitArrive _ _ => true
  | .rowAck _ _ => true
  | .engineWatchdog _ _ => true
  | .launch _ => true
  | .thresume _ => true
  | .thend _ => true
  | .kend _ => true
  | .doorbellWrite _ _ => true
  | .queueScan => true
  | .heapBind => true
  | .bindRecord => true
  | .preemptRequest _ _ => true
  | .coreSave _ _ _ => true
  | .kernelSaved _ _ => true
  | .kernelRetire _ _ => true
  | .retireReport => true
  | .schedHeartbeatTimeout => true
  | .schedImemError => true
  | .standbyReady => true
  | .progressCheck => true
  | .borderMove _ => true
  | .create _ _ _ _ _ _ => true
  | .attach _ _ _ _ _ => true
  | .epset _ _ _ _ => true
  | .activate _ => true
  | .rekey _ _ _ => true
  | .efwd _ _ => true
  | .destroy _ => true
  | .resume _ => true
  | .keyload _ _ _ _ => true
  | .lend _ _ => true
  | .recallCluster _ => true
  | .snap _ _ => true
  | .adomcfg _ _ _ => true
  | .rekeySwap _ => true
  | .rekeyAbandon _ => true
  | .fabricRekeyAuto _ => true
  | .contextPoison _ => true
  | .hotReset => true
  | .suspendExpire _ => true
  | .hostLinkDown => true
  | .hostLinkUp => true
  | .scrubStart _ => true
  | .scrubDone _ => true
  | .dieLoss _ => true
  | .machineCheck _ => true
  | .atticNameRequest _ => true
  | .atticChildReply _ => true
  | .atticRefRequest _ => true
  | .atticRelRequest _ => true
  | .atticNldRequest _ => true
  | .atticStatRequest _ => true
  | .atticLeafRead _ => true
  | .atticReclaim _ _ => true
  | .atticReply _ => true
  | .walkerMissArrive _ => true
  | .missDeferExpire _ _ => true
  | .walkerOverdue _ _ => true
  | .tlbiRemote _ _ => true
  | .pageFillDone _ _ _ => true
  | .pageFillTimeout _ _ => true
  | .pageMigrationDone _ _ _ => true
  | .remapTableError _ => true
  | .pseudoChannelUnfence _ => true
  | .laneErrorThreshold _ _ => true
  | .laneRepairApply _ => true
  | .trecoRetrain _ => true
  | .trecoTrained _ _ _ _ _ => true
  | .trecoAlign _ _ _ _ => true
  | .trecoLaneFail _ => true
  | .ueTransportFail _ => true
  | .uePortDown _ => true
  | .ideIntegrityFail => true
  | .ideKeyProgram => true
  | .lpddrFence _ => true
  | .eyeSample _ _ _ => true
  | .eyeMonitorWrite _ _ => true
  | .rtrstatWrite _ _ => true
  | .lnkstatWrite _ _ => true
  | .uestatWrite _ _ => true
  | .lpstatWrite _ _ => true
  | .trkwhlWrite _ _ => true
  | .qcfgWrite _ _ => true
  | .fqcfgWrite _ _ => true
  | .owncfgWrite _ _ => true
  | .registerWrite _ _ => true
  | .faultRecordWrite _ => true
  | .takeOverEnd => true
  | .ieee1588Lost _ => true
  | .uePortUp _ => true
  | .debugSessionOpen => true
  | .debugRead _ => true
  | .spdmRequest _ _ => true
  | .serviceCoreWatchdog _ => true
  | .fabricReferenceLost => true
  | .thermalShutdown => true
  | _ => false

/-- Check 3 of R63 on codes inside an assigned major: CC (R142, R143), FLD (R160), SYS12 (R122). -/
def Instr.assigned : Instr → Bool
  | .cmp _ cc _ _ => cc.toNat ≤ 11
  | .cmpi _ cc _ _ => cc.toNat ≤ 11
  | .cmpiLit _ cc _ _ => cc.toNat ≤ 11
  | .fcmp _ cc _ _ _ => cc.toNat ≤ 7
  | .mtd _ _ fld _ => fld.toNat ≤ 6
  | .mtdLit _ _ fld _ => fld.toNat ≤ 6
  | .mfd _ _ fld => fld.toNat ≤ 6
  | .mfs _ n => sysAssigned n
  | .mts _ n => sysAssigned n
  | _ => true

/-- Check 4 of R63: reserved and unused fields are zero and every code is legal for the instruction. -/
def Instr.fieldsOk : Instr → Bool
  | .pand d a b => d.toNat < 8 && a.toNat < 8 && b.toNat < 8
  | .por d a b => d.toNat < 8 && a.toNat < 8 && b.toNat < 8
  | .pxor d a b => d.toNat < 8 && a.toNat < 8 && b.toNat < 8
  | .pnot d a => d.toNat < 8 && a.toNat < 8
  | .loop cnt _ => cnt != 0
  | .loopLit cnt _ => cnt != 0
  | .mts _ n => sysWritable n
  | .ldI8 _ _ o _ => o.toNat ≤ 1
  | .ldI8Lit _ _ o _ => o.toNat ≤ 1
  | .ldN8 _ _ o _ => o.toNat ≤ 1
  | .ldN8Lit _ _ o _ => o.toNat ≤ 1
  | .ldI16 _ _ o _ => o.toNat ≤ 1
  | .ldI16Lit _ _ o _ => o.toNat ≤ 1
  | .ldN16 _ _ o _ => o.toNat ≤ 1
  | .ldN16Lit _ _ o _ => o.toNat ≤ 1
  | .ldI32 _ _ o _ => o.toNat ≤ 1
  | .ldI32Lit _ _ o _ => o.toNat ≤ 1
  | .ldN32 _ _ o _ => o.toNat ≤ 1
  | .ldN32Lit _ _ o _ => o.toNat ≤ 1
  | .ld64 _ _ o _ => o.toNat ≤ 1
  | .ld64Lit _ _ o _ => o.toNat ≤ 1
  | .ld128 d _ o _ => o.toNat ≤ 1 && evenOk d
  | .ld128Lit d _ o _ => o.toNat ≤ 1 && evenOk d
  | .st8 _ _ o _ => o.toNat ≤ 2
  | .st8Lit _ _ o _ => o.toNat ≤ 2
  | .st16 _ _ o _ => o.toNat ≤ 2
  | .st16Lit _ _ o _ => o.toNat ≤ 2
  | .st32 _ _ o _ => o.toNat ≤ 2
  | .st32Lit _ _ o _ => o.toNat ≤ 2
  | .st64 _ _ o _ => o.toNat ≤ 2
  | .st64Lit _ _ o _ => o.toNat ≤ 2
  | .st128 d _ o _ => o.toNat ≤ 2 && evenOk d
  | .st128Lit d _ o _ => o.toNat ≤ 2 && evenOk d
  | .tzero _ fld => fld.toNat ≠ 0 && fld.toNat < 8
  | .fadd x => x.usesOnly [.D, .A, .B, .F, .M] && fmtIn x.dfmt [8, 9]
  | .fsub x => x.usesOnly [.D, .A, .B, .F, .M] && fmtIn x.dfmt [8, 9]
  | .fmul x => x.usesOnly [.D, .A, .B, .F, .M] && fmtIn x.dfmt [8, 9]
  | .fdiv x => x.usesOnly [.D, .A, .B, .F, .M] && fmtIn x.dfmt [8, 9]
  | .fmin x => x.usesOnly [.D, .A, .B, .F] && fmtIn x.dfmt [8, 9]
  | .fmax x => x.usesOnly [.D, .A, .B, .F] && fmtIn x.dfmt [8, 9]
  | .fsqrt x => x.usesOnly [.D, .A, .F, .M] && fmtIn x.dfmt [8, 9]
  | .ffma x => x.usesOnly [.D, .A, .B, .C, .F, .M] && fmtIn x.dfmt [8, 9]
  | .fcvt x => x.usesOnly [.D, .A, .S, .F, .M, .T] && x.sfmt != 14 && x.dfmt != 14 && !(fmtInt x.sfmt && fmtInt x.dfmt)
  | .fclass x => x.usesOnly [.D, .A, .S] && fmtIn x.sfmt [8, 9, 10, 11, 12, 13, 15]
  | .ext x => x.usesOnly [.D, .A, .I] && bitFieldOk x.immZ
  | .extn x => x.usesOnly [.D, .A, .I] && bitFieldOk x.immZ
  | .ins x => x.usesOnly [.D, .A, .I] && bitFieldOk x.immZ
  | .ldf x => x.usesOnly [.D, .A, .F, .I] && fmtInt x.dfmt
  | .ldfClr x => x.usesOnly [.D, .A, .F, .I] && fmtInt x.dfmt
  | .stf x => x.usesOnly [.A, .B, .F, .I] && fmtInt x.dfmt
  | .sts x => x.usesOnly [.A, .B, .F, .I] && fmtInt x.dfmt
  | .sete x => x.usesOnly [.A, .I]
  | .setf x => x.usesOnly [.A, .I]
  | .feq x => x.usesOnly [.D, .A, .I]
  | .roinv x => x.usesOnly [.A, .I]
  | .aadd x => x.usesOnly [.D, .A, .B, .F, .I] && fmtIn x.dfmt amoFmts && x.imm.toNat / 131072 ≤ 2
  | .aand x => x.usesOnly [.D, .A, .B, .F, .I] && fmtIn x.dfmt amoFmts && x.imm.toNat / 131072 ≤ 2
  | .aor x => x.usesOnly [.D, .A, .B, .F, .I] && fmtIn x.dfmt amoFmts && x.imm.toNat / 131072 ≤ 2
  | .axor x => x.usesOnly [.D, .A, .B, .F, .I] && fmtIn x.dfmt amoFmts && x.imm.toNat / 131072 ≤ 2
  | .amin x => x.usesOnly [.D, .A, .B, .F, .I] && fmtIn x.dfmt amoFmts && x.imm.toNat / 131072 ≤ 2
  | .amax x => x.usesOnly [.D, .A, .B, .F, .I] && fmtIn x.dfmt amoFmts && x.imm.toNat / 131072 ≤ 2
  | .aminn x => x.usesOnly [.D, .A, .B, .F, .I] && fmtIn x.dfmt amoFmts && x.imm.toNat / 131072 ≤ 2
  | .amaxn x => x.usesOnly [.D, .A, .B, .F, .I] && fmtIn x.dfmt amoFmts && x.imm.toNat / 131072 ≤ 2
  | .axchg x => x.usesOnly [.D, .A, .B, .F, .I] && fmtIn x.dfmt amoFmts && x.imm.toNat / 131072 ≤ 2
  | .acas x => x.usesOnly [.D, .A, .B, .C, .F, .I] && fmtIn x.dfmt amoFmts && x.imm.toNat / 131072 ≤ 2
  | .afadd x => x.usesOnly [.D, .A, .B, .F, .I] && fmtIn x.dfmt [8, 9] && x.imm.toNat / 131072 ≤ 2
  | .redadd x => x.usesOnly [.A, .B, .F, .I] && fmtIn x.dfmt amoFmts
  | .redmin x => x.usesOnly [.A, .B, .F, .I] && fmtIn x.dfmt amoFmts
  | .redmax x => x.usesOnly [.A, .B, .F, .I] && fmtIn x.dfmt amoFmts
  | .redand x => x.usesOnly [.A, .B, .F, .I] && fmtIn x.dfmt amoFmts
  | .redor x => x.usesOnly [.A, .B, .F, .I] && fmtIn x.dfmt amoFmts
  | .redxor x => x.usesOnly [.A, .B, .F, .I] && fmtIn x.dfmt amoFmts
  | .redfadd x => x.usesOnly [.A, .B, .F, .I] && fmtIn x.dfmt [8, 9]
  | .spawn x => x.usesOnly [.D, .A, .B, .C, .I]
  | .migrate x => x.usesOnly [.A, .I]
  | .rput x => x.usesOnly [.D, .A, .B]
  | .tld x => x.usesOnly [.D, .A, .W, .I] && tOk x.d
  | .tldv x => x.usesOnly [.D, .A, .W, .I] && tOk x.d
  | .tst x => x.usesOnly [.A, .B, .W, .I] && tOk x.b
  | .tstAon x => x.usesOnly [.A, .B, .W, .I] && tOk x.b
  | .tmov x => x.usesOnly [.D, .A, .W, .K] && tOk x.d && tOk x.a
  | .ttr x => x.usesOnly [.D, .A, .F] && tOk x.d && tOk x.a && fmtIn x.dfmt vecFmts
  | .vadd x => x.usesOnly [.D, .A, .B, .F, .M, .T, .W, .K] && tOk x.d && tOk x.a && tOk x.b && fmtIn x.dfmt vecFmts && rmInt x
  | .vsub x => x.usesOnly [.D, .A, .B, .F, .M, .T, .W, .K] && tOk x.d && tOk x.a && tOk x.b && fmtIn x.dfmt vecFmts && rmInt x
  | .vmul x => x.usesOnly [.D, .A, .B, .F, .M, .T, .W, .K] && tOk x.d && tOk x.a && tOk x.b && fmtIn x.dfmt vecFmts && rmInt x
  | .vmin x => x.usesOnly [.D, .A, .B, .F, .W, .K] && tOk x.d && tOk x.a && tOk x.b && fmtIn x.dfmt vecFmts
  | .vmax x => x.usesOnly [.D, .A, .B, .F, .W, .K] && tOk x.d && tOk x.a && tOk x.b && fmtIn x.dfmt vecFmts
  | .vfma x => x.usesOnly [.D, .A, .B, .C, .F, .M, .T, .W, .K] && tOk x.d && tOk x.a && tOk x.b && tOk x.c && fmtIn x.dfmt vecFmts && rmInt x
  | .vabs x => x.usesOnly [.D, .A, .F, .W, .K] && tOk x.d && tOk x.a && fmtIn x.dfmt vecFmts
  | .vneg x => x.usesOnly [.D, .A, .F, .W, .K] && tOk x.d && tOk x.a && fmtIn x.dfmt vecFmts
  | .vand x => x.usesOnly [.D, .A, .B, .F, .W, .K] && tOk x.d && tOk x.a && tOk x.b && fmtIn x.dfmt vecFmts
  | .vor x => x.usesOnly [.D, .A, .B, .F, .W, .K] && tOk x.d && tOk x.a && tOk x.b && fmtIn x.dfmt vecFmts
  | .vxor x => x.usesOnly [.D, .A, .B, .F, .W, .K] && tOk x.d && tOk x.a && tOk x.b && fmtIn x.dfmt vecFmts
  | .vshl x => x.usesOnly [.D, .A, .B, .F, .W, .K] && tOk x.d && tOk x.a && tOk x.b && fmtIn x.dfmt vecInts
  | .vshr x => x.usesOnly [.D, .A, .B, .F, .W, .K] && tOk x.d && tOk x.a && tOk x.b && fmtIn x.dfmt vecInts
  | .vcmp x => x.usesOnly [.D, .A, .B, .F, .W, .K, .I] && x.d.toNat < 4 && tOk x.a && tOk x.b && fmtIn x.dfmt vecFmts && x.rcnt == 0 &&
      below x.immZ 4 && (if fmtInt x.dfmt then x.immZ.toNat ≤ 11 else x.immZ.toNat ≤ 7)
  | .vsel x => x.usesOnly [.D, .A, .B, .F, .W, .K] && tOk x.d && tOk x.a && tOk x.b && fmtIn x.dfmt vecFmts && x.men
  | .vcvt x => x.usesOnly [.D, .A, .S, .F, .M, .T, .W, .K] && tOk x.d && tOk x.a && fmtIn x.dfmt vecFmts && fmtIn x.sfmt vecFmts &&
      !(fmtInt x.sfmt && fmtInt x.dfmt)
  | .vqnt x => x.usesOnly [.D, .A, .B, .S, .F, .M, .W] && tOk x.d && tOk x.a && fmtIn x.sfmt [9, 10, 11] && fmtIn x.dfmt [12, 13, 14] &&
      (x.dfmt != 14 || x.rm == 0)
  | .vdq x => x.usesOnly [.D, .A, .S, .F, .W] && tOk x.d && tOk x.a && fmtIn x.sfmt [12, 13, 14] && fmtIn x.dfmt [9, 10, 11]
  | .vexp2 x => x.usesOnly [.D, .A, .F, .W, .K] && tOk x.d && tOk x.a && fmtIn x.dfmt [9, 10, 11]
  | .vlog2 x => x.usesOnly [.D, .A, .F, .W, .K] && tOk x.d && tOk x.a && fmtIn x.dfmt [9, 10, 11]
  | .vrcp x => x.usesOnly [.D, .A, .F, .W, .K] && tOk x.d && tOk x.a && fmtIn x.dfmt [9, 10, 11]
  | .vrsq x => x.usesOnly [.D, .A, .F, .W, .K] && tOk x.d && tOk x.a && fmtIn x.dfmt [9, 10, 11]
  | .vredsum x => x.usesOnly [.D, .A, .F, .M, .W, .K] && tOk x.d && tOk x.a && fmtIn x.dfmt vecFmts && rmInt x
  | .vredmax x => x.usesOnly [.D, .A, .F, .W, .K] && tOk x.d && tOk x.a && fmtIn x.dfmt vecFmts
  | .vredmin x => x.usesOnly [.D, .A, .F, .W, .K] && tOk x.d && tOk x.a && fmtIn x.dfmt vecFmts
  | .vbcst x => x.usesOnly [.D, .A, .F, .W, .K, .I] && tOk x.d && fmtIn x.dfmt vecFmts && vbcstOk x
  | .vperm x => x.usesOnly [.D, .A, .B, .F, .W] && tOk x.d && tOk x.a && tOk x.b && fmtIn x.dfmt vecFmts
  | .vgather x => x.usesOnly [.D, .A, .B, .F, .W, .K] && tOk x.d && tOk x.a && tOk x.b && fmtIn x.dfmt vecFmts
  | .vscan x => x.usesOnly [.D, .A, .F, .M, .W, .K] && tOk x.d && tOk x.a && fmtIn x.dfmt vecFmts && rmInt x
  | .mgang x => x.usesOnly [.A, .I] && below x.immZ 10
  | .mleave x => x.usesOnly []
  | .wld x => x.usesOnly [.D, .A, .F, .I] && fmtIn x.dfmt [10, 11, 12, 13, 14]
  | .wswap x => x.usesOnly []
  | .mma x => x.usesOnly [.D, .A, .B, .S, .W] && x.d.toNat < 4 && tOk x.a && x.b.toNat < 16 && fmtIn x.sfmt [10, 11, 12, 13, 14]
  | .mdrain x => x.usesOnly [.D, .A, .F, .M, .T, .W, .I] && tOk x.d && x.a.toNat < 4 && fmtIn x.dfmt [9, 10, 11, 12, 13] && epilogueOk x.immZ
  | .mzero x => x.usesOnly [.D] && x.d.toNat < 4
  | .mstat x => x.usesOnly [.D]
  | .wpush x => x.usesOnly [.A]
  | .wpop x => x.usesOnly [.D]
  | .wlen x => x.usesOnly [.D]
  | .balcfg x => x.usesOnly [.A, .B]
  | .phnew x => x.usesOnly [.D, .A]
  | .phreg x => x.usesOnly [.A, .B]
  | .phdrop x => x.usesOnly [.A]
  | .phsig x => x.usesOnly [.A]
  | .phwait x => x.usesOnly [.A]
  | .phnext x => x.usesOnly [.A]
  | .phfree x => x.usesOnly [.A]
  | .phq x => x.usesOnly [.D, .A]
  | .copen x => x.usesOnly [.D, .A, .B]
  | .cresize x => x.usesOnly [.A, .B]
  | .cclose x => x.usesOnly [.A]
  | .cquery x => x.usesOnly [.D, .A]
  | .cpy x => x.usesOnly [.D, .A, .B, .C, .I] && jobFlagsOk x.immZ
  | .cpyg x => x.usesOnly [.D, .A, .B, .C, .I] && jobFlagsOk x.immZ
  | .cpys x => x.usesOnly [.D, .A, .B, .C, .I] && jobFlagsOk x.immZ
  | .cpyc x => x.usesOnly [.D, .A, .B, .C, .I] && jobFlagsOk x.immZ
  | .cpyn x => x.usesOnly [.D, .A, .B, .C, .I] && jobFlagsOk x.immZ
  | .coll x => x.usesOnly [.D, .A, .B, .C, .I] && jobFlagsOk x.immZ
  | .qfence x => x.usesOnly [.D, .I] && qfenceOk x.immZ
  | .jwait x => x.usesOnly [.A]
  | .jpoll x => x.usesOnly [.D, .A]
  | .jcancel x => x.usesOnly [.A]
  | .wlds x => x.usesOnly [.D, .A, .B, .I]
  | .srq x => x.usesOnly [.D, .A]
  | .name x => x.usesOnly [.D, .A, .W] && x.rcnt == 0 && evenOk x.d
  | .nld x => x.usesOnly [.D, .A, .I] && below x.immZ 7 && x.immZ.toNat % 8 == 0 && evenOk x.a
  | .nref x => x.usesOnly [.A] && evenOk x.a
  | .nrel x => x.usesOnly [.A] && evenOk x.a
  | .nswap x => x.usesOnly [.D, .A, .B, .C] && evenOk x.d && evenOk x.b && evenOk x.c
  | .nroot x => x.usesOnly [.D, .A] && evenOk x.d
  | .nstat x => x.usesOnly [.D, .A] && evenOk x.a
  | .tlbw x => x.usesOnly [.A, .B]
  | .tlbi x => x.usesOnly [.A, .I] && x.immZ.toNat < 3
  | .tlbp x => x.usesOnly [.D, .A]
  | .walkret x => x.usesOnly [.A]
  | _ => true

/-- An instruction that checks 3 and 4 of R63 accept. -/
def Instr.wf (i : Instr) : Bool := i.assigned && i.fieldsOk

end Sys2Proof
end

