-- ==== Sys2Proof/Decode.lean ====
section
/-!
DEFINITION. Instruction words (R49 to R60, R73 to R79): the decoder, total on any words and rejecting by name in the order of
R63, and the encoder.
-/

namespace Sys2Proof

/-- Why words are not an instruction: the first check of R63 that fails. -/
inductive DecodeError where
  /-- check 1: the word is all zero, or LEN does not agree with the major kind (R50) -/
  | zeroOrLength
  /-- check 2: the instruction would straddle its fetch block (R61) -/
  | straddle
  /-- check 3: an unassigned major, minor, FN, CC, FLD, SYS12 or CODE24 (R77) -/
  | unassigned
  /-- check 4: a reserved or unused field that is not zero, an illegal code, or a missing literal (R55 to R60) -/
  | field
  /-- fewer words were given than the length field asks for; fetch never does this -/
  | short
deriving DecidableEq, Repr

/-- A field of a word: n bits from bit lo. -/
def fieldOf (w : Code) (lo n : Nat) : BitVec n := w.extractLsb' lo n

/-- A one-bit field. -/
def bitOf (w : Code) (i : Nat) : Bool := w.getLsbD i

/-- LEN (R49). -/
def lenOf (w : Code) : BitVec 2 := fieldOf w 30 2
/-- MAJ (R49). -/
def majOf (w : Code) : BitVec 6 := fieldOf w 24 6
/-- MIN of an extended form (R54). -/
def minOf (w : Code) : BitVec 10 := fieldOf w 14 10
/-- D of forms REG, IMM, MEM, SYS, CRG (R51). -/
def dOf (w : Code) : BitVec 7 := fieldOf w 17 7
/-- A of forms REG, IMM, MEM, CMP, CMPI, CRG (R51). -/
def aOf (w : Code) : BitVec 7 := fieldOf w 10 7
/-- B of forms REG and CMP (R51). -/
def bOf (w : Code) : BitVec 7 := fieldOf w 3 7
/-- FN of forms REG and CMP (R51). -/
def fnOf (w : Code) : BitVec 3 := fieldOf w 0 3
/-- IMM10 (R51). -/
def imm10Of (w : Code) : BitVec 10 := fieldOf w 0 10
/-- ORD of form MEM (R51). -/
def ordOf (w : Code) : BitVec 2 := fieldOf w 8 2
/-- OFF8 of form MEM (R51). -/
def off8Of (w : Code) : BitVec 8 := fieldOf w 0 8
/-- PD of forms CMP and CMPI, PG of form JMP (R51). -/
def pdOf (w : Code) : BitVec 3 := fieldOf w 21 3
/-- CC of forms CMP and CMPI (R51). -/
def ccOf (w : Code) : BitVec 4 := fieldOf w 17 4
/-- PN of form JMP (R51). -/
def pnOf (w : Code) : Bool := bitOf w 20
/-- DISP20 of form JMP (R51). -/
def dispOf (w : Code) : BitVec 20 := fieldOf w 0 20
/-- SYS12 of form SYS (R51). -/
def sysOf (w : Code) : BitVec 12 := fieldOf w 5 12
/-- FN of form SYS (R51). -/
def sysFnOf (w : Code) : BitVec 5 := fieldOf w 0 5
/-- C of form CRG (R51). -/
def cOf (w : Code) : BitVec 4 := fieldOf w 6 4
/-- FN of form CRG (R51). -/
def crgFnOf (w : Code) : BitVec 6 := fieldOf w 0 6
/-- T of form TDS (R51). -/
def tOf (w : Code) : BitVec 4 := fieldOf w 20 4
/-- D of form TDS (R51). -/
def tdOf (w : Code) : BitVec 7 := fieldOf w 13 7
/-- FLD of form TDS (R51). -/
def fldOf (w : Code) : BitVec 4 := fieldOf w 9 4
/-- IMM9 of form TDS (R51). -/
def imm9Of (w : Code) : BitVec 9 := fieldOf w 0 9
/-- CODE24 of form CODE (R51). -/
def codeOf (w : Code) : BitVec 24 := fieldOf w 0 24

/-- An answer if its codes are assigned (check 3) and a condition on its fields holds (check 4). -/
def need (ok : Bool) (i : Instr) : Except DecodeError Instr :=
  if i.assigned then (if ok then .ok i else .error .field) else .error .unassigned

/-- An instruction with no immediate field: a literal on it fails check 4 (R60). -/
def noLit (lit : Option Word) (ok : Bool) (i : Instr) : Except DecodeError Instr := need (lit.isNone && ok) i

/-- Form IMM, with IMM10 or a literal (R51, R60). -/
def immForm (w : Code) (lit : Option Word) (mk : BitVec 7 → BitVec 7 → BitVec 10 → Instr)
    (mkLit : BitVec 7 → BitVec 7 → Word → Instr) : Except DecodeError Instr :=
  match lit with
  | none => .ok (mk (dOf w) (aOf w) (imm10Of w))
  | some l => need (imm10Of w == 0) (mkLit (dOf w) (aOf w) l)

/-- Form MEM, with OFF8 or a literal (R51, R60). -/
def memForm (w : Code) (lit : Option Word) (mk : BitVec 7 → BitVec 7 → BitVec 2 → BitVec 8 → Instr)
    (mkLit : BitVec 7 → BitVec 7 → BitVec 2 → Word → Instr) : Except DecodeError Instr :=
  match lit with
  | none => .ok (mk (dOf w) (aOf w) (ordOf w) (off8Of w))
  | some l => need (off8Of w == 0) (mkLit (dOf w) (aOf w) (ordOf w) l)

/-- Form JMP with a guard, with DISP20 or a literal (R51, R60). -/
def jmpForm (w : Code) (lit : Option Word) (mk : BitVec 3 → Bool → BitVec 20 → Instr)
    (mkLit : BitVec 3 → Bool → Word → Instr) : Except DecodeError Instr :=
  match lit with
  | none => .ok (mk (pdOf w) (pnOf w) (dispOf w))
  | some l => need (dispOf w == 0) (mkLit (pdOf w) (pnOf w) l)

/-- Form REG with three registers (R51). -/
def reg3 (w : Code) (lit : Option Word) (mk : BitVec 7 → BitVec 7 → BitVec 7 → Instr) : Except DecodeError Instr :=
  noLit lit true (mk (dOf w) (aOf w) (bOf w))

/-- Form REG without B (R74). -/
def reg2 (w : Code) (lit : Option Word) (mk : BitVec 7 → BitVec 7 → Instr) : Except DecodeError Instr :=
  noLit lit (bOf w == 0) (mk (dOf w) (aOf w))

/-- A base form by its major opcode (R73) and member (R74, R75). -/
def decodeBase (w : Code) (lit : Option Word) : Except DecodeError Instr :=
  match (majOf w).toNat with
  | 0x01 => if codeOf w == 0 then noLit lit true .nop else .error .unassigned
  | 0x02 => noLit lit (fieldOf w 16 8 == 0) (.trap (fieldOf w 0 16))
  | 0x03 => noLit lit (fieldOf w 16 8 == 0) (.brk (fieldOf w 0 16))
  | 0x04 => immForm w lit .addi .addiLit
  | 0x05 => immForm w lit .andi .andiLit
  | 0x06 => immForm w lit .ori .oriLit
  | 0x07 => immForm w lit .xori .xoriLit
  | 0x08 => immForm w lit .shli .shliLit
  | 0x09 => immForm w lit .shri .shriLit
  | 0x0a => immForm w lit .sari .sariLit
  | 0x0b => immForm w lit .roti .rotiLit
  | 0x0C => match lit with
    | some l => need (aOf w == 0 && imm10Of w == 0) (.movl (dOf w) l)
    | none => .error .field
  | 0x0D => immForm w lit .lea .leaLit
  | 0x0E => match lit with
    | none => .ok (.cmpi (pdOf w) (ccOf w) (aOf w) (imm10Of w))
    | some l => need (imm10Of w == 0) (.cmpiLit (pdOf w) (ccOf w) (aOf w) l)
  | 0x0F => if fnOf w == 0 then noLit lit true (.cmp (pdOf w) (ccOf w) (aOf w) (bOf w)) else .error .unassigned
  | 0x10 => match (fnOf w).toNat with
    | 0 => reg3 w lit .add
    | 1 => reg3 w lit .sub
    | 2 => reg3 w lit .and
    | 3 => reg3 w lit .or
    | 4 => reg3 w lit .xor
    | 5 => reg3 w lit .andn
    | 6 => reg3 w lit .min
    | 7 => reg3 w lit .max
    | _ => .error .unassigned
  | 0x11 => match (fnOf w).toNat with
    | 0 => reg3 w lit .shl
    | 1 => reg3 w lit .shr
    | 2 => reg3 w lit .sar
    | 3 => reg3 w lit .rot
    | 4 => reg3 w lit .minn
    | 5 => reg3 w lit .maxn
    | _ => .error .unassigned
  | 0x12 => match (fnOf w).toNat with
    | 0 => reg3 w lit .mul
    | 1 => reg3 w lit .mulh
    | 2 => reg3 w lit .mulhn
    | 3 => reg3 w lit .div
    | 4 => reg3 w lit .divn
    | 5 => reg3 w lit .rem
    | 6 => reg3 w lit .remn
    | _ => .error .unassigned
  | 0x13 => match (fnOf w).toNat with
    | 0 => reg2 w lit .clz
    | 1 => reg2 w lit .ctz
    | 2 => reg2 w lit .popc
    | 3 => reg2 w lit .brev
    | 4 => reg2 w lit .mov
    | _ => .error .unassigned
  | 0x14 => match (fnOf w).toNat with
    | 0 => reg3 w lit .pand
    | 1 => reg3 w lit .por
    | 2 => reg3 w lit .pxor
    | 3 => reg2 w lit .pnot
    | _ => .error .unassigned
  | 0x15 => noLit lit true (.sel (dOf w) (aOf w) (bOf w) (fnOf w))
  | 0x16 => match (fnOf w).toNat with
    | 0 => noLit lit true (.fcmp (pdOf w) (ccOf w) (aOf w) (bOf w) false)
    | 1 => noLit lit true (.fcmp (pdOf w) (ccOf w) (aOf w) (bOf w) true)
    | _ => .error .unassigned
  | 0x17 => match (fnOf w).toNat with
    | 0 => noLit lit (dOf w == 0 && bOf w == 0) (.bri (aOf w))
    | 1 => noLit lit (dOf w == 0 && bOf w == 0) (.ret (aOf w))
    | _ => .error .unassigned
  | 0x18 => match lit with
    | none => need (pdOf w == 0 && !pnOf w) (.br (dispOf w))
    | some l => need (pdOf w == 0 && !pnOf w && dispOf w == 0) (.brLit l)
  | 0x19 => jmpForm w lit .brp .brpLit
  | 0x1A => jmpForm w lit .call .callLit
  | 0x1B => match lit with
    | none => need (!pnOf w) (.loop (pdOf w) (dispOf w))
    | some l => need (!pnOf w && dispOf w == 0) (.loopLit (pdOf w) l)
  | 0x1C => match (codeOf w).toNat with
    | 0 => noLit lit true .fence
    | 1 => noLit lit true .fenceRed
    | _ => .error .unassigned
  | 0x1D => if codeOf w == 0 then noLit lit true .exit else .error .unassigned
  | 0x1E => if codeOf w == 0 then noLit lit true .yield else .error .unassigned
  | 0x1F => match (sysFnOf w).toNat with
    | 0 => noLit lit true (.mfs (dOf w) (sysOf w))
    | 1 => noLit lit true (.mts (dOf w) (sysOf w))
    | _ => .error .unassigned
  | 0x20 => memForm w lit .ldI8 .ldI8Lit
  | 0x21 => memForm w lit .ldN8 .ldN8Lit
  | 0x22 => memForm w lit .ldI16 .ldI16Lit
  | 0x23 => memForm w lit .ldN16 .ldN16Lit
  | 0x24 => memForm w lit .ldI32 .ldI32Lit
  | 0x25 => memForm w lit .ldN32 .ldN32Lit
  | 0x26 => memForm w lit .ld64 .ld64Lit
  | 0x27 => memForm w lit .ld128 .ld128Lit
  | 0x28 => memForm w lit .st8 .st8Lit
  | 0x29 => memForm w lit .st16 .st16Lit
  | 0x2a => memForm w lit .st32 .st32Lit
  | 0x2b => memForm w lit .st64 .st64Lit
  | 0x2c => memForm w lit .st128 .st128Lit
  | 0x2D => match (crgFnOf w).toNat with
    | 0 => noLit lit (dOf w == 0) (.movToC (aOf w) (cOf w))
    | 1 => noLit lit (aOf w == 0) (.movFromC (dOf w) (cOf w))
    | _ => .error .unassigned
  | 0x2E => match lit with
    | none => .ok (.mtd (tOf w) (tdOf w) (fldOf w) (imm9Of w))
    | some l => need (imm9Of w == 0) (.mtdLit (tOf w) (tdOf w) (fldOf w) l)
  | 0x2F => noLit lit (imm9Of w == 0) (.mfd (tOf w) (tdOf w) (fldOf w))
  | 0x30 => noLit lit (tdOf w == 0 && imm9Of w == 0) (.tzero (tOf w) (fldOf w))
  | _ => .error .unassigned

/-- The constructor of an extended opcode: MAJ and MIN as R76 assigns them. -/
def extInstr (maj min : Nat) (x : Ext) : Option Instr :=
  match maj with
  | 0x31 => match min with
    | 0 => some (.fadd x)
    | 1 => some (.fsub x)
    | 2 => some (.fmul x)
    | 3 => some (.fdiv x)
    | 4 => some (.fmin x)
    | 5 => some (.fmax x)
    | 6 => some (.fsqrt x)
    | 7 => some (.ffma x)
    | 8 => some (.fcvt x)
    | 9 => some (.fclass x)
    | 16 => some (.ext x)
    | 17 => some (.extn x)
    | 18 => some (.ins x)
    | _ => none
  | 0x32 => match min with
    | 0 => some (.ldf x)
    | 1 => some (.ldfClr x)
    | 2 => some (.stf x)
    | 3 => some (.sts x)
    | 4 => some (.sete x)
    | 5 => some (.setf x)
    | 6 => some (.feq x)
    | 7 => some (.roinv x)
    | _ => none
  | 0x33 => match min with
    | 0 => some (.aadd x)
    | 1 => some (.aand x)
    | 2 => some (.aor x)
    | 3 => some (.axor x)
    | 4 => some (.amin x)
    | 5 => some (.amax x)
    | 6 => some (.aminn x)
    | 7 => some (.amaxn x)
    | 8 => some (.axchg x)
    | 9 => some (.acas x)
    | 10 => some (.afadd x)
    | 16 => some (.redadd x)
    | 17 => some (.redmin x)
    | 18 => some (.redmax x)
    | 19 => some (.redand x)
    | 20 => some (.redor x)
    | 21 => some (.redxor x)
    | 22 => some (.redfadd x)
    | _ => none
  | 0x34 => match min with
    | 0 => some (.spawn x)
    | 1 => some (.migrate x)
    | 2 => some (.rput x)
    | _ => none
  | 0x35 => match min with
    | 0 => some (.tld x)
    | 1 => some (.tst x)
    | 2 => some (.tstAon x)
    | 3 => some (.tldv x)
    | 4 => some (.tmov x)
    | 5 => some (.ttr x)
    | _ => none
  | 0x36 => match min with
    | 0 => some (.vadd x)
    | 1 => some (.vsub x)
    | 2 => some (.vmul x)
    | 3 => some (.vmin x)
    | 4 => some (.vmax x)
    | 5 => some (.vfma x)
    | 6 => some (.vabs x)
    | 7 => some (.vneg x)
    | 8 => some (.vand x)
    | 9 => some (.vor x)
    | 10 => some (.vxor x)
    | 11 => some (.vshl x)
    | 12 => some (.vshr x)
    | 13 => some (.vcmp x)
    | 14 => some (.vsel x)
    | _ => none
  | 0x37 => match min with
    | 0 => some (.vcvt x)
    | 1 => some (.vqnt x)
    | 2 => some (.vdq x)
    | 8 => some (.vexp2 x)
    | 9 => some (.vlog2 x)
    | 10 => some (.vrcp x)
    | 11 => some (.vrsq x)
    | 16 => some (.vredsum x)
    | 17 => some (.vredmax x)
    | 18 => some (.vredmin x)
    | 24 => some (.vbcst x)
    | 25 => some (.vperm x)
    | 26 => some (.vgather x)
    | 27 => some (.vscan x)
    | _ => none
  | 0x38 => match min with
    | 0 => some (.mgang x)
    | 1 => some (.mleave x)
    | 2 => some (.wld x)
    | 3 => some (.wswap x)
    | 4 => some (.mma x)
    | 5 => some (.mdrain x)
    | 6 => some (.mzero x)
    | 7 => some (.mstat x)
    | _ => none
  | 0x39 => match min with
    | 0 => some (.wpush x)
    | 1 => some (.wpop x)
    | 2 => some (.wlen x)
    | 3 => some (.balcfg x)
    | _ => none
  | 0x3a => match min with
    | 0 => some (.phnew x)
    | 1 => some (.phreg x)
    | 2 => some (.phdrop x)
    | 3 => some (.phsig x)
    | 4 => some (.phwait x)
    | 5 => some (.phnext x)
    | 6 => some (.phfree x)
    | 7 => some (.phq x)
    | _ => none
  | 0x3b => match min with
    | 0 => some (.copen x)
    | 1 => some (.cresize x)
    | 2 => some (.cclose x)
    | 3 => some (.cquery x)
    | _ => none
  | 0x3c => match min with
    | 0 => some (.cpy x)
    | 1 => some (.cpyg x)
    | 2 => some (.cpys x)
    | 3 => some (.cpyc x)
    | 4 => some (.cpyn x)
    | 5 => some (.coll x)
    | 6 => some (.qfence x)
    | 7 => some (.jwait x)
    | 8 => some (.jpoll x)
    | 9 => some (.jcancel x)
    | _ => none
  | 0x3d => match min with
    | 0 => some (.wlds x)
    | 1 => some (.srq x)
    | 8 => some (.name x)
    | 9 => some (.nld x)
    | 10 => some (.nref x)
    | 11 => some (.nrel x)
    | 12 => some (.nswap x)
    | 13 => some (.nroot x)
    | 14 => some (.nstat x)
    | _ => none
  | 0x3e => match min with
    | 0 => some (.tlbw x)
    | 1 => some (.tlbi x)
    | 2 => some (.tlbp x)
    | 3 => some (.walkret x)
    | _ => none
  | _ => none

/-- The fields of an extended form (R54). -/
def extOf (w w1 w2 : Code) (lit : Option Word) : Ext where
  pg := fieldOf w 11 3
  pn := bitOf w 10
  rm := fieldOf w 7 3
  dfmt := fieldOf w 3 4
  sat := bitOf w 2
  d := fieldOf w1 25 7
  a := fieldOf w1 18 7
  b := fieldOf w1 11 7
  c := fieldOf w1 4 7
  sfmt := fieldOf w1 0 4
  row0 := fieldOf w2 27 5
  rcnt := fieldOf w2 22 5
  men := bitOf w2 21
  km := fieldOf w2 19 2
  imm := fieldOf w2 0 19
  lit := lit

/-- An extended form (R54, R76); bits [1:0] of the first word are reserved. -/
def decodeExt (w w1 w2 : Code) (lit : Option Word) : Except DecodeError Instr :=
  match extInstr (majOf w).toNat (minOf w).toNat (extOf w w1 w2 lit) with
  | some i => need (fieldOf w 0 2 == 0) i
  | none => .error .unassigned

/-- Checks 3 and 4 of R63 on the codes inside an instruction. -/
def checked (r : Except DecodeError Instr) : Except DecodeError Instr :=
  match r with
  | .ok i => if i.assigned then (if i.fieldsOk then .ok i else .error .field) else .error .unassigned
  | .error e =>
    .error e

/-- How many words an instruction has (R49). -/
def lenWords (w : Code) : Nat :=
  match (lenOf w).toNat with
  | 0 => 1
  | 3 => 5
  | _ => 3

/-- LEN does not agree with the major kind (R50); the unassigned majors are left to check 3 (R77). -/
def lenWrong (w : Code) : Bool :=
  let m := (majOf w).toNat
  (1 ≤ m && m ≤ 0x30 && 2 ≤ (lenOf w).toNat) || (0x31 ≤ m && m ≤ 0x3E && (lenOf w).toNat < 2)

/-- A 64-bit literal, low word first (R49). -/
def litOf (lo hi : Code) : Word := hi ++ lo

/-- The words of one instruction at word pos of its fetch block, checked in the order of R63. -/
def decode (pos : Nat) (ws : List Code) : Except DecodeError Instr :=
  match ws with
  | [] => .error .short
  | w :: rest =>
    if w == 0 || lenWrong w then .error .zeroOrLength
    else if 16 < pos + lenWords w then .error .straddle
    else match (lenOf w).toNat, rest with
      | 0, _ => checked (decodeBase w none)
      | 1, lo :: hi :: _ => checked (decodeBase w (some (litOf lo hi)))
      | 2, w1 :: w2 :: _ => checked (decodeExt w w1 w2 none)
      | 3, w1 :: w2 :: lo :: hi :: _ => checked (decodeExt w w1 w2 (some (litOf lo hi)))
      | _, _ => .error .short

/-- A word from its bytes, little-endian (R49); missing bytes give none. -/
def wordsOfBytes : List Byte → List Code
  | b0 :: b1 :: b2 :: b3 :: rest => (b3 ++ b2 ++ b1 ++ b0 : BitVec 32) :: wordsOfBytes rest
  | _ => []

/-- The bytes of a word, little-endian (R49). -/
def bytesOfCode (w : Code) : List Byte :=
  [w.extractLsb' 0 8, w.extractLsb' 8 8, w.extractLsb' 16 8, w.extractLsb' 24 8]

/-- The bytes of words at ascending addresses (R49). -/
def bytesOfWords (ws : List Code) : List Byte := ws.flatMap bytesOfCode

/-- The decoder on bytes: the instruction that starts at word pos of its fetch block. -/
def decodeBytes (pos : Nat) (bs : List Byte) : Except DecodeError Instr := decode pos (wordsOfBytes bs)

/-- The longest instruction, 160 bits, of a table word: its bits above nbits are zero. -/
def tableWords (nbits w : Nat) : List Code :=
  (List.range 5).map fun k => BitVec.ofNat 32 ((w % 2 ^ nbits) / 2 ^ (32 * k))

/-- What the decoder reads from a word numbered as spec/opcode_table.json numbers it. -/
def decodeTableWord (nbits w : Nat) : Option Instr :=
  match decodeBytes 0 (bytesOfWords (tableWords nbits w)) with
  | .ok i => some i
  | .error _ => none

/-- Form REG and every base form as bit strings: LEN, MAJ and 24 bits (R49, R51). -/
def packBase (lit : Bool) (maj : BitVec 6) (low : BitVec 24) : Code :=
  BitVec.ofBool false ++ BitVec.ofBool lit ++ maj ++ low

/-- Form REG (R51). -/
def lowReg (d a b : BitVec 7) (fn : BitVec 3) : BitVec 24 := d ++ a ++ b ++ fn
/-- Form IMM (R51). -/
def lowImm (d a : BitVec 7) (imm : BitVec 10) : BitVec 24 := d ++ a ++ imm
/-- Form MEM (R51). -/
def lowMem (d a : BitVec 7) (ord : BitVec 2) (off : BitVec 8) : BitVec 24 := d ++ a ++ ord ++ off
/-- Form CMP (R51). -/
def lowCmp (pd : BitVec 3) (cc : BitVec 4) (a b : BitVec 7) (fn : BitVec 3) : BitVec 24 := pd ++ cc ++ a ++ b ++ fn
/-- Form CMPI (R51). -/
def lowCmpi (pd : BitVec 3) (cc : BitVec 4) (a : BitVec 7) (imm : BitVec 10) : BitVec 24 := pd ++ cc ++ a ++ imm
/-- Form JMP (R51). -/
def lowJmp (pg : BitVec 3) (pn : Bool) (disp : BitVec 20) : BitVec 24 := pg ++ BitVec.ofBool pn ++ disp
/-- Form SYS (R51). -/
def lowSys (d : BitVec 7) (n : BitVec 12) (fn : BitVec 5) : BitVec 24 := d ++ n ++ fn
/-- Form CRG (R51). -/
def lowCrg (d a : BitVec 7) (c : BitVec 4) (fn : BitVec 6) : BitVec 24 := d ++ a ++ c ++ fn
/-- Form TDS (R51). -/
def lowTds (t : BitVec 4) (d : BitVec 7) (fld : BitVec 4) (imm : BitVec 9) : BitVec 24 := t ++ d ++ fld ++ imm
/-- Form CODE with a 16-bit code (R153). -/
def lowCode (c : BitVec 16) : BitVec 24 := 0#8 ++ c

/-- First word of an extended form (R54). -/
def packExt0 (lit : Bool) (maj : BitVec 6) (min : BitVec 10) (x : Ext) : Code :=
  BitVec.ofBool true ++ BitVec.ofBool lit ++ maj ++ min ++ x.pg ++ BitVec.ofBool x.pn ++ x.rm ++ x.dfmt ++ BitVec.ofBool x.sat ++ 0#2
/-- Word 1 of an extended form (R54). -/
def packExt1 (x : Ext) : Code := x.d ++ x.a ++ x.b ++ x.c ++ x.sfmt
/-- Word 2 of an extended form (R54). -/
def packExt2 (x : Ext) : Code := x.row0 ++ x.rcnt ++ BitVec.ofBool x.men ++ x.km ++ x.imm

/-- The words of a literal, low word first (R49). -/
def litWords (l : Word) : List Code := [l.extractLsb' 0 32, l.extractLsb' 32 32]

/-- The words of an extended form (R49, R54). -/
def packExt (maj : BitVec 6) (min : BitVec 10) (x : Ext) : List Code :=
  match x.lit with
  | none => [packExt0 false maj min x, packExt1 x, packExt2 x]
  | some l => packExt0 true maj min x :: packExt1 x :: packExt2 x :: litWords l

/-- A base instruction of one word. -/
def short (maj : BitVec 6) (low : BitVec 24) : List Code := [packBase false maj low]
/-- A base instruction with a literal (R60). -/
def long (maj : BitVec 6) (low : BitVec 24) (l : Word) : List Code := packBase true maj low :: litWords l

/-- The words of an instruction; a step of the part has none. -/
def encode : Instr → List Code
  | .nop => short 0x01 0
  | .trap c => short 0x02 (lowCode c)
  | .brk c => short 0x03 (lowCode c)
  | .addi d a i => short 0x04 (lowImm d a i)
  | .addiLit d a l => long 0x04 (lowImm d a 0) l
  | .andi d a i => short 0x05 (lowImm d a i)
  | .andiLit d a l => long 0x05 (lowImm d a 0) l
  | .ori d a i => short 0x06 (lowImm d a i)
  | .oriLit d a l => long 0x06 (lowImm d a 0) l
  | .xori d a i => short 0x07 (lowImm d a i)
  | .xoriLit d a l => long 0x07 (lowImm d a 0) l
  | .shli d a i => short 0x08 (lowImm d a i)
  | .shliLit d a l => long 0x08 (lowImm d a 0) l
  | .shri d a i => short 0x09 (lowImm d a i)
  | .shriLit d a l => long 0x09 (lowImm d a 0) l
  | .sari d a i => short 0x0a (lowImm d a i)
  | .sariLit d a l => long 0x0a (lowImm d a 0) l
  | .roti d a i => short 0x0b (lowImm d a i)
  | .rotiLit d a l => long 0x0b (lowImm d a 0) l
  | .movl d l => long 0x0C (lowImm d 0 0) l
  | .lea d a i => short 0x0D (lowImm d a i)
  | .leaLit d a l => long 0x0D (lowImm d a 0) l
  | .cmpi pd cc a i => short 0x0E (lowCmpi pd cc a i)
  | .cmpiLit pd cc a l => long 0x0E (lowCmpi pd cc a 0) l
  | .cmp pd cc a b => short 0x0F (lowCmp pd cc a b 0)
  | .add d a b => short 0x10 (lowReg d a b 0)
  | .sub d a b => short 0x10 (lowReg d a b 1)
  | .and d a b => short 0x10 (lowReg d a b 2)
  | .or d a b => short 0x10 (lowReg d a b 3)
  | .xor d a b => short 0x10 (lowReg d a b 4)
  | .andn d a b => short 0x10 (lowReg d a b 5)
  | .min d a b => short 0x10 (lowReg d a b 6)
  | .max d a b => short 0x10 (lowReg d a b 7)
  | .shl d a b => short 0x11 (lowReg d a b 0)
  | .shr d a b => short 0x11 (lowReg d a b 1)
  | .sar d a b => short 0x11 (lowReg d a b 2)
  | .rot d a b => short 0x11 (lowReg d a b 3)
  | .minn d a b => short 0x11 (lowReg d a b 4)
  | .maxn d a b => short 0x11 (lowReg d a b 5)
  | .mul d a b => short 0x12 (lowReg d a b 0)
  | .mulh d a b => short 0x12 (lowReg d a b 1)
  | .mulhn d a b => short 0x12 (lowReg d a b 2)
  | .div d a b => short 0x12 (lowReg d a b 3)
  | .divn d a b => short 0x12 (lowReg d a b 4)
  | .rem d a b => short 0x12 (lowReg d a b 5)
  | .remn d a b => short 0x12 (lowReg d a b 6)
  | .clz d a => short 0x13 (lowReg d a 0 0)
  | .ctz d a => short 0x13 (lowReg d a 0 1)
  | .popc d a => short 0x13 (lowReg d a 0 2)
  | .brev d a => short 0x13 (lowReg d a 0 3)
  | .mov d a => short 0x13 (lowReg d a 0 4)
  | .pand d a b => short 0x14 (lowReg d a b 0)
  | .por d a b => short 0x14 (lowReg d a b 1)
  | .pxor d a b => short 0x14 (lowReg d a b 2)
  | .pnot d a => short 0x14 (lowReg d a 0 3)
  | .sel d a b n => short 0x15 (lowReg d a b n)
  | .fcmp pd cc a b f => short 0x16 (lowCmp pd cc a b (if f then 1 else 0))
  | .bri a => short 0x17 (lowReg 0 a 0 0)
  | .ret a => short 0x17 (lowReg 0 a 0 1)
  | .br disp => short 0x18 (lowJmp 0 false disp)
  | .brLit l => long 0x18 (lowJmp 0 false 0) l
  | .brp pg pn disp => short 0x19 (lowJmp pg pn disp)
  | .brpLit pg pn l => long 0x19 (lowJmp pg pn 0) l
  | .call pg pn disp => short 0x1A (lowJmp pg pn disp)
  | .callLit pg pn l => long 0x1A (lowJmp pg pn 0) l
  | .loop cnt disp => short 0x1B (lowJmp cnt false disp)
  | .loopLit cnt l => long 0x1B (lowJmp cnt false 0) l
  | .fence => short 0x1C (lowCode 0)
  | .fenceRed => short 0x1C (lowCode 1)
  | .exit => short 0x1D 0
  | .yield => short 0x1E 0
  | .mfs d n => short 0x1F (lowSys d n 0)
  | .mts d n => short 0x1F (lowSys d n 1)
  | .ldI8 d a o f => short 0x20 (lowMem d a o f)
  | .ldI8Lit d a o l => long 0x20 (lowMem d a o 0) l
  | .ldN8 d a o f => short 0x21 (lowMem d a o f)
  | .ldN8Lit d a o l => long 0x21 (lowMem d a o 0) l
  | .ldI16 d a o f => short 0x22 (lowMem d a o f)
  | .ldI16Lit d a o l => long 0x22 (lowMem d a o 0) l
  | .ldN16 d a o f => short 0x23 (lowMem d a o f)
  | .ldN16Lit d a o l => long 0x23 (lowMem d a o 0) l
  | .ldI32 d a o f => short 0x24 (lowMem d a o f)
  | .ldI32Lit d a o l => long 0x24 (lowMem d a o 0) l
  | .ldN32 d a o f => short 0x25 (lowMem d a o f)
  | .ldN32Lit d a o l => long 0x25 (lowMem d a o 0) l
  | .ld64 d a o f => short 0x26 (lowMem d a o f)
  | .ld64Lit d a o l => long 0x26 (lowMem d a o 0) l
  | .ld128 d a o f => short 0x27 (lowMem d a o f)
  | .ld128Lit d a o l => long 0x27 (lowMem d a o 0) l
  | .st8 d a o f => short 0x28 (lowMem d a o f)
  | .st8Lit d a o l => long 0x28 (lowMem d a o 0) l
  | .st16 d a o f => short 0x29 (lowMem d a o f)
  | .st16Lit d a o l => long 0x29 (lowMem d a o 0) l
  | .st32 d a o f => short 0x2a (lowMem d a o f)
  | .st32Lit d a o l => long 0x2a (lowMem d a o 0) l
  | .st64 d a o f => short 0x2b (lowMem d a o f)
  | .st64Lit d a o l => long 0x2b (lowMem d a o 0) l
  | .st128 d a o f => short 0x2c (lowMem d a o f)
  | .st128Lit d a o l => long 0x2c (lowMem d a o 0) l
  | .movToC a c => short 0x2D (lowCrg 0 a c 0)
  | .movFromC d c => short 0x2D (lowCrg d 0 c 1)
  | .mtd t d f i => short 0x2E (lowTds t d f i)
  | .mtdLit t d f l => long 0x2E (lowTds t d f 0) l
  | .mfd t d f => short 0x2F (lowTds t d f 0)
  | .tzero t f => short 0x30 (lowTds t 0 f 0)
  | .fadd x => packExt 0x31 0 x
  | .fsub x => packExt 0x31 1 x
  | .fmul x => packExt 0x31 2 x
  | .fdiv x => packExt 0x31 3 x
  | .fmin x => packExt 0x31 4 x
  | .fmax x => packExt 0x31 5 x
  | .fsqrt x => packExt 0x31 6 x
  | .ffma x => packExt 0x31 7 x
  | .fcvt x => packExt 0x31 8 x
  | .fclass x => packExt 0x31 9 x
  | .ext x => packExt 0x31 16 x
  | .extn x => packExt 0x31 17 x
  | .ins x => packExt 0x31 18 x
  | .ldf x => packExt 0x32 0 x
  | .ldfClr x => packExt 0x32 1 x
  | .stf x => packExt 0x32 2 x
  | .sts x => packExt 0x32 3 x
  | .sete x => packExt 0x32 4 x
  | .setf x => packExt 0x32 5 x
  | .feq x => packExt 0x32 6 x
  | .roinv x => packExt 0x32 7 x
  | .aadd x => packExt 0x33 0 x
  | .aand x => packExt 0x33 1 x
  | .aor x => packExt 0x33 2 x
  | .axor x => packExt 0x33 3 x
  | .amin x => packExt 0x33 4 x
  | .amax x => packExt 0x33 5 x
  | .aminn x => packExt 0x33 6 x
  | .amaxn x => packExt 0x33 7 x
  | .axchg x => packExt 0x33 8 x
  | .acas x => packExt 0x33 9 x
  | .afadd x => packExt 0x33 10 x
  | .redadd x => packExt 0x33 16 x
  | .redmin x => packExt 0x33 17 x
  | .redmax x => packExt 0x33 18 x
  | .redand x => packExt 0x33 19 x
  | .redor x => packExt 0x33 20 x
  | .redxor x => packExt 0x33 21 x
  | .redfadd x => packExt 0x33 22 x
  | .spawn x => packExt 0x34 0 x
  | .migrate x => packExt 0x34 1 x
  | .rput x => packExt 0x34 2 x
  | .tld x => packExt 0x35 0 x
  | .tst x => packExt 0x35 1 x
  | .tstAon x => packExt 0x35 2 x
  | .tldv x => packExt 0x35 3 x
  | .tmov x => packExt 0x35 4 x
  | .ttr x => packExt 0x35 5 x
  | .vadd x => packExt 0x36 0 x
  | .vsub x => packExt 0x36 1 x
  | .vmul x => packExt 0x36 2 x
  | .vmin x => packExt 0x36 3 x
  | .vmax x => packExt 0x36 4 x
  | .vfma x => packExt 0x36 5 x
  | .vabs x => packExt 0x36 6 x
  | .vneg x => packExt 0x36 7 x
  | .vand x => packExt 0x36 8 x
  | .vor x => packExt 0x36 9 x
  | .vxor x => packExt 0x36 10 x
  | .vshl x => packExt 0x36 11 x
  | .vshr x => packExt 0x36 12 x
  | .vcmp x => packExt 0x36 13 x
  | .vsel x => packExt 0x36 14 x
  | .vcvt x => packExt 0x37 0 x
  | .vqnt x => packExt 0x37 1 x
  | .vdq x => packExt 0x37 2 x
  | .vexp2 x => packExt 0x37 8 x
  | .vlog2 x => packExt 0x37 9 x
  | .vrcp x => packExt 0x37 10 x
  | .vrsq x => packExt 0x37 11 x
  | .vredsum x => packExt 0x37 16 x
  | .vredmax x => packExt 0x37 17 x
  | .vredmin x => packExt 0x37 18 x
  | .vbcst x => packExt 0x37 24 x
  | .vperm x => packExt 0x37 25 x
  | .vgather x => packExt 0x37 26 x
  | .vscan x => packExt 0x37 27 x
  | .mgang x => packExt 0x38 0 x
  | .mleave x => packExt 0x38 1 x
  | .wld x => packExt 0x38 2 x
  | .wswap x => packExt 0x38 3 x
  | .mma x => packExt 0x38 4 x
  | .mdrain x => packExt 0x38 5 x
  | .mzero x => packExt 0x38 6 x
  | .mstat x => packExt 0x38 7 x
  | .wpush x => packExt 0x39 0 x
  | .wpop x => packExt 0x39 1 x
  | .wlen x => packExt 0x39 2 x
  | .balcfg x => packExt 0x39 3 x
  | .phnew x => packExt 0x3a 0 x
  | .phreg x => packExt 0x3a 1 x
  | .phdrop x => packExt 0x3a 2 x
  | .phsig x => packExt 0x3a 3 x
  | .phwait x => packExt 0x3a 4 x
  | .phnext x => packExt 0x3a 5 x
  | .phfree x => packExt 0x3a 6 x
  | .phq x => packExt 0x3a 7 x
  | .copen x => packExt 0x3b 0 x
  | .cresize x => packExt 0x3b 1 x
  | .cclose x => packExt 0x3b 2 x
  | .cquery x => packExt 0x3b 3 x
  | .cpy x => packExt 0x3c 0 x
  | .cpyg x => packExt 0x3c 1 x
  | .cpys x => packExt 0x3c 2 x
  | .cpyc x => packExt 0x3c 3 x
  | .cpyn x => packExt 0x3c 4 x
  | .coll x => packExt 0x3c 5 x
  | .qfence x => packExt 0x3c 6 x
  | .jwait x => packExt 0x3c 7 x
  | .jpoll x => packExt 0x3c 8 x
  | .jcancel x => packExt 0x3c 9 x
  | .wlds x => packExt 0x3d 0 x
  | .srq x => packExt 0x3d 1 x
  | .name x => packExt 0x3d 8 x
  | .nld x => packExt 0x3d 9 x
  | .nref x => packExt 0x3d 10 x
  | .nrel x => packExt 0x3d 11 x
  | .nswap x => packExt 0x3d 12 x
  | .nroot x => packExt 0x3d 13 x
  | .nstat x => packExt 0x3d 14 x
  | .tlbw x => packExt 0x3e 0 x
  | .tlbi x => packExt 0x3e 1 x
  | .tlbp x => packExt 0x3e 2 x
  | .walkret x => packExt 0x3e 3 x
  | _ => []

end Sys2Proof
end

