-- ==== Sys2Proof/Machine/Flags.lean ====
section
/-!
DEFINITION. Number formats, RoundOnce, the sticky flags and the stochastic generator (05_numbers.md), and the arithmetic on exact
values that the scalar, vector and matrix instructions share.
-/

namespace Sys2Proof.Machine

/-- A set of sticky flags, placed as in STATUS[7:0] (R87). -/
abbrev Flags := BitVec 8

/-- NX: inexact (R87). -/
def flagNX : Flags := 0x01
/-- UF: underflow (R87). -/
def flagUF : Flags := 0x02
/-- OF: overflow (R87). -/
def flagOF : Flags := 0x04
/-- DZ: division of a finite non-zero value by zero (R87). -/
def flagDZ : Flags := 0x08
/-- NV: invalid operation (R87, R88). -/
def flagNV : Flags := 0x10
/-- ST: saturation (R87). -/
def flagST : Flags := 0x20
/-- IB: invalid block (R87, R102). -/
def flagIB : Flags := 0x40
/-- IM: invalid mode (R87, R90). -/
def flagIM : Flags := 0x80

/-- A flag if a condition holds. -/
def flagIf (c : Bool) (f : Flags) : Flags := if c then f else 0

/-- An exact value: Val of R71. A finite value is (m + t) × 2^e with its sign, where t is 0, or lies strictly between 0 and 1
when cut is set (quotients and roots, cut far below every rounding position). -/
inductive Val where
  | nan (signalling : Bool)
  | inf (neg : Bool)
  | fin (neg : Bool) (m : Nat) (e : Int) (cut : Bool)
deriving DecidableEq, Repr

/-- The rounding modes of R57 that round; .rdyn is resolved to one of them (R90). -/
inductive Mode where
  | rne | rtz | rup | rdn | rsr
deriving DecidableEq, Repr

/-- A floating-point format of R82. -/
structure FpFmt where
  ebits : Nat
  fbits : Nat
  bias : Int
  /-- encoding of the largest finite value -/
  maxEnc : Nat
  /-- the format has infinities -/
  hasInf : Bool
  /-- the canonical NaN -/
  nan : Nat
  /-- a NaN whose top fraction bit is 0 signals (R83) -/
  signals : Bool
deriving DecidableEq, Repr

/-- binary64 (R82). -/
def fmt64 : FpFmt := ⟨11, 52, 1023, 0x7FEFFFFFFFFFFFFF, true, 0x7FF8000000000000, true⟩
/-- binary32 (R82). -/
def fmt32 : FpFmt := ⟨8, 23, 127, 0x7F7FFFFF, true, 0x7FC00000, true⟩
/-- BF16 (R82). -/
def fmtBf16 : FpFmt := ⟨8, 7, 127, 0x7F7F, true, 0x7FC0, true⟩
/-- binary16 (R82). -/
def fmt16 : FpFmt := ⟨5, 10, 15, 0x7BFF, true, 0x7E00, true⟩
/-- E4M3 (R82). -/
def fmtE4M3 : FpFmt := ⟨4, 3, 7, 0x7E, false, 0x7F, false⟩
/-- E5M2 (R82). -/
def fmtE5M2 : FpFmt := ⟨5, 2, 15, 0x7B, true, 0x7E, false⟩

/-- The floating-point format of a code 8 to 13 of R58; other codes have no such format and give binary32. -/
def fpFmt (code : Nat) : FpFmt :=
  match code with
  | 8 => fmt64
  | 10 => fmtBf16
  | 11 => fmt16
  | 12 => fmtE4M3
  | 13 => fmtE5M2
  | _ => fmt32

/-- The width in bits of an element of a format code (R58); CB4 elements have 4 bits. -/
def fmtBits (code : Nat) : Nat :=
  match code with
  | 0 | 4 | 12 | 13 | 15 => 8
  | 1 | 5 | 10 | 11 => 16
  | 2 | 6 | 9 => 32
  | 14 => 4
  | _ => 64

/-- The sign bit of an encoding. -/
def FpFmt.signOf (f : FpFmt) (x : Nat) : Bool := (x / 2 ^ (f.ebits + f.fbits)) % 2 == 1

/-- Val of an encoding in a floating-point format (R82, R83). -/
def FpFmt.val (f : FpFmt) (x : Nat) : Val :=
  let frac := x % 2 ^ f.fbits
  let ex := (x / 2 ^ f.fbits) % 2 ^ f.ebits
  let neg := f.signOf x
  if ex == 2 ^ f.ebits - 1 && (f.hasInf || frac == 2 ^ f.fbits - 1) then
    if f.hasInf && frac == 0 then .inf neg else .nan (f.signals && frac < 2 ^ (f.fbits - 1))
  else if ex == 0 then .fin neg frac (1 - f.bias - f.fbits) false
  else .fin neg (2 ^ f.fbits + frac) (Int.ofNat ex - f.bias - f.fbits) false

/-- Two's complement value of the low n bits (SignExtend of R71). -/
def sext (x n : Nat) : Int :=
  let y := x % 2 ^ n
  if n != 0 && 2 ^ (n - 1) ≤ y then Int.ofNat y - Int.ofNat (2 ^ n) else Int.ofNat y

/-- An exact integer as a value. -/
def valInt (i : Int) : Val := .fin (i < 0) i.natAbs 0 false

/-- Val of the low bits of x in a format code of R58, CB4 apart: integers, floating point, E8M0 (R84). -/
def valOf (code x : Nat) : Val :=
  if code < 4 then valInt (sext x (fmtBits code))
  else if code < 8 then valInt (Int.ofNat (x % 2 ^ fmtBits code))
  else if code == 15 then (if x % 256 == 255 then .nan false else .fin false 1 (Int.ofNat (x % 256) - 127) false)
  else (fpFmt code).val x

/-- A value is a signalling NaN (R88). -/
def Val.signals : Val → Bool
  | .nan s => s
  | _ => false

/-- A value is a NaN. -/
def Val.isNan : Val → Bool
  | .nan _ => true
  | _ => false

/-- A value is a NaN or an infinity. -/
def Val.nonFinite : Val → Bool
  | .fin _ _ _ _ => false
  | _ => true

/-- A value is a zero. -/
def Val.isZero : Val → Bool
  | .fin _ 0 _ false => true
  | _ => false

/-- The sign of a value; a NaN has none. -/
def Val.neg : Val → Bool
  | .nan _ => false
  | .inf n => n
  | .fin n _ _ _ => n

/-- −v. -/
def Val.negate : Val → Val
  | .nan s => .nan s
  | .inf n => .inf (!n)
  | .fin n m e c => .fin (!n) m e c

/-- |v|. -/
def Val.abs : Val → Val
  | .nan s => .nan s
  | .inf _ => .inf false
  | .fin _ m e c => .fin false m e c

/-- The number of significant bits of a natural number. -/
def bitLen (n : Nat) : Nat := if n == 0 then 0 else Nat.log2 n + 1

/-- m × 2^(e − low) as an integer, for low at most e. -/
def scaleTo (neg : Bool) (m : Nat) (e low : Int) : Int :=
  let v := Int.ofNat (m * 2 ^ (e - low).toNat)
  if neg then -v else v

/-- The least of two values is the first: compares exact values, infinities included; NaN is never less. -/
def Val.lt (a b : Val) : Bool :=
  match a, b with
  | .nan _, _ => false
  | _, .nan _ => false
  | .inf true, .inf true => false
  | .inf true, _ => true
  | _, .inf true => false
  | .inf false, _ => false
  | _, .inf false => true
  | .fin n m e _, .fin n' m' e' _ =>
    let low := min e e'
    scaleTo n m e low < scaleTo n' m' e' low

/-- Equality of exact values; −0 and +0 are equal, NaN equals nothing. -/
def Val.eqv (a b : Val) : Bool := !a.isNan && !b.isNan && !a.lt b && !b.lt a

/-- The sum of the finite members as an integer multiple of 2^low. -/
def sumScaled (low : Int) (vs : List Val) : Int :=
  vs.foldl (fun acc v => match v with
    | .fin n m e _ => acc + scaleTo n m e low
    | _ => acc) 0

/-- The least exponent among finite members. -/
def leastExp (vs : List Val) : Int :=
  vs.foldl (fun acc v => match v with
    | .fin _ m e _ => if m == 0 then acc else min acc e
    | _ => acc) 0

/-- ExactSum (R71), with its zero's sign (R92); the mode decides the sign of a zero sum of other values. Answers NV with it. -/
def exactSum (mode : Mode) (vs : List Val) : Val × Flags :=
  let pinf := vs.any fun v => v == .inf false
  let ninf := vs.any fun v => v == .inf true
  let nv := flagIf ((pinf && ninf) || vs.any Val.signals) flagNV
  if vs.any Val.isNan || (pinf && ninf) then (.nan false, nv)
  else if pinf then (.inf false, nv)
  else if ninf then (.inf true, nv)
  else
    let low := leastExp vs
    let s := sumScaled low (vs.filter fun v => !v.isZero)
    if s == 0 then
      (.fin (!vs.isEmpty && (vs.all (fun v => v.isZero && v.neg) || mode == .rdn)) 0 0 false, nv)
    else (.fin (s < 0) s.natAbs low false, nv)

/-- The exact product (R88, R92). -/
def valMul (a b : Val) : Val × Flags :=
  let nv := flagIf (a.signals || b.signals) flagNV
  match a, b with
  | .nan _, _ => (.nan false, nv)
  | _, .nan _ => (.nan false, nv)
  | .inf n, y => if y.isZero then (.nan false, nv ||| flagNV) else (.inf (n != y.neg), nv)
  | x, .inf n => if x.isZero then (.nan false, nv ||| flagNV) else (.inf (n != x.neg), nv)
  | .fin n m e _, .fin n' m' e' _ => (.fin (n != n') (m * m') (e + e') false, nv)

/-- The quotient of naturals to 160 bits and more, with what is cut off marked. -/
def quotient (neg : Bool) (m m' : Nat) (e : Int) : Val :=
  let k := 160 + bitLen m'
  .fin neg (m * 2 ^ k / m') (e - Int.ofNat k) (m * 2 ^ k % m' != 0)

/-- The exact quotient (R88, R146): division by zero and its flags. -/
def valDiv (a b : Val) : Val × Flags :=
  let nv := flagIf (a.signals || b.signals) flagNV
  match a, b with
  | .nan _, _ => (.nan false, nv)
  | _, .nan _ => (.nan false, nv)
  | .inf _, .inf _ => (.nan false, nv ||| flagNV)
  | .inf n, y => (.inf (n != y.neg), nv)
  | x, .inf n => (.fin (n != x.neg) 0 0 false, nv)
  | .fin n m e _, .fin n' m' e' _ =>
    if m' == 0 then (if m == 0 then (.nan false, nv ||| flagNV) else (.inf (n != n'), nv ||| flagDZ))
    else if m == 0 then (.fin (n != n') 0 0 false, nv)
    else (quotient (n != n') m m' (e - e'), nv)

/-- Integer square root, one result bit at a time from bit b down. -/
def isqrtFrom : Nat → Nat → Nat → Nat
  | 0, n, r => if (r + 1) * (r + 1) ≤ n then r + 1 else r
  | b + 1, n, r =>
    let r' := r + 2 ^ (b + 1)
    isqrtFrom b n (if r' * r' ≤ n then r' else r)

/-- ⌊√n⌋. -/
def isqrt (n : Nat) : Nat := isqrtFrom (bitLen n / 2 + 1) n 0

/-- The square root (R88, R146). -/
def valSqrt (a : Val) : Val × Flags :=
  match a with
  | .nan s => (.nan false, flagIf s flagNV)
  | .inf false => (.inf false, 0)
  | .inf true => (.nan false, flagNV)
  | .fin n m e _ =>
    if m == 0 then (.fin n 0 0 false, 0)
    else if n then (.nan false, flagNV)
    else
      let k := 240 + (e % 2).toNat
      let big := m * 2 ^ k
      let r := isqrt big
      (.fin false r ((e - Int.ofNat k) / 2) (r * r != big), 0)

/-- The magnitude on a grid of spacing 2^q: the lower neighbour in units of the grid, what is left over it in units of 2^(−w) of the grid,
w, and whether more is cut off. -/
structure Bracket where
  n : Nat
  rest : Nat
  w : Nat
  cut : Bool
deriving DecidableEq, Repr

/-- Brackets (m + t) × 2^e on the grid of spacing 2^q (R91). -/
def bracket (m : Nat) (e q : Int) (cut : Bool) : Bracket :=
  if e ≥ q then ⟨m * 2 ^ (e - q).toNat, 0, 0, cut⟩
  else
    let w := (q - e).toNat
    ⟨m / 2 ^ w, m % 2 ^ w, w, cut⟩

/-- The value lies off the grid. -/
def Bracket.inexact (b : Bracket) : Bool := b.rest != 0 || b.cut

/-- T of R95: ⌊d × 2^32⌋. -/
def Bracket.threshold (b : Bracket) : Nat := b.rest * 2 ^ 32 / 2 ^ b.w

/-- Whether the mode chooses the neighbour of the greater magnitude (R91, R95); x holds the draw of .rsr. -/
def Bracket.up (b : Bracket) (mode : Mode) (neg : Bool) (x : Nat) : Bool :=
  b.inexact && match mode with
    | .rtz => false
    | .rup => !neg
    | .rdn => neg
    | .rsr => x < b.threshold
    | .rne => 2 ^ b.w < 2 * b.rest || (2 * b.rest == 2 ^ b.w && b.w != 0 && (b.cut || b.n % 2 == 1))

/-- A mode rounds away from the bound (R91). -/
def awayFromBound (mode : Mode) (neg : Bool) : Bool :=
  match mode with
  | .rne | .rsr => true
  | .rtz => false
  | .rup => !neg
  | .rdn => neg

/-- An encoding with its sign bit. -/
def FpFmt.withSign (f : FpFmt) (neg : Bool) (enc : Nat) : Nat := if neg then enc + 2 ^ (f.ebits + f.fbits) else enc

/-- The encoding of an infinity. -/
def FpFmt.infEnc (f : FpFmt) : Nat := (2 ^ f.ebits - 1) * 2 ^ f.fbits

/-- RoundOnce into a floating-point format (R91, R92); x is the 32-bit draw of .rsr (R94). -/
def roundFp (f : FpFmt) (sat : Bool) (mode : Mode) (x : Nat) (v : Val) : Nat × Flags :=
  match v with
  | .nan _ => (f.nan, 0)
  | .inf n =>
    if sat then (f.withSign n f.maxEnc, flagST)
    else if f.hasInf then (f.withSign n f.infEnc, 0)
    else (f.nan, flagNV)
  | .fin n m e cut =>
    let emin : Int := 1 - f.bias - Int.ofNat f.fbits
    let q := max (Int.ofNat (bitLen m) - 1 + e - Int.ofNat f.fbits) emin
    let b := bracket m e q cut
    let c := if b.up mode n x then b.n + 1 else b.n
    let enc := if m == 0 then 0 else (q - emin).toNat * 2 ^ f.fbits + c
    if f.maxEnc < enc then
      if sat then (f.withSign n f.maxEnc, flagST ||| flagNX)
      else if awayFromBound mode n then
        (if f.hasInf then (f.withSign n f.infEnc, flagOF ||| flagNX) else (f.nan, flagOF ||| flagNX))
      else (f.withSign n f.maxEnc, flagOF ||| flagNX)
    else (f.withSign n enc, flagIf b.inexact flagNX ||| flagIf (b.inexact && c != 0 && enc < 2 ^ f.fbits) flagUF)

/-- RoundOnce into E8M0 (R84); x is the draw of .rsr. -/
def roundE8M0 (sat : Bool) (mode : Mode) (x : Nat) (v : Val) : Nat × Flags :=
  match v with
  | .nan _ => (255, flagNV)
  | .inf true => (255, flagNV)
  | .inf false => if sat then (254, flagST) else (255, flagOF)
  | .fin n m e cut =>
    if n || m == 0 then (255, flagNV)
    else
      let k := Int.ofNat (bitLen m) - 1 + e
      let b := bracket m e k cut
      let up := b.inexact && match mode with
        | .rtz | .rdn => false
        | .rup => true
        | .rne => 2 ^ b.w ≤ 2 * b.rest && b.w != 0
        | .rsr => x < b.threshold
      let k' := if up then k + 1 else k
      if 127 < k' then (if sat then (254, flagST ||| flagNX) else (255, flagOF ||| flagNX))
      else if k' < -127 then (0, flagUF ||| flagNX)
      else ((k' + 127).toNat, flagIf b.inexact flagNX)

/-- The least value of an integer format code (R80). -/
def intMin (code : Nat) : Int := if code < 4 then -Int.ofNat (2 ^ (fmtBits code - 1)) else 0

/-- The greatest value of an integer format code (R80). -/
def intMax (code : Nat) : Int := if code < 4 then Int.ofNat (2 ^ (fmtBits code - 1)) - 1 else Int.ofNat (2 ^ fmtBits code) - 1

/-- The low n bits of an integer (Bits of R71). -/
def bitsOf (i : Int) (n : Nat) : Nat := (i % Int.ofNat (2 ^ n)).toNat

/-- Fits an integer to its destination (R80): wraps, or saturates with ST. -/
def fitInt (code : Nat) (sat : Bool) (i : Int) : Nat × Flags :=
  if sat && i < intMin code then (bitsOf (intMin code) (fmtBits code), flagST)
  else if sat && intMax code < i then (bitsOf (intMax code) (fmtBits code), flagST)
  else (bitsOf i (fmtBits code), 0)

/-- Conversion of a value to an integer format (R81). -/
def roundInt (code : Nat) (sat : Bool) (mode : Mode) (x : Nat) (v : Val) : Nat × Flags :=
  let bound (n : Bool) := bitsOf (if n then intMin code else intMax code) (fmtBits code)
  let out (n : Bool) := (bound n, if sat then flagST else flagNV)
  match v with
  | .nan _ => (0, flagNV)
  | .inf n => out n
  | .fin n m e cut =>
    let b := bracket m e 0 cut
    let c := if b.up mode n x then b.n + 1 else b.n
    let i : Int := if n then -Int.ofNat c else Int.ofNat c
    if i < intMin code then out true
    else if intMax code < i then out false
    else (bitsOf i (fmtBits code), flagIf b.inexact flagNX)

/-- RoundOnce, or the conversion of R81 or R84, into any format code but CB4. -/
def roundTo (code : Nat) (sat : Bool) (mode : Mode) (x : Nat) (v : Val) : Nat × Flags :=
  if code < 8 then roundInt code sat mode x v
  else if code == 15 then roundE8M0 sat mode x v
  else roundFp (fpFmt code) sat mode x v

/-- Mix of R93. -/
def mix (z : Word) : Word :=
  let z := (z ^^^ (z >>> 30)) * 0xBF58476D1CE4E5B9
  let z := (z ^^^ (z >>> 27)) * 0x94D049BB133111EB
  z ^^^ (z >>> 31)

/-- The generator's next state (R93). -/
def rngNext (s : Word) : Word := s + 0x9E3779B97F4A7C15

/-- SRBits(32): the draw and the state after it (R93). -/
def srBits (s : Word) : Nat × Word := ((mix (rngNext s)).toNat % 2 ^ 32, rngNext s)

/-- The draw one rounding makes: one under .rsr, none otherwise (R94). -/
def drawFor (mode : Mode) (s : Word) : Nat × Word := if mode == .rsr then srBits s else (0, s)

/-- The generator state at creation (R93). -/
def rngSeed (seed : Word) (lcore lthread : Nat) : Word :=
  mix (seed ^^^ (BitVec.ofNat 64 (lcore % 65536) <<< 48) ^^^ (BitVec.ofNat 64 (lthread % 65536) <<< 32))

/-- The mode of a mode code (R57); a code that is not legal rounds to nearest even. -/
def modeOf (code : Nat) : Mode :=
  match code with
  | 1 => .rtz
  | 2 => .rup
  | 3 => .rdn
  | 4 => .rsr
  | _ => .rne

/-- The mode an RM field selects, with IM when FPMODE holds an illegal code (R57, R90). -/
def resolveMode (rm fpmode : Nat) : Mode × Flags :=
  if rm == 5 then (modeOf fpmode, flagIf (5 ≤ fpmode) flagIM) else (modeOf rm, 0)

/-- One draw if needed, then RoundOnce into a format: the encoding, the flags and the generator. -/
def roundDraw (code : Nat) (sat : Bool) (mode : Mode) (rng : Word) (v : Val) : Nat × Flags × Word :=
  let d := drawFor mode rng
  let r := roundTo code sat mode d.1 v
  (r.1, r.2, d.2)

/-- The minimum or maximum of two encodings of a floating-point format (R83). -/
def minMaxFp (f : FpFmt) (wantMax : Bool) (x y : Nat) : Nat × Flags :=
  let a := f.val x
  let b := f.val y
  let nv := flagIf (a.signals || b.signals) flagNV
  if a.isNan && b.isNan then (f.nan, nv)
  else if a.isNan then (y, nv)
  else if b.isNan then (x, nv)
  else
    let less := a.lt b || (a.eqv b && a.neg && !b.neg)
    (if less == wantMax then y else x, nv)

/-- The condition codes of FCMP and of VCMP on floating-point values (R143), with the flag NV. -/
def fpCond (cc : Nat) (a b : Val) : Bool × Flags :=
  let un := a.isNan || b.isNan
  let sig := flagIf (a.signals || b.signals) flagNV
  let any := flagIf un flagNV
  match cc with
  | 0 => (!un && a.eqv b, sig)
  | 1 => (un || !a.eqv b, sig)
  | 2 => (!un && a.lt b, any)
  | 3 => (!un && !a.lt b, any)
  | 4 => (!un && !b.lt a, any)
  | 5 => (!un && b.lt a, any)
  | 6 => (un, sig)
  | _ => (!un, sig)

/-- The condition codes of CMP, CMPI and of VCMP on integers of n bits (R142). -/
def intCond (cc n : Nat) (a b : Nat) : Bool :=
  let sa := sext a n
  let sb := sext b n
  match cc with
  | 0 => a == b
  | 1 => a != b
  | 2 => sa < sb
  | 3 => sb ≤ sa
  | 4 => sa ≤ sb
  | 5 => sb < sa
  | 6 => a < b
  | 7 => b ≤ a
  | 8 => a ≤ b
  | 9 => b < a
  | 10 => a &&& b != 0
  | _ => a &&& b == 0

/-- FCLASS (R148): the number of the class of an encoding in a floating-point format. -/
def classFp (f : FpFmt) (x : Nat) : Nat :=
  match f.val x with
  | .inf true => 0
  | .inf false => 7
  | .nan true => 8
  | .nan false => 9
  | .fin n m _ _ =>
    if m == 0 then (if n then 3 else 4)
    else if m < 2 ^ f.fbits then (if n then 2 else 5)
    else (if n then 1 else 6)

/-- FCLASS of a format code (R148). -/
def classOf (code x : Nat) : Nat :=
  if code == 15 then (if x % 256 == 255 then 9 else 6) else classFp (fpFmt code) x

end Sys2Proof.Machine
end

