-- ==== Sys2Proof/Config.lean ====
section
/-!
DEFINITION. What one implementation fixes and the spec leaves open: opaque constants, no value of which can be proved.
Each is applied to the free-value counter of State or to the operands it depends on.
-/

namespace Sys2Proof.Config

/-- A free choice that the spec leaves open (assumption 6), such as whether a read made within five issue cycles of another thread's write sees the
old value or one of the new ones (R114, R160, R166; assumption 7). -/
opaque freeChoice : Nat → Nat

/-- R181: whether VEXP2, VLOG2, VRCP or VRSQ (numbered 0 to 3) of a binary32 input takes the greater of the two bracketing values (assumption 14). -/
opaque bracketUp : Nat → BitVec 32 → Bool

/-- R112, R117: cluster clock cycles that pass in a step beyond its own issue cycle (assumption 4). -/
opaque cyclesPassed : Nat → Nat

/-- R224: further cycles until an access completes whose latency its home and its route set (assumption 4). -/
opaque accessCycles : Nat → Nat

/-- R26: wheel slots that pass in a step (assumption 4). -/
opaque slotsPassed : Nat → Nat

/-- R386: the entry address of the walker firmware, which the spec does not state (assumption 15). -/
opaque walkerEntry : Word

/-- R290: which of the shortest routes firmware's routing table lists first, between two relay nodes where the standing route is cut (assumption 19). -/
opaque routeChoice : Nat → Nat → Nat

/-- R348: the estimated energy, in µJ, charged to an owner for a step; the spec gives no figures to compute it from (assumption 17). -/
opaque energyCharged : Nat → Nat

/-- R47, R48: the skew in ps measured by an exchange is the argument of its event; the worst transit used at training comes from here (assumption 18). -/
opaque worstTransit : Nat → Nat

/-- R315: bytes of a save area whose encoding the spec does not give (assumption 24). -/
opaque saveBytes : Nat → Nat

/-- R308, R436: whether a core-set entry of another package of the domain names a cluster that is present there and cores of the context there
(entry, context; assumption 1). -/
opaque farEntry : Nat → Nat → Bool

/-- R252, R310: whether the other packages of the domain have done their part of what a kernel waits for (assumption 1). -/
opaque farDone : Nat → Bool

/-- R324: SHARE where no owner counts: the rule then divides by zero (assumption 27). -/
opaque shareOfNone : Nat → Nat

/-- R326: the address at which firmware has put a resumption's core-set list (assumption 93). -/
opaque bindList : Nat → Word

/-- R327: the CRC over a journal entry, of its sequence number, kind, queue, ring index, KNUM and values; the spec names no polynomial
(assumption 93). -/
opaque journalCrc : Nat → Nat → Nat → Nat → Nat → Nat → BitVec 32

/-- R327: the CRC over a checkpoint buffer, of the sequence number of its entry (assumption 93). -/
opaque bufferCrc : Nat → BitVec 32

end Sys2Proof.Config
end

