-- ==== Sys2Proof/Machine/Table.lean ====
section
/-!
DEFINITION. Sparse tables and sorted lists of numbers, the plain data that registers and memory are kept in.
-/

namespace Sys2Proof.Machine

/-- The entry of a key, if listed. -/
def tfind {α : Type} (t : Table α) (k : Nat) : Option α :=
  match t with
  | [] => none
  | (j, v) :: r => if k = j then some v else tfind r k

/-- The entry of a key, or the default. -/
def tget {α : Type} (t : Table α) (d : α) (k : Nat) : α := (tfind t k).getD d

/-- Sets the entry of a key. -/
def tput {α : Type} (t : Table α) (k : Nat) (v : α) : Table α :=
  match t with
  | [] => [(k, v)]
  | (j, w) :: r => if k = j then (k, v) :: r else if k < j then (k, v) :: (j, w) :: r else (j, w) :: tput r k v

/-- Removes the entry of a key. -/
def tdel {α : Type} (t : Table α) (k : Nat) : Table α := t.filter fun e => e.1 != k

/-- Sets a word, keeping the table canonical: a word equal to the default is not listed. -/
def tset {α : Type} [DecidableEq α] (t : Table α) (d : α) (k : Nat) (v : α) : Table α :=
  if v = d then tdel t k else tput t k v

/-- Removes the entries whose keys lie in a range. -/
def tclear {α : Type} (t : Table α) (lo n : Nat) : Table α := t.filter fun e => e.1 < lo || lo + n ≤ e.1

/-- Adds a number to a sorted list of distinct numbers. -/
def sinsert (l : List Nat) (k : Nat) : List Nat :=
  match l with
  | [] => [k]
  | j :: r => if k = j then j :: r else if k < j then k :: j :: r else j :: sinsert r k

/-- Removes a number from a sorted list. -/
def serase (l : List Nat) (k : Nat) : List Nat := l.filter (· != k)

/-- Membership as a Boolean. -/
def shas (l : List Nat) (k : Nat) : Bool := l.contains k

/-- The numbers of a list rise strictly. -/
def rising : List Nat → Bool
  | [] => true
  | [_] => true
  | a :: b :: r => a < b && rising (b :: r)

/-- The least number from lo below lo + fuel that a test accepts. -/
def firstFrom (lo fuel : Nat) (ok : Nat → Bool) : Option Nat :=
  match fuel with
  | 0 => none
  | f + 1 => if ok lo then some lo else firstFrom (lo + 1) f ok

/-- Bits hi down to lo of a number. -/
def bitsAt (x hi lo : Nat) : Nat := (x / 2 ^ lo) % 2 ^ (hi + 1 - lo)

/-- A word's bits hi down to lo as a number. -/
def wbits (w : Word) (hi lo : Nat) : Nat := bitsAt w.toNat hi lo

/-- A word with bits lo up to lo + n − 1 replaced. -/
def setBits (w : Word) (lo n : Nat) (v : Nat) : Word :=
  let mask : Word := BitVec.ofNat 64 ((2 ^ n - 1) * 2 ^ lo)
  (w &&& ~~~mask) ||| BitVec.ofNat 64 ((v % 2 ^ n) * 2 ^ lo)

end Sys2Proof.Machine
end

