-- ==== Sys2Proof/Machine/State.lean ====
section
/-!
DEFINITION. The state of one package (assumption 1) as plain data: what boot fixes, memory, and everything the running part holds.
Tables are keyed by flat numbers: a thread by THREADID (R105), a core by its physical number (R11), a register by
core × 2048 + register-file entry (R106). The values after reset stand with the fields; State.reset gathers them.
-/

namespace Sys2Proof.Machine

/-- What boot fixes (R20 to R23, R33): nothing but a cold boot changes it. -/
structure Boot where
  /-- CAPDIE (R23) -/
  capdie : Word := 0
  /-- CAPCLU0 to CAPCLU2 (R23) -/
  capclu0 : Word := 0
  capclu1 : Word := 0
  capclu2 : Word := 0
  /-- CAPSTK (R23) -/
  capstk : Word := 0
  /-- CAPLNK (R23) -/
  caplnk : Word := 0
  /-- CAPLPC0 and CAPLPC1 (R23) -/
  caplpc0 : Word := 0
  caplpc1 : Word := 0
  /-- WHLDESC (R33); its reset value has RLYCNT 1, RLYSTEP 1, LOG2W 3 -/
  whldesc : Word := 0x0000000802000003
  /-- package number within the domain (R119) -/
  pkg : Nat := 0
  /-- firmware routing table: far package and Treco port (R41, R281) -/
  routes : List (Nat × Nat) := []
  /-- bucket count of the Attic engines, log2 (R377) -/
  log2b : Nat := 0
  /-- a page-fill limit is set (R392) -/
  fillLimit : Bool := false
  /-- UCIe links found failed at boot, reported in the boot status (R21) -/
  badLinks : List Nat := []
  /-- boot status: 0 nothing, 1 booted, 2 image rejected (R331), 3 too few dies (R21), 4 illegal wheel descriptor (R34) -/
  status : Nat := 0
deriving DecidableEq, Repr

/-- Memory of every tier by physical address (R211): bytes that are not zero, granules that are EMPTY, granules that are poisoned. -/
structure Mem where
  /-- addresses rise strictly and no byte is zero; an unlisted byte reads as zero (R215, assumption 11) -/
  cells : List Host.Cell := []
  /-- granule numbers (PA / 16) in state EMPTY, rising strictly (R215) -/
  empties : List Nat := []
  /-- DRAM channels all of whose granules have been marked poisoned (R395, R412): 64 × stack + pseudo-channel, or 1000 + channel -/
  bad : List Nat := []
  /-- granule numbers marked poisoned, or in a channel of bad those cleared since; rising strictly (R217) -/
  poison : List Nat := []
deriving DecidableEq, Repr

/-- One change of memory. -/
inductive MemWrite where
  | byte (a : Nat) (v : Byte)
  | full (g : Nat) (isFull : Bool)
  | poison (g : Nat) (isBad : Bool)
  /-- every granule of a DRAM channel is marked poisoned -/
  | channel (ch : Nat)
  /-- n bytes from a become zero -/
  | zero (a n : Nat)
  /-- n granules from granule g become zero, FULL and free of poison (R338, R349) -/
  | clean (g n : Nat)
deriving DecidableEq, Repr

/-- What a thread parked with reason ORDER waits for (R220, R125, R128, R154). -/
inductive OrderWait where
  /-- every earlier access performed -/
  | accesses
  /-- and REDOUT = 0 -/
  | all
  /-- a free place in the relaxed window -/
  | place
  /-- fewer than 255 reductions outstanding -/
  | reds
  /-- an overlapping relaxed access performed: the request's number -/
  | overlap (req : Nat)
  /-- a core of the kernel that is not yet populated (R312): its logical number -/
  | populated (lc : Nat)
  /-- the message that carries JOIN to a thread placed from a message (R268) -/
  | landed
deriving DecidableEq, Repr

/-- Park reasons (R110) with what their wake event needs. -/
inductive Park where
  /-- PRESENCE: the bit of this register -/
  | presence (r : Nat)
  /-- RELAY: a place in the relay queue of this node and outward direction -/
  | relay (node dir : Nat)
  /-- TLB: the walker's answer -/
  | tlb
  /-- GRANULE: a state change of this granule; registered at its home or refused (R216) -/
  | granule (g : Nat) (registered : Bool)
  | order (w : OrderWait)
  /-- PHASER: completion of a phase; registered or refused (R269) -/
  | phaser (unit idx phase : Nat) (registered : Bool)
  /-- JOB: the end of this job (its handle) -/
  | job (handle : Word)
  /-- JOB: a free entry of this cluster's copy queue (1000: none is needed), a free record of this logical cluster -/
  | jobSpace (queue lclu : Nat)
deriving DecidableEq, Repr

/-- Thread states (R109). -/
inductive TState where
  | free | ready
  | parked (p : Park)
  | trapped
  /-- HALTED; whether it was TRAPPED (R314) -/
  | halted (trapped : Bool)
  | migrating | guest
  /-- held for the child of a SPAWN whose phaser registration is under way (R123) -/
  | claimed
deriving DecidableEq, Repr

/-- An instruction that has issued and not completed. -/
inductive Flight where
  | none
  /-- it waits for the request of this number; the PC after it -/
  | request (req : Nat) (next : Word)
  /-- it waits at its gang barrier (R191) -/
  | gang (next : Word)
  /-- WALKRET waits for a miss at the head (R391) -/
  | walk (next : Word)
  /-- TLBI, WLDS, JCANCEL and others wait for a unit's own step; what they wait for stands with the unit -/
  | unit (next : Word)
deriving DecidableEq, Repr

/-- A deferred fault that is due (R222, R415). -/
structure Deferred where
  cause : Nat
  detail : Nat
  pc : Word
  addr : Word
  performed : Bool
deriving DecidableEq, Repr

/-- A thread slot (06_thread.md). -/
structure Thread where
  st : TState := .free
  flight : Flight := .none
  /-- WINDOW.BASE and SIZE (R106, R120) -/
  wbase : Nat := 0
  wsize : Nat := 0
  /-- TWINDOW.BASE and SIZE (R107, R120) -/
  tbase : Nat := 0
  tsize : Nat := 0
  pc : Word := 0
  /-- registers whose presence bit is clear (R115) -/
  absent : BitVec 128 := 0
  /-- p1 to p7 in bits 1 to 7 (R108) -/
  preds : BitVec 8 := 0
  /-- k0 to k3 (R108) -/
  k0 : BitVec 128 := 0
  k1 : BitVec 128 := 0
  k2 : BitVec 128 := 0
  k3 : BitVec 128 := 0
  /-- the RW bits of STATUS (R87, R118) -/
  status : Word := 0
  /-- FPMODE.MODE (R90) -/
  fpmode : BitVec 3 := 0
  /-- the hidden generator state (R93) -/
  rng : Word := 0
  /-- FAULTINFO (R121) -/
  faultInfo : Word := 0
  lthread : Nat := 0
  lcore : Nat := 0
  ncore : Nat := 0
  lclu : Nat := 0
  lstk : Nat := 0
  ctx : Nat := 0
  knum : Nat := 0
  owner : Nat := 0
  jobseed : Word := 0
  /-- the join registration: a phaser handle (R267) -/
  join : Option Word := none
  /-- the PHNEXT record (R270) -/
  phNext : Bool := false
  deferred : Option Deferred := none
  /-- failures after the one that is due, in the order of their detection (R415) -/
  seconds : List Deferred := []
  /-- the first issue cycle of the core in which it may issue again (R112) -/
  busy : Nat := 0
  /-- the issue cycle in which a YIELD completes, from which its hold counts (R126) -/
  yieldAt : Option Nat := none
  /-- the YIELD hold: slots that have still to issue and the cycle at which the hold ends (R126) -/
  hold : Option (List Nat × Nat) := none
  /-- a resume continues at the next instruction, which is here (R313) -/
  resumeAt : Option Word := none
  /-- registers of an arriving migration whose flits have not landed: flits 1 and 2 (R130) -/
  landing : Bool := false
  /-- it executes, or is parked within, a gang-issued instruction that has not arrived: 1 for MGANG, 2 for another (R191) -/
  toGang : Nat := 0
  /-- attempts that have ended of a TLDV that is between attempts (R171) -/
  retries : Nat := 0
deriving DecidableEq, Repr

/-- A write to a c register or to a descriptor field that is not yet visible to every thread (R114, R160). -/
structure Late where
  /-- the first issue cycle in which every thread reads the new value -/
  until_ : Nat
  /-- slot of the writer -/
  slot : Nat
  /-- a tile descriptor, else a c register -/
  tile : Bool
  idx : Nat
  old : Word
deriving DecidableEq, Repr

/-- Bytes of a tile row, scale row or codebook that an instruction has computed and writes at its completion (R166). -/
structure TileWrite where
  /-- issue cycle of the core at which it lands -/
  due : Nat
  /-- slot of the writer -/
  slot : Nat
  /-- 0 data, 1 scales, 2 codebook, 3 descriptor -/
  area : Nat
  /-- key of the row, or of the codebook or descriptor -/
  key : Nat
  mask : BitVec 4096
  val : BitVec 4096
deriving DecidableEq, Repr

/-- A vector instruction or tile store that has issued and reads its rows between issue and completion (R166): the descriptors and registers
it read at issue, by the core's tile registers and the thread's window. -/
structure Held where
  tid : Nat
  instr : Instr
  /-- issue cycle, and the cycle in which it completes -/
  since : Nat
  due : Nat
  descs : List Word
  regs : List Word
deriving DecidableEq, Repr

/-- A TLB entry (R383): context, 64 KiB virtual page number, page size, leaf. -/
structure TlbEntry where
  ctx : Nat
  page : Nat
  big : Bool
  pte : Word
deriving DecidableEq, Repr

/-- A posted miss (R385). -/
structure Miss where
  /-- KIND of R382 -/
  kind : Nat
  va : Nat
  /-- waiting thread slot; 0 for job kinds -/
  slot : Nat
  /-- for job kinds the job's number, else 0 -/
  job : Nat
  jid : Nat
  defers : Nat
  /-- due turn of a deferred miss -/
  due : Option Nat
  /-- the walker has been told of it (it stands in arrival order) -/
  arrived : Bool
deriving DecidableEq, Repr

/-- State of a core outside its threads, registers and tiles. -/
structure CoreRec where
  /-- issue cycles so far (R112) -/
  cycle : Nat := 0
  /-- the slot given the previous issue cycle (R112) -/
  last : Nat := 63
  late : List Late := []
  /-- tile writes that have not landed, in the order of issue -/
  tileWrites : List TileWrite := []
  /-- vector instructions that have issued and still read their rows, and what tile words have held since: cycle, area, key, the word before
  a change (R166) -/
  held : List Held := []
  past : List (Nat × Nat × Nat × BitVec 4096) := []
  /-- CTXNUM (R333) -/
  ctxnum : Word := 0
  /-- CMWIN (R333) -/
  cmwin : Word := 0
  /-- PTROOT (R382) -/
  ptroot : Word := 0
  /-- core TLB, most recently used first (R383) -/
  tlb : List TlbEntry := []
  /-- miss mailbox (R385) -/
  misses : List Miss := []
  /-- instruction cache: the 64-byte blocks it holds, PA / 64, most recently used first (R13, R62) -/
  icache : List Nat := []
  /-- memory as fetch sees it: as it stood when the core's cache was last invalidated by a launch (R62, R244) -/
  code : List Host.Cell := []
  /-- the core has been lost to a machine check (R316, R421) -/
  lost : Bool := false
  /-- the first issue cycle in which the vector unit accepts another instruction's first row (R165) -/
  vecFree : Nat := 0
deriving DecidableEq, Repr

/-- Ordering classes (R220). -/
inductive Cls where
  | plain | relaxed | release | red
deriving DecidableEq, Repr

/-- What a single-word access does at its home. -/
inductive MemOp where
  /-- LD: bytes, sign extension -/
  | load (n : Nat) (signed : Bool)
  /-- LD .b128 -/
  | load128
  | store (n : Nat) (v : BitVec 128)
  /-- AMO and RED members by the minors 0 to 10 of R227; the format code; the operands -/
  | amo (k fmt : Nat) (b c : Word)
  | red (k fmt : Nat) (b : Word)
  /-- the granule instructions by the minors 0 to 6 of R225 -/
  | gran (k fmt : Nat) (b : Word)
deriving DecidableEq, Repr

/-- One access of a request, within one granule. -/
structure Part where
  pa : Nat
  n : Nat
  /-- bytes to write, or the bytes read -/
  v : Nat := 0
  write : Bool := false
  done : Bool := false
  /-- it has failed -/
  bad : Bool := false
  /-- the piece or burst of a copy item that carries it; 0 for one that travels nowhere (R298) -/
  grp : Nat := 0
  /-- how far that piece or burst has come: 0 nothing of it is under way or owed, 1 it has not set out, 2 it is on its way to the home, 3 it is at its
  home, 4 its data or acknowledgement is on its way back (R298) -/
  leg : Nat := 0
  /-- the circuit that carries it; 0 for the relay service -/
  cnum : Nat := 0
deriving DecidableEq, Repr

/-- Where a relay message or a circuit ends: a cluster's NI, or a port of a gateway die (R28, R41). -/
inductive Dest where
  | cluster (c : Nat)
  | gateway (g port : Nat)
deriving DecidableEq, Repr

/-- Where a request stands. -/
inductive Stage where
  /-- its message is in the relay service -/
  | going
  /-- at its home or unit -/
  | home
  /-- in a DRAM controller's queue -/
  | queued
  /-- performed; its reply is in the relay service -/
  | back
  /-- performed; its reply has arrived -/
  | replied
deriving DecidableEq, Repr

/-- A weight bank (R193). -/
structure Bank where
  /-- 0 EMPTY, 1 LOADING, 2 READY, 3 FAILED (R203) -/
  st : Nat := 0
  wf : Nat := 0
  /-- elements per K step: 0 for 256, 1 for 512, 2 for 1,024 (R198) -/
  ke : Nat := 0
  scl : Bool := false
  book : BitVec 256 := 0
  valid : BitVec 16 := 0
  sealed : Bool := false
  epi : Bool := false
  /-- cause and address of the read that failed, held for WSWAP (R199) -/
  held : Option (Nat × Word) := none
  /-- DESC of the WLDS that loaded a SEALED bank, for its replay (R356, R358): the address, the control word, the column block -/
  desc : Option (Word × Word × Word) := none
  /-- 512 bytes of weights by slot × 8 + column -/
  data : Table (BitVec 4096) := []
  /-- 32 bytes of scales by slot × 8 + column -/
  scales : Table (BitVec 256) := []
deriving DecidableEq, Repr

/-- Slice state outside accumulators and banks (R193, R203, R360). -/
structure Slice where
  /-- the active bank is wb1 -/
  act : Bool := false
  /-- NV, OF, UF, NX from bit 3 down -/
  mflags : BitVec 4 := 0
  /-- rows written by the MMA abandoned under R207 -/
  rows : Nat := 0
  /-- the hidden epilogue tag of a0 to a3 (R360) -/
  tags : BitVec 4 := 0
deriving DecidableEq, Repr

/-- An instance of a gang-issued instruction at its barrier (R191), with what it read at issue. -/
structure Arrival where
  pos : Nat
  tid : Nat
  instr : Instr
  /-- its guard is true (R437) -/
  guard : Bool
  /-- register operands read by the instance -/
  vals : List Word
deriving DecidableEq, Repr

/-- An MMA that has been released (R195, R200): operands, whether it has begun, and the accumulator rows it will write. -/
structure Mma where
  instr : Instr
  acc : Nat
  row0 : Nat
  rcnt : Nat
  begun : Bool := false
  /-- accumulator words, by the key of accs, and the flags that each row of a member core raises, by core × 32 + row -/
  res : Table (BitVec 32) := []
  flags : Table (BitVec 4) := []
  /-- its instances since it began: THREADID, the cycle of the thread's core until which the instance executes, its PC (R195, R207) -/
  insts : List (Nat × Nat × Word) := []
deriving DecidableEq, Repr

/-- A gang (R192), keyed by its head core; a BROKEN one by its head core plus a multiple of 1,536, so that a member that has left it alone may head
another. -/
structure Gang where
  n : Nat
  /-- 1 FORMING, 2 ACTIVE, 3 BROKEN (R203); 4 SAVED (R206) -/
  st : Nat
  ctx : Nat
  knum : Nat
  /-- TIMEOUT in µs; 0 for none -/
  timeout : Nat
  arrivals : List Arrival := []
  mmas : List Mma := []
  /-- positions that have been lost (R207) -/
  lost : List Nat := []
  /-- gang threads, position and THREADID -/
  threads : List (Nat × Nat) := []
deriving DecidableEq, Repr

/-- A core's work list (R255, R259): its holder (context, kernel), entries head first, balancer parameters. -/
structure WorkList where
  holder : Option (Nat × Nat) := none
  items : List Word := []
  interval : Nat := 0
  thr : Nat := 32
deriving DecidableEq, Repr

/-- Entries the balancer has removed and not yet inserted (R260): target core and entries in order. -/
structure Move where
  core : Nat
  ctx : Nat
  knum : Nat
  items : List Word
deriving DecidableEq, Repr

/-- A phaser (R263, R266), keyed by cluster × 32 + IDX. -/
structure Phaser where
  /-- 0 FREE, 1 OPEN, 2 SAVED -/
  st : Nat := 0
  gen : Nat := 0
  ctx : Nat := 0
  knum : Nat := 0
  ph : Nat := 0
  sigreg : Nat := 0
  waitreg : Nat := 0
  arrived : Nat := 0
deriving DecidableEq, Repr

/-- One part of a circuit (R279, R280): the routers and outputs of its path in order with the crossing addition of the link
before each, and the injection slots (plane, slot) in the order of assignment. -/
structure Route where
  /-- router, output port, X_k -/
  hops : List (Nat × Nat × Nat) := []
  /-- input code at each router -/
  ins : List Nat := []
  slots : List (Nat × Nat) := []
deriving DecidableEq, Repr

/-- What a circuit's change under way will leave at its switch turn (R37, R286). -/
structure Change where
  fwd : List (Nat × Nat)
  rev : List (Nat × Nat)
  wins : List (Nat × Nat)
  /-- the routers that take part -/
  routers : List Nat
  /-- those whose acknowledgement is outstanding -/
  waiting : List Nat
  /-- the switch turn, once named -/
  turn : Option Nat
  /-- the circuit closes at the switch -/
  close : Bool
  /-- injection into the slots being removed has stopped (R38) -/
  stopped : Bool := false
  /-- the switch turns that this package's connection manager and the peer's propose, for a circuit between packages (R281) -/
  mine : Option Nat := none
  theirs : Option Nat := none
deriving DecidableEq, Repr

/-- A circuit record of the connection manager (R277, R278, R283), keyed by CNUM. -/
structure Circuit where
  /-- 0 REQUESTED, 1 ADMITTED, 2 ACTIVE, 3 RESIZING, 4 DRAINING, 5 FREE, 6 FAILED (R289) -/
  st : Nat := 5
  gen : Nat := 0
  ctx : Nat := 0
  /-- source node: a cluster, or 192 + g for an engine port (R304) -/
  src : Nat := 0
  ep : Nat := 0
  /-- the endpoint entry it runs to (R276) -/
  entry : Word := 0
  planes : Nat := 0
  duplex : Bool := false
  even : Bool := false
  maxlat : Nat := 0
  fwd : Route := {}
  rev : Route := {}
  /-- HBM4 windows: pseudo-channel (64 × stack + number) and window -/
  wins : List (Nat × Nat) := []
  change : Option Change := none
  /-- request to answer when the change ends -/
  answer : Option Nat := none
  fcause : Nat := 0
  /-- further latency of the far half of a circuit between packages, forward and reverse part (R281, R282) -/
  far : Nat := 0
  rfar : Nat := 0
  /-- a request waits for the peer's reply since this turn (R281) -/
  peer : Option Nat := none
  /-- the other half of a circuit between packages: its package, its record number there, this package's Treco port (R281) -/
  other : Option (Nat × Nat × Nat) := none
  /-- this is the far half, planned for a peer (R281) -/
  isFar : Bool := false
deriving DecidableEq, Repr

/-- A source NI's copy of a circuit record (R277, R289), keyed by CNUM. -/
structure NiCopy where
  cluster : Nat
  ctx : Nat
  gen : Nat
  st : Nat
  fcause : Nat
  ep : Nat
  /-- H + X_H + 1 of the forward part -/
  lat : Nat
  slots : List (Nat × Nat)
  /-- the slots of the reverse part, as the NI at its other end holds them -/
  rslots : List (Nat × Nat) := []
  /-- the first opportunity left for the next flit of each part: absolute slot × 8 + plane (R25, R32) -/
  next : Nat := 0
  rnext : Nat := 0
deriving DecidableEq, Repr

/-- A message of the configuration class (R36, R37). -/
inductive CfgKind where
  /-- entry writes to shadow banks (router, port, plane, slot, entry) and windows (pseudo-channel, window, owner) -/
  | writes (l : List (Nat × Nat × Nat × Nat × Byte)) (wins : List (Nat × Nat × Nat))
  | ack (routers : List Nat)
  | commit (turn : Nat)
deriving DecidableEq, Repr

/-- A configuration flit at a router's NI (R36, R37). -/
structure CfgMsg where
  id : Nat
  cnum : Nat
  at_ : Nat
  dest : Nat
  kind : CfgKind
  /-- the turn in which it stands there, and in whose configuration wheel slot it may go on -/
  turn : Nat
deriving DecidableEq, Repr

/-- What a circuit flit carries. -/
inductive Payload where
  /-- a bare CPYC flit: job, row, number of the flit in its row, data (R301) -/
  | stream (job row n : Nat) (data : BitVec 512)
  /-- a flit of a copy item's burst, out or back: the item's request and the burst (R298) -/
  | burst (req grp : Nat)
  /-- ring data (R304) -/
  | ring (f : RingFlit)
deriving DecidableEq, Repr

/-- A flit in a circuit: waiting at its source NI, or on the fabric at a router, arriving there in a slot (R30, R32). -/
structure Flit where
  id : Nat
  cnum : Nat
  rev : Bool
  payload : Payload
  /-- none while it waits at the source; else plane, router, input port, and wheel slot and turn of its next forwarding -/
  pos : Option (Nat × Nat × Nat × Nat × Nat) := none
  /-- the end it has been delivered to -/
  at_ : Option Dest := none
  bad : Bool := false
  /-- the absolute slot from which it may leave its source NI -/
  ready : Nat := 0
deriving DecidableEq, Repr

/-- A stream descriptor held by an endpoint NI (R301). -/
structure Stream where
  cluster : Nat
  cnum : Nat
  job : Nat
  ctx : Nat
  base : Nat
  n0 : Nat
  n1 : Nat
  n2 : Nat
  ds1 : Word
  ds2 : Word
  sf : Bool
  /-- next row, bytes of it that have arrived, and the cause of a failure in it (0 for none) -/
  row : Nat := 0
  got : Nat := 0
  bad : Nat := 0
deriving DecidableEq, Repr

/-- The queue a job waits in (R292): a cluster's copy unit, or a collective queue. -/
inductive JobQueue where
  | copy (cluster : Nat)
  | coll (eng q : Nat)
deriving DecidableEq, Repr

/-- An item of a job that has begun. -/
structure Item where
  idx : Nat
  /-- its source and destination as issued -/
  src : Word := 0
  dst : Word := 0
  /-- of a CPYC row: it has begun to be read; its bytes read so far, and those of the flit being formed -/
  out : Bool := false
  got : Nat := 0
  acc : Nat := 0
  /-- the request that carries its accesses, once it has translated them -/
  req : Option Nat := none
  /-- it waits for the answer to a miss -/
  waiting : Bool := false
  /-- its cause, detail and address, once it has failed -/
  fail : Option (Nat × Nat × Word) := none
deriving DecidableEq, Repr

/-- A segment of the ring at a rank (R305): bytes read here for the flit dealt with, or 64 and those written of its result; the bytes; and the block whose local
read has failed. -/
structure RingSeg where
  pos : Nat := 0
  acc : BitVec 512 := 0
  spoilt : Option Nat := none
deriving DecidableEq, Repr

/-- A job (R293, R295). -/
structure Job where
  /-- minor opcode of the enqueue (R300, R302) -/
  kind : Nat
  ctx : Nat
  knum : Nat
  owner : Nat
  lclu : Nat
  jid : Nat
  epoch : Nat
  queue : JobQueue
  /-- core that enqueued it -/
  core : Nat
  ga : Word
  gb : Word
  shape : BitVec 512
  /-- IMM19 or the literal -/
  imm : Nat
  /-- number of items -/
  count : Nat
  /-- 0 QUEUED, 1 RUNNING, 2 STALLED, 3 DONE, 4 FAILED, 5 CANCELLED, 6 SAVED (R294) -/
  st : Nat := 0
  next : Nat := 0
  items : List Item := []
  done : Nat := 0
  nfail : Nat := 0
  fcause : Nat := 0
  /-- NV, OF, UF, NX from bit 3 down -/
  flags : BitVec 4 := 0
  /-- for QFENCE: the jobs it waits for -/
  waits : List Nat := []
  /-- the name of CPYN's root, as two words (R301) -/
  name : Word × Word := (0, 0)
  /-- CPYC: 0 no descriptor sent, 1 sent, 2 accepted (R301) -/
  stream : Nat := 0
  /-- COLL: its ring circuit's number -/
  cnum : Nat := 0
  /-- COLL: items that have ended, latest first -/
  itemsOver : List Nat := []
  /-- its place in its queue: jobs run in ascending order of it (R292) -/
  seat : Nat := 0
  /-- COLL: ring flits that it has to deal with, its own first sends among them, and those dealt with; it does so no longer (R305) -/
  ringDue : Nat := 0
  ringIn : Nat := 0
  ceased : Bool := false
  /-- COLL: flits for which the next engine has room (R304) -/
  credit : Nat := 1024
  /-- COLL: bytes written of each output block -/
  written : Table Nat := []
  /-- COLL: of each segment, what has been done of the flit that the engine deals with -/
  segs : Table RingSeg := []
  /-- COLL: of block next, which is first sent: bytes read, those of the flit being formed, and that its read has failed (R305) -/
  fpos : Nat := 0
  facc : BitVec 512 := 0
  fbad : Bool := false
  /-- it has been drawn and its enqueue waits for the engine's reply (R300) -/
  pending : Bool := false
  /-- its record waits to be written, as the page migrates (R309, R393) -/
  owed : Bool := false
deriving DecidableEq, Repr

/-- What an enqueue, a phaser, circuit, Attic or other unit is asked (R39). -/
inductive ReqKind where
  /-- a single-word access: what it does and its destination register -/
  | mem (op : MemOp) (dst : Nat)
  /-- a tile access (R168): the instruction, its stage (R170, R171), the version read, the attempt -/
  | tile (i : Instr) (step : Nat) (version : Word) (attempt : Nat)
  /-- the reads of a WLD after release, for a bank (R198) -/
  | weights (core bank : Nat) (i : Instr) (first count : Nat)
  /-- the chunk reads of a WLDS or of its replay (R357, R358) -/
  | chunks (core bank : Nat) (replay : Bool) (kslot first count step0 nstep blk : Nat) (base : Word)
  /-- RPUT: the target thread, register, value, EMPTY (R127) -/
  | rput (target reg : Nat) (v : Word) (empty : Bool)
  /-- a migrating thread: its packed state (R129), the address bits [9:7] that decided the home, flits landed -/
  | migrate (t : Thread) (regs : List Word) (start : Nat) (landed : Nat) (placed : Option Nat)
  /-- a cross-cluster SPAWN: child's state, its registers, target logical core, window size, join handle, destination register -/
  | spawn (t : Thread) (regs : List Word) (lc wsz : Nat) (join : Word) (dst : Nat)
  /-- the join message of R268: the thread slot it goes to and what it carries -/
  | joinMsg (target : Nat) (join : Option Word)
  /-- a phaser request: minor opcode (8 for the drop at EXIT, 9 for the registration of SPAWN), handle, operand, destination -/
  | phaser (op : Nat) (h : Word) (mode : Nat) (dst : Nat)
  /-- a circuit request: minor opcode (9 for an engine's request, R304), handle or control word, limits, destination register, job -/
  | circuit (op : Nat) (a b : Word) (cnum : Nat) (dst : Nat) (job : Nat)
  /-- COLL or collective QFENCE enqueue: the job and the destination register (R300) -/
  | coll (job dst : Nat)
  /-- a CPYC stream descriptor (R301) -/
  | stream (job : Nat)
  /-- row acknowledgements of a CPYC job (R301) -/
  | rows (job : Nat) (rows : List Nat)
  /-- an Attic request: 0 NAME, 1 NLD, 2 NREF, 3 NREL, 4 NSTAT, 5 NSWAP, 6 NROOT, 7 leaf read of CPYN, 8 NREF or NREL of CPYN;
  the name, NAME's block, further operands, the step of a several-step instruction and its destination -/
  | attic (op : Nat) (name : BitVec 128) (block : BitVec 1024) (x y : BitVec 128) (step : Nat) (dst : Nat)
  /-- TLBI: ALL and page, the clusters that have not yet answered, each with how far it has come: 0 the message to it is on its way, 1 it has removed its
  entries, 2 its reply is on its way, 3 the message to it has not set out (R389) -/
  | tlbi (all : Bool) (page : Nat) (waiting : List (Nat × Nat))
  /-- the wake of a thread that waits for a granule (R216) -/
  | wake (target : Nat)
  /-- a copy item's piece (R298) -/
  | piece (job item : Nat)
  /-- a collective credit return: the sending job and a number of flits (R304) -/
  | ringCredit (job n : Nat)
  /-- the operand block of an enqueue, read granule by granule: its address (R297) -/
  | operand (a : Word)
deriving DecidableEq, Repr

/-- A request: an access or message that has issued and is not finished. -/
structure Req where
  id : Nat
  kind : ReqKind
  /-- issuing thread (THREADID) -/
  tid : Nat
  ctx : Nat
  pc : Word
  va : Word
  cls : Cls
  parts : List Part := []
  stage : Stage := .home
  /-- cluster whose NI sent it -/
  src : Nat := 0
  dest : Dest := .cluster 0
  /-- what it brings back: up to two words and flags -/
  out : Word := 0
  out2 : Word := 0
  flags : BitVec 8 := 0
  /-- a failure found: cause, detail, and whether it stands performed -/
  fail : Option (Nat × Nat × Bool) := none
  /-- it was refused or is to be parked on return: the reason -/
  park : Option Park := none
  /-- the absolute slot at which its message was handed to its unit (R41, R278) -/
  since : Nat := 0
  /-- accesses of later steps of a TST.aon, found before its first write (R170, R233) -/
  held : List Part := []
deriving DecidableEq, Repr

/-- A relay message in a relay queue or on its way through one (R40, R41). -/
structure Msg where
  id : Nat
  ctx : Nat
  /-- request it belongs to, and whether it is the reply -/
  req : Nat
  back : Bool
  /-- the hops it has still to make, each a node and the outward port there; none is left when it stands at its destination -/
  path : List (Nat × Nat)
  /-- the node that holds it -/
  node : Nat
  dest : Dest
  flits : Nat
  /-- flits of it already sent on the next hop -/
  sent : Nat := 0
  /-- the link whose place it holds: node and port of the sender -/
  came : Option (Nat × Nat) := none
  /-- the absolute slot from which it may leave the NI that holds it, or at which it is handed to its unit (R41) -/
  ready : Nat := 0
  /-- for a request with several messages, the piece or the cluster that it concerns -/
  grp : Nat := 0
  /-- it reports the failure of another message of such a request; of its reply (R229) -/
  rep : Bool := false
  lost : Bool := false
  /-- home clusters of a DRAM controller at its end and at its start, which give the route (R41, R435) -/
  home : Option Nat := none
  srcHome : Option Nat := none
deriving DecidableEq, Repr

/-- The NI's relay accounting for one outward link and context (R40): credits held, credits owed to that link's far end,
credits on their way back. -/
structure Credit where
  held : Nat := 8
  owed : Nat := 0
  flying : Nat := 0
  /-- the absolute slot from which the context's next flit may leave, those at which the last of the credits held came, and that at which those on their
  way arrive -/
  next : Nat := 0
  times : List Nat := []
  due : Nat := 0
deriving DecidableEq, Repr

/-- Fault record on its way to the collector (R417). -/
structure Record where
  cause : Nat
  src : Nat
  detail : Nat := 0
  ctx : Nat := 0
  knum : Nat := 0
  pc : Word := 0
  addr : Word := 0
  handle : Word := 0
  item : Nat := 0
  lc : Nat := 0
  lt : Nat := 0
  phys : Nat := 0
  owner : Nat := 0
  /-- SEC, PERF, HALT in bits 0 to 2 -/
  flags : Nat := 0
  turn : Nat := 0
  /-- the kernel's fault policy resumes the thread once the record is written (R313, R414) -/
  resume : Option Nat := none
deriving DecidableEq, Repr

/-- A kernel's state (R310): 0 SUBMITTED, 1 POPULATING, 2 RUNNING, 3 HALTING, 4 SAVED, 5 DRAINING, 6 ENDING, 7 RETIRED. -/
structure Kernel where
  st : Nat := 0
  ctx : Nat
  knum : Nat
  owner : Nat
  /-- queue and ring index of its packet -/
  queue : Nat
  ring : Nat
  /-- the launch record's 128 bytes (R308) -/
  lrec : BitVec 1024
  flags : Nat
  cmpaddr : Word
  cmpval : Word
  /-- its core set: the physical core of each logical core, in order (R250); a core of package p of the domain other than this one is
  2,048 × (p + 1) + its number there -/
  cores : List Nat := []
  /-- logical cores released (R253), populated, saved, lost -/
  released : List Nat := []
  populated : Nat := 0
  saved : List Nat := []
  /-- LTHREAD counters by logical core (R119) -/
  nextLt : Table Nat := []
  ntrap : Nat := 0
  wldisc : Nat := 0
  jfail : Nat := 0
  cause : Nat := 0
  refoff : Nat := 0
  /-- END of its retirement record (R317) -/
  end_ : Nat := 1
  /-- JID counters and EPOCHs by logical cluster (R293) -/
  nextJid : Table Nat := []
  epochs : Table Nat := []
  /-- it ends once its save is done (R310) -/
  endAfter : Bool := false
  /-- it was admitted as surplus (R324) -/
  surplus : Bool := false
  /-- LSTK of each logical cluster, fixed at launch (R250, R251) -/
  lstks : List Nat := []
  /-- some of its cores have been restored from its save area (R316) -/
  restored : Bool := false
deriving DecidableEq, Repr

/-- A thread of a SAVED kernel (R315). -/
structure SavedThread where
  lc : Nat
  /-- the slot it had (THREADID) -/
  tid : Nat
  thread : Thread
  regs : List Word
  guest : Bool
  trapped : Bool
deriving DecidableEq, Repr

/-- What a SAVED kernel's core block holds beside its threads (R315). -/
structure SavedCore where
  lc : Nat
  cregs : List Word
  work : Option WorkList
  tiles : Table (BitVec 4096)
  scales : Table (BitVec 256)
  books : Table (BitVec 256)
  descs : Table Word
  slice : Slice
  accs : Table (BitVec 32)
  bank0 : Bank
  bank1 : Bank
  /-- memory as the core's fetch saw it (R62) -/
  code : List Host.Cell
deriving DecidableEq, Repr

/-- A SAVED kernel (R315). -/
structure Saved where
  ctx : Nat
  knum : Nat
  threads : List SavedThread := []
  cores : List SavedCore := []
  /-- phasers: logical cluster, IDX, state -/
  phasers : List (Nat × Nat × Phaser) := []
  /-- gangs: logical core of the head, gang -/
  gangs : List (Nat × Gang) := []
  /-- what the save area held when each part of it had been written: address, bytes, contents (R315) -/
  image : List (Nat × Nat × Nat) := []
deriving DecidableEq, Repr

/-- A context (R332, R334). -/
structure Ctx where
  /-- STATE of CTXCTL -/
  st : Nat := 0
  prot : Bool := false
  efwd : Bool := false
  poison : Bool := false
  dieLost : Bool := false
  owner : Nat := 0
  adom : Nat := 0
  tdies : BitVec 12 := 0
  /-- memory, fabric and weight key slots; none when not installed -/
  keyMem : Option (BitVec 256) := none
  keyFab : Option (BitVec 256) := none
  keyW : Table (BitVec 256) := []
  spill : Word := 0
  ptroot : Word := 0
  pages : List Page := []
  /-- cores and windows attached: cluster, core mask, BASE, SIZE -/
  attached : List (Nat × Nat × Nat × Nat) := []
  /-- endpoint entries by cluster × 64 + EP (R276) -/
  endpoints : Table Word := []
  /-- a rekey under way: slot and new key (R341) -/
  rekey : Option (Nat × BitVec 256) := none
  /-- memory and fabric keys loaded again while SUSPENDED (R343) -/
  reloaded : Nat := 0
  /-- relay places have been granted (R42) -/
  relay : Bool := false
  /-- where in the spill area each cluster's window goes, in 64 KiB units, and the next free unit (R347) -/
  offs : Table Nat := []
  spillNext : Nat := 0
  /-- windows spilled by a recall: cluster, core mask, BASE, SIZE (R347) -/
  spilled : List (Nat × Nat × Nat × Nat) := []
  /-- a DESTROY waits for the rekey to end (R336) -/
  destroy : Bool := false
  /-- restarts of its scrub after hot resets (R350) -/
  restarts : Nat := 0
  /-- page-table pages to be cleaned, found as its scrub begins: address and size (R349) -/
  tables : List (Nat × Nat) := []
  /-- the KNUM counter, which CREATE restarts (R310, R327, R336; assumption 26) -/
  nextKnum : Nat := 1
deriving DecidableEq, Repr

/-- A command queue (R318). -/
structure Queue where
  /-- QCFG; its reset value has LOG2N 4 -/
  cfg : Word := 0x0000000004000000
  base : Word := 0
  head : Nat := 0
  tail : Nat := 0
  miss : Nat := 0
  ecode : Nat := 0
  /-- 0 IDLE, 1 PENDING, 2 WAITING, 3 ERROR -/
  st : Nat := 0
  /-- packets admitted or taken whose completion has not been made: ring indices (BARRIER, R319) -/
  open_ : List Nat := []
deriving DecidableEq, Repr

/-- A heap entry (R325). -/
structure HeapEntry where
  deadline : Nat
  queue : Nat
  ring : Nat
  ctx : Nat
  knum : Nat
  owner : Nat
  cores : List Nat
  surplus : Bool
deriving DecidableEq, Repr

/-- A bind record (R326): kind 0 launch, 1 resume, 2 end; its queue and ring index; for a resume the address of the new core-set list, and the
cores that the list names. -/
structure Bind where
  kind : Nat
  ctx : Nat
  knum : Nat
  queue : Nat
  ring : Nat
  list : Word := 0
  cores : List Nat
deriving DecidableEq, Repr

/-- A journal entry (R327): kind 0 ADMIT, 1 BIND, 2 CTRL, 3 CMPL, 4 EVICT, 5 CKPT. -/
structure JournalEntry where
  seq : Nat
  kind : Nat
  queue : Nat
  ring : Nat
  knum : Nat
  /-- ADMIT: the new QHEAD; CKPT: the buffer -/
  value : Nat
  /-- ADMIT: 0 in share, 1 surplus -/
  cls : Nat := 0
  crc : BitVec 32
  done : Bool
deriving DecidableEq, Repr

/-- A checkpoint buffer (R327): the sequence number of its entry, the heap, every QHEAD, each context's KNUM counter, the owner counts. -/
structure Checkpoint where
  seq : Nat
  heap : List HeapEntry
  heads : List (Nat × Nat)
  knums : List (Nat × Nat)
  counts : List Nat
  crc : BitVec 32
deriving DecidableEq, Repr

/-- A completion to be made (R319, R326): a retired kernel's or a control packet's. -/
structure Completion where
  ctx : Nat
  knum : Nat
  queue : Nat
  ring : Nat
  flags : Nat
  addr : Word
  val : Word
  /-- bytes 8 to 15 of the write -/
  info : Word
  /-- a report of a bind taken, with nothing to be made (R326) -/
  taken : Bool := false
deriving DecidableEq, Repr

/-- An action of the scheduler whose journal entry has been written and whose effect is missing (R327, R329). -/
inductive Redo where
  /-- the admission of the head packet of a queue -/
  | admission (q : Nat) (k : Kernel)
  /-- the application of the control packet at the head of a queue -/
  | ctrl (q : Nat)
  | bind (r : Bind)
  | cmpl (c : Completion)
  | evict (ctx knum : Nat)
deriving DecidableEq, Repr

/-- The scheduler (R320 to R330). -/
structure Sched where
  queues : Table Queue := []
  /-- pending-kick bitmap: queue numbers -/
  kicks : List Nat := []
  lastServed : Nat := 4095
  /-- the queue whose packets are being taken, and the QTAIL read (R321) -/
  serving : Option (Nat × Nat) := none
  heap : List HeapEntry := []
  binds : List Bind := []
  fifo : List Completion := []
  journal : List JournalEntry := []
  seq : Nat := 1
  /-- the last checkpoint and the one before (R327) -/
  ckpts : List Checkpoint := []
  /-- the copies of journal and checkpoints on the other die (R327) -/
  journal2 : List JournalEntry := []
  ckpts2 : List Checkpoint := []
  /-- what the failed scheduler core left undone, for the take-over to redo (R329) -/
  redo : Option Redo := none
  /-- SHARE of the owners, as the last admission tests left it (R324) -/
  shares : Table Nat := []
  /-- group completions reported to the active scheduler core: tier 1 core, 2 cluster, 3 stack, 4 domain; LC, LCLU or LSTK; context; kernel (R252) -/
  groups : List (Nat × Nat × Nat × Nat) := []
  tkocnt : Nat := 0
  hold : Bool := false
  tko : Bool := false
  sbyok : Bool := false
  act : Bool := false
  lost : Bool := false
  owncfg : Table Word := []
  /-- kernels bound: context, kernel -/
  bound : List (Nat × Nat) := []
  /-- FWRLD (R331) -/
  fwrld : Word := 0xC000000000000000
  /-- CORECYC of the owners, and the cycles of a clock, at the last comparison of the progress controller (R347) -/
  progress : Table Nat := []
  progressAt : Nat := 0
deriving DecidableEq, Repr

/-- A fault collector (R417, R418). -/
structure Collector where
  /-- FQCFG; its reset value has LOG2N 4 -/
  cfg : Word := 0x0004000000000000
  base : Word := 0
  seq : Nat := 0
  drop : Nat := 0
  tail : Nat := 0
  err : Bool := false
  queue : List Record := []
  /-- steps made of the record at the head of the queue (R419): 0 none, 1 slot found free, 2 bytes 0 to 47 written -/
  phase : Nat := 0
deriving DecidableEq, Repr

/-- An Attic index entry (R365). -/
structure NameEntry where
  name : BitVec 128
  pa : Nat
  adom : Nat
  sat : Bool
  dorm : Bool
  height : Nat
  count : Nat
  nleaf : Nat
  /-- order in which entries became DORMANT -/
  age : Nat := 0
deriving DecidableEq, Repr

/-- An Attic domain (R364): its key and, for each stack, the free pool lines (physical addresses). -/
structure AtticDomain where
  dk : BitVec 256
  free : List (Nat × List Nat) := []
deriving DecidableEq, Repr

/-- A scrub engine (R349, R350). -/
structure Scrub where
  ctx : Nat := 0
  phase : Nat := 0
  restarts : Nat := 0
  total : Nat := 0
  done : Nat := 0
deriving DecidableEq, Repr

/-- Cluster state outside its cores (R13, R17, R346). -/
structure Cluster where
  setpt : Nat := 42
  freq : Nat := 42
  droops : Nat := 0
  err : Bool := false
  busy : Bool := false
  lock : Bool := false
  /-- the last value queued during a change -/
  queued : Option Nat := none
  /-- the frequency that its supply allows, in 50 MHz units (R16, R19) -/
  supply : Nat := 42
  cycle : Nat := 0
  /-- PARTCL (R346) -/
  user : Nat := 0
  home : Nat := 0
  lent : Bool := false
  rcl : Bool := false
  held : Bool := false
  xfer : Bool := false
  xferTo : Nat := 0
  /-- read-only buffer: context, line number (PA / 128), bytes; most recently used first (R218) -/
  robuf : List (Nat × Nat × BitVec 1024) := []
  /-- second-level TLB, most recently used first (R383) -/
  tlb2 : List TlbEntry := []
  moves : List Move := []
  /-- each bank's rotating-priority pointer: the requester it last granted, a core index or 8 for the copy unit (R213) -/
  bankPtr : Table Nat := []
  /-- the copy unit's core pointer (R292) -/
  copyPtr : Nat := 7
  lost : Bool := false
deriving DecidableEq, Repr

/-- What the part has given to the outside: memory written on the host, interrupts, mailbox results, answers. -/
inductive Outbox where
  | irq (vector : Nat)
  | mailbox (cmd result : Nat)
  /-- a message to a peer connection manager, about a record of this package for a plan and of the peer's for any other message (R281) -/
  | peer (pkg cnum : Nat) (k : PeerKind)
  | ringOut (cnum : Nat) (f : RingFlit)
  /-- a credit for ring data that came from another package: engine, context and ring id (R304) -/
  | ringCredit (eng ctx rid : Nat)
  | measurement (owner seq : Nat) (turn : Word) (counters : List Word) (nonce : BitVec 128)
  | debug (zero : Bool) (data : BitVec 512)
  | spdm (session : Nat) (nonce : BitVec 128)
  /-- an attempt to negotiate a part of a standard that the package does not support has been refused (R5) -/
  | unsupported
  | report (what : Nat) (a b : Nat)
deriving DecidableEq, Repr

/-- Links, ports and memory channels (22_link.md), by their own numbers; registers hold their spec layouts. -/
structure Links where
  /-- slot tables, active and shadow, by ((router × 64 + port) × 8 + plane) × 1024 + slot (R27) -/
  active : Table Byte := []
  shadow : Table Byte := []
  rtrstat : Table Word := []
  /-- relay owner table: (router × 64 + port) × 1024 + place, where places follow (q, place) order (R42) -/
  places : Table Nat := []
  failed : List (Nat × Nat) := []
  /-- the turn from which a failed link discards flits, by router × 64 + port (R48, R290) -/
  failedFrom : Table Nat := []
  /-- the failed links that firmware's relay routes avoid: those at the last time it computed them (R290) -/
  routed : List (Nat × Nat) := []
  trkwhl : Table Word := []
  trkctl : Table Word := []
  lnkstat : Table Word := []
  repairs : Table Nat := []
  uestat : Table Word := []
  uepeer : Table (Word × Word) := []
  hlstat : Word := 0
  hbmrate : Word := 0
  lpstat : Table Word := []
  lnkirq : Word := 0
  eyes : Table Word := []
  /-- HBM4 window owners by pseudo-channel × 128 + window, active and shadow (R44, R36) -/
  windows : Table Nat := []
  winShadow : Table Nat := []
  /-- the next turn in which a link's configuration wheel slot is free, by router × 64 + port (R37) -/
  cfgNext : Table Nat := []
  /-- commits that routers hold: router and switch turn (R37) -/
  commits : List (Nat × Nat) := []
  /-- the first absolute slot at which a pseudo-channel's next access window may begin (R43) -/
  winNext : Table Nat := []
  /-- requests queued at a DRAM controller: pseudo-channel, or 1000 + channel; request and part (R44, R412) -/
  queues : Table (List (Nat × Nat)) := []
  rr : Table Nat := []
  fenced : List Nat := []
  lpfenced : List Nat := []
  /-- the HBM4 rate change under way: target (R45, R408) -/
  rateTo : Option Nat := none
  /-- the period boundary from which every controller is stalled for it (R45) -/
  stallAt : Option Nat := none
  diesLost : List Nat := []
deriving DecidableEq, Repr

/-- Everything of the running part but memory. -/
structure Dev where
  /-- the package has stopped: the cause of R421 -/
  stopped : Option Nat := none
  /-- the thread that issues (THREADID) -/
  cur : Nat := 0
  threads : Table Thread := []
  regs : Table Word := []
  cregs : Table Word := []
  cores : Table CoreRec := []
  tiles : Table (BitVec 4096) := []
  scales : Table (BitVec 256) := []
  books : Table (BitVec 256) := []
  descs : Table Word := []
  slices : Table Slice := []
  accs : Table (BitVec 32) := []
  banks : Table Bank := []
  gangs : Table Gang := []
  work : Table WorkList := []
  phasers : Table Phaser := []
  /-- phaser wait registrations: unit, IDX, thread (R269) -/
  phWaits : List (Nat × Nat × Nat) := []
  /-- granule wait registrations: granule, thread (R216) -/
  grWaits : List (Nat × Nat) := []
  /-- threads whose granule or phaser wake has been sent -/
  wakes : List Nat := []
  clusters : Table Cluster := []
  ctxs : Table Ctx := []
  kernels : List Kernel := []
  saves : List Saved := []
  sched : Sched := {}
  collectors : Table Collector := []
  reqs : List Req := []
  msgs : List Msg := []
  credits : Table Credit := []
  jobs : Table Job := []
  circuits : Table Circuit := []
  copies : Table NiCopy := []
  cfg : List CfgMsg := []
  flits : List Flit := []
  streams : List Stream := []
  links : Links := {}
  names : List (Nat × NameEntry) := []
  domains : Table AtticDomain := []
  scrubs : Table Scrub := []
  /-- usage counters by owner × 16 + register (R348) -/
  usage : Table Word := []
  snaps : Nat := 0
  /-- the absolute slot count A (R26) -/
  slots : Nat := 0
  hostUp : Bool := false
  /-- SPDM sessions whose keys have been exchanged, each with whether its requester has attested the part in it (R5, R335) -/
  sessions : Table Bool := []
  /-- host memory as the part reaches it over PCIe: bytes that are not zero (R318, R319) -/
  host : Table Byte := []
  /-- the connection manager has failed and is being restarted (0xD5) -/
  cmDown : Bool := false
  debugOpen : Bool := false
  out : List Outbox := []
  /-- the next number of a request, message, flit, job, and of the Attic's ages -/
  fresh : Nat := 1
  /-- the counter that free values are drawn with (assumption 6) -/
  tick : Nat := 0
  /-- the model's own schedule: the accesses of an instruction that covers several granules of its own cluster are performed one by one, in
  steps of their own, else together (assumption 9) -/
  split : Bool := false
deriving DecidableEq, Repr

/-- The model's own schedule: what the next step does (assumption 2). -/
inductive Agenda where
  /-- one of the part's own steps -/
  | event (i : Instr)
  /-- this core issues next -/
  | core (c : Nat)
  /-- this core issues next, while other requesters of its cluster (core indices, 8 for the copy unit) may ask for the bank its instruction needs
  (R113, R213); held: a vector instruction or tile store that it issues reads its rows later than in its issue cycle (R166) -/
  | issue (c : Nat) (rivals : List Nat) (held : Bool)
  /-- so many wheel slots pass -/
  | slots (n : Nat)
  /-- so many cycles of a cluster's clock pass -/
  | cycles (cluster n : Nat)
deriving DecidableEq, Repr

/-- The state of the machine. -/
structure State where
  boot : Boot
  mem : Mem
  dev : Dev
  agenda : List Agenda
  /-- the core that issues when the agenda is empty -/
  core : Nat
deriving DecidableEq, Repr

/-- Why the machine stops. -/
inductive Fault where
  /-- raised by every step but COLD_BOOT once the package has stopped at package scope (R421): safe, the part does nothing then -/
  | packageStopped
deriving DecidableEq, Repr

/-- Why a step has no meaning. -/
inductive Refusal where
  /-- raised by an instruction that has no meaning in the model yet: safe -/
  | notModelled (mnemonic : String)
deriving DecidableEq, Repr

/-- The walker's slot of every core waits in WALKRET for the first miss (assumption 15). -/
def walkerInit : Thread :=
  { wbase := 2016, wsize := 32, pc := Config.walkerEntry, st := .ready, flight := .walk Config.walkerEntry,
    k0 := BitVec.allOnes 128, k1 := BitVec.allOnes 128, k2 := BitVec.allOnes 128, k3 := BitVec.allOnes 128 }

/-- The machine right after reset: nothing booted, memory zero and FULL, every slot FREE but the walkers'. -/
def State.reset : State where
  boot := {}
  mem := {}
  dev := {}
  agenda := []
  core := 0

end Sys2Proof.Machine
end

