-- ==== Sys2Proof/Machine/Ops.lean ====
section
/-!
DEFINITION. The operations over memory, registers and threads that every meaning is built from; taking a trap (R414) and the
return from one (R313, R323).
-/

namespace Sys2Proof.Machine

/-- What a step works on: the part, memory as the step sees it, and the changes of memory it makes, latest first. -/
structure Live where
  dev : Dev
  mem : Mem
  writes : List MemWrite
deriving DecidableEq, Repr

/-- The DRAM channel of a granule: 64 × stack + pseudo-channel, or 1000 + LPDDR-6 channel; 2000 for any other address (R211). -/
def chanOf (g : Nat) : Nat :=
  let pa := g * 16
  match bitsAt pa 51 48 with
  | 0 => 64 * bitsAt pa 39 36 + bitsAt pa 13 8
  | 1 => 1000 + bitsAt pa 14 8
  | _ => 2000

/-- One change of memory, keeping the canonical form. -/
def Mem.apply (m : Mem) (w : MemWrite) : Mem :=
  match w with
  | .byte a v => { m with cells := tset m.cells (0 : Byte) a v }
  | .full g true => { m with empties := serase m.empties g }
  | .full g false => { m with empties := sinsert m.empties g }
  | .poison g on => { m with poison := if on != shas m.bad (chanOf g) then sinsert m.poison g else serase m.poison g }
  | .channel ch => { m with bad := sinsert m.bad ch, poison := m.poison.filter fun g => chanOf g != ch }
  | .zero a n => { m with cells := m.cells.filter fun c => c.1 < a || a + n ≤ c.1 }
  | .clean g n =>
    { m with cells := m.cells.filter fun c => c.1 < 16 * g || 16 * (g + n) ≤ c.1
             empties := m.empties.filter fun x => x < g || g + n ≤ x
             poison := (List.range n).foldl (fun p i => if shas m.bad (chanOf (g + i)) then sinsert p (g + i) else serase p (g + i)) m.poison }

/-- Changes in order. -/
def Mem.applyAll (m : Mem) (ws : List MemWrite) : Mem := ws.foldl Mem.apply m

/-- The canonical form of memory: see State. -/
def Mem.wf (m : Mem) : Bool :=
  rising (m.cells.map Prod.fst) && m.cells.all (fun c => c.2 != 0) && rising m.empties && rising m.bad && rising m.poison

/-- The byte at a physical address; an unlisted byte is zero (assumption 11). -/
def Mem.byteAt (m : Mem) (a : Nat) : Byte := tget m.cells 0 a

/-- n bytes from a as a little-endian number (R6). -/
def Mem.read (m : Mem) (a : Nat) : Nat → Nat
  | 0 => 0
  | n + 1 => (m.byteAt a).toNat + 256 * m.read (a + 1) n

/-- A granule is FULL (R215). -/
def Mem.isFull (m : Mem) (g : Nat) : Bool := !shas m.empties g

/-- A granule is poisoned (R217). -/
def Mem.isPoisoned (m : Mem) (g : Nat) : Bool := shas m.poison g != shas m.bad (chanOf g)

/-- One change of memory in a step. -/
def Live.write (l : Live) (w : MemWrite) : Live := { l with mem := l.mem.apply w, writes := w :: l.writes }

/-- Stores the low n bytes of v from a, little-endian. -/
def Live.store (l : Live) (a : Nat) : Nat → Nat → Live
  | 0, _ => l
  | n + 1, v => (l.write (.byte a (BitVec.ofNat 8 v))).store (a + 1) n (v / 256)

/-- Sets a granule's full/empty state. -/
def Live.setFull (l : Live) (g : Nat) (f : Bool) : Live := l.write (.full g f)

/-- Changes the part. -/
def Live.map (l : Live) (f : Dev → Dev) : Live := { l with dev := f l.dev }

/-- W, the wheel length (R24, R33). -/
def Boot.wheel (b : Boot) : Nat := 2 ^ wbits b.whldesc 3 0

/-- TURN (R26). -/
def Live.turn (b : Boot) (l : Live) : Nat := l.dev.slots / b.wheel

/-- The next fresh number. -/
def Live.newId (l : Live) : Nat × Live := (l.dev.fresh, l.map fun d => { d with fresh := d.fresh + 1 })

/-- A free choice among n possibilities (assumption 6); the counter advances. -/
def Live.choose (l : Live) (n : Nat) : Nat × Live :=
  (Config.freeChoice l.dev.tick % n, l.map fun d => { d with tick := d.tick + 1 })

/-- A thread slot that nothing has used: the walker's waits in WALKRET. -/
def slotInit (tid : Nat) : Thread := if tid % 64 == 63 then walkerInit else {}

/-- The thread of a thread slot, by THREADID. -/
def Dev.thread (d : Dev) (tid : Nat) : Thread := tget d.threads (slotInit tid) tid

/-- Writes a thread slot. -/
def Dev.setThread (d : Dev) (tid : Nat) (t : Thread) : Dev := { d with threads := tput d.threads tid t }

/-- Changes a thread slot. -/
def Live.onThread (l : Live) (tid : Nat) (f : Thread → Thread) : Live :=
  l.map fun d => d.setThread tid (f (d.thread tid))

/-- The issuing thread. -/
def Live.th (l : Live) : Thread := l.dev.thread l.dev.cur

/-- Changes the issuing thread. -/
def Live.onTh (l : Live) (f : Thread → Thread) : Live := l.onThread l.dev.cur f

/-- A core's record. -/
def Dev.core (d : Dev) (c : Nat) : CoreRec := tget d.cores {} c

/-- Changes a core's record. -/
def Live.onCore (l : Live) (c : Nat) (f : CoreRec → CoreRec) : Live :=
  l.map fun d => { d with cores := tput d.cores c (f (d.core c)) }

/-- A cluster's record. -/
def Dev.cluster (d : Dev) (c : Nat) : Cluster := tget d.clusters {} c

/-- Changes a cluster's record. -/
def Live.onCluster (l : Live) (c : Nat) (f : Cluster → Cluster) : Live :=
  l.map fun d => { d with clusters := tput d.clusters c (f (d.cluster c)) }

/-- A context. -/
def Dev.ctx (d : Dev) (c : Nat) : Ctx := tget d.ctxs {} c

/-- Changes a context. -/
def Live.onCtx (l : Live) (c : Nat) (f : Ctx → Ctx) : Live :=
  l.map fun d => { d with ctxs := tput d.ctxs c (f (d.ctx c)) }

/-- The physical core of the issuing thread (R105). -/
def Live.myCore (l : Live) : Nat := l.dev.cur / 64
/-- The thread slot of the issuing thread (R105). -/
def Live.mySlot (l : Live) : Nat := l.dev.cur % 64
/-- The cluster of the issuing thread (R11). -/
def Live.myCluster (l : Live) : Nat := l.dev.cur / 512

/-- A slot is a guest slot (R105). -/
def isGuestSlot (slot : Nat) : Bool := 56 ≤ slot && slot ≤ 62

/-- Privileged() (R71): the walker's slot; firmware service threads run on no core of the model (assumption 15). -/
def Live.privileged (l : Live) : Bool := l.mySlot == 63

/-- Register-file entry of a thread's register (R106). -/
def regKey (tid : Nat) (t : Thread) (i : Nat) : Nat := tid / 64 * 2048 + t.wbase + i

/-- G[i] of a thread; g0 reads as zero (R56). -/
def Dev.getG (d : Dev) (tid i : Nat) : Word := if i = 0 then 0 else tget d.regs 0 (regKey tid (d.thread tid) i)

/-- Writes G[i] of a thread and sets its presence bit (R115); a write to g0 is discarded (R56). -/
def Dev.setG (d : Dev) (tid i : Nat) (v : Word) : Dev :=
  if i = 0 then d
  else
    let t := d.thread tid
    { d with regs := tset d.regs 0 (regKey tid t i) v,
             threads := tput d.threads tid { t with absent := t.absent &&& ~~~(1#128 <<< i) } }

/-- Clears a presence bit (R115); the bit of g0 is always set. -/
def Dev.clearPresent (d : Dev) (tid i : Nat) : Dev :=
  if i = 0 then d
  else
    let t := d.thread tid
    d.setThread tid { t with absent := t.absent ||| (1#128 <<< i) }

/-- G[i] of the issuing thread. -/
def Live.g (l : Live) (i : BitVec 7) : Word := l.dev.getG l.dev.cur i.toNat

/-- Writes G[i] of the issuing thread. -/
def Live.setG (l : Live) (i : BitVec 7) (v : Word) : Live := l.map fun d => d.setG d.cur i.toNat v

/-- A register's presence bit is clear. -/
def Thread.lacks (t : Thread) (i : Nat) : Bool := i != 0 && t.absent.getLsbD i

/-- P[i]; p0 reads as true (R56). -/
def Thread.p (t : Thread) (i : Nat) : Bool := i == 0 || t.preds.getLsbD i

/-- P[i] with a write to p0 discarded (R56). -/
def Thread.setP (t : Thread) (i : Nat) (v : Bool) : Thread :=
  if i = 0 then t
  else { t with preds := if v then t.preds ||| (1#8 <<< i) else t.preds &&& ~~~(1#8 <<< i) }

/-- Writes P[i] of the issuing thread. -/
def Live.setP (l : Live) (i : BitVec 3) (v : Bool) : Live := l.onTh fun t => t.setP i.toNat v

/-- K[i] (R56). -/
def Thread.k (t : Thread) (i : Nat) : BitVec 128 :=
  match i with
  | 0 => t.k0
  | 1 => t.k1
  | 2 => t.k2
  | _ => t.k3

/-- Writes K[i]. -/
def Thread.setK (t : Thread) (i : Nat) (v : BitVec 128) : Thread :=
  match i with
  | 0 => { t with k0 := v }
  | 1 => { t with k1 := v }
  | 2 => { t with k2 := v }
  | _ => { t with k3 := v }

/-- SetFlag for a set of flags (R71, R87). -/
def Live.setFlags (l : Live) (f : Flags) : Live := l.onTh fun t => { t with status := t.status ||| f.setWidth 64 }

/-- A request is an access of R220 that FENCE and its like wait for. -/
def Req.isAccess (r : Req) : Bool :=
  match r.kind with
  | .mem _ _ => r.cls != .red
  | .tile _ _ _ _ => true
  | .weights _ _ _ _ _ => true
  | .chunks _ _ replay _ _ _ _ _ _ _ => !replay
  | .attic _ _ _ _ _ _ _ => true
  | .tlbi _ _ _ => true
  | _ => false

/-- A request has been performed at its home (R219). -/
def Req.performed (r : Req) : Bool := r.stage == .back || r.stage == .replied

/-- The thread has an earlier access that is not performed (R220). -/
def Dev.pendingAccess (d : Dev) (tid : Nat) : Bool := d.reqs.any fun r => r.tid == tid && r.isAccess && !r.performed

/-- RELOUT (R118, R220). -/
def Dev.relOut (d : Dev) (tid : Nat) : Nat :=
  (d.reqs.filter fun r => r.tid == tid && (r.cls == .relaxed || r.cls == .release) && !r.performed).length

/-- REDOUT (R118, R220). -/
def Dev.redOut (d : Dev) (tid : Nat) : Nat := (d.reqs.filter fun r => r.tid == tid && r.cls == .red).length

/-- The bits of STATUS that MTS writes (R87, R118). -/
def statusMask : Word := 0x3000FF

/-- STATUS as MFS reads it (R87, R118). -/
def Dev.status (d : Dev) (tid : Nat) : Word :=
  ((d.thread tid).status &&& statusMask) |||
    (BitVec.ofNat 64 (d.relOut tid) <<< 44) ||| (BitVec.ofNat 64 (d.redOut tid) <<< 32) |||
    (if tid % 64 == 63 then 0x800000 else 0) ||| (if isGuestSlot (tid % 64) then 0x400000 else 0)

/-- The outcome of an instruction's body (R70, R71). -/
inductive Out where
  /-- it completes; the next instruction follows -/
  | done (l : Live)
  /-- it completes and the next PC is the target -/
  | jump (l : Live) (target : Word)
  /-- it has issued and waits; the argument of the function is the PC after it -/
  | wait (l : Live) (f : Word → Flight)
  /-- Park(reason) -/
  | park (l : Live) (p : Park)
  /-- Trap(code) with DETAIL and the failing address -/
  | trap (l : Live) (cause detail : Nat) (addr : Word)

/-- A kernel of a context. -/
def Dev.kernel? (d : Dev) (ctx knum : Nat) : Option Kernel :=
  d.kernels.find? fun k => k.ctx == ctx && k.knum == knum && k.st != 7

/-- Changes a kernel. -/
def Dev.onKernel (d : Dev) (ctx knum : Nat) (f : Kernel → Kernel) : Dev :=
  { d with kernels := d.kernels.map fun k => if k.ctx == ctx && k.knum == knum && k.st != 7 then f k else k }

/-- A byte field of a launch record (R308): n bytes from byte i. -/
def lrecField (r : BitVec 1024) (i n : Nat) : Nat := bitsAt r.toNat (8 * (i + n) - 1) (8 * i)

/-- FPOL of a kernel (R308, R313). -/
def Kernel.fpol (k : Kernel) : Nat := lrecField k.lrec 119 1

/-- A fault collector (R417). -/
def Dev.collector (d : Dev) (c : Nat) : Collector := tget d.collectors {} c

/-- Sends a record to the context's collector (R417). -/
def Dev.sendRecord (d : Dev) (r : Record) : Dev :=
  let c := d.collector r.ctx
  { d with collectors := tput d.collectors r.ctx { c with queue := c.queue ++ [r] } }

/-- An instruction waits at its gang's barrier. -/
def Flight.atBarrier : Flight → Bool
  | .gang _ => true
  | _ => false

/-- Halts one thread for the end of its kernel or a pre-emption (R109, R111): one with an instruction in flight stays until it has completed,
but a TLDV between attempts ends with no effect (R171), and an instance at a gang's barrier is withdrawn (R206). -/
def haltThread (t : Thread) : Thread :=
  match t.st with
  | .ready => if t.flight == .none || decide (0 < t.retries) || t.flight.atBarrier then { t with st := .halted false, flight := .none, retries := 0 } else t
  | .parked _ => { t with st := .halted false }
  | .guest => { t with st := .halted false }
  | .trapped => { t with st := .halted true }
  | _ => t

/-- A thread belongs to a kernel. -/
def Thread.of (t : Thread) (ctx knum : Nat) : Bool := t.ctx == ctx && t.knum == knum && t.st != .free

/-- A gang when its kernel halts (R192, R206): a forming one is discarded; in another, instances that wait are withdrawn. -/
def haltGang (ctx knum : Nat) (g : Gang) : Option Gang :=
  if g.ctx != ctx || g.knum != knum then some g
  else if g.st == 1 then none
  else some { g with arrivals := [], mmas := g.mmas.filter Mma.begun }

/-- A request whose weight load has not been released (R198, R356). -/
def Req.unreleased (r : Req) : Bool :=
  r.stage == .going && (match r.kind with
    | .weights _ _ _ _ _ => true
    | .chunks _ _ _ _ _ _ _ _ _ _ => true
    | _ => false)

/-- Halts every thread of a kernel (R310, R314) and withdraws the misses of those it halts (R385). Where a cluster's clock is stopped the request is
held until the restart (R18). -/
def Dev.haltKernel (d : Dev) (ctx knum : Nat) : Dev :=
  let gone := fun tid => !(d.cluster (tid / 512)).busy && (match tfind d.threads tid with
    | some t => t.of ctx knum
    | none => false)
  { d with
    threads := d.threads.map fun e => if e.2.of ctx knum && !(d.cluster (e.1 / 512)).busy then (e.1, haltThread e.2) else e
    phWaits := d.phWaits.filter fun w => !gone w.2.2
    reqs := d.reqs.filter fun r => !(gone r.tid && r.unreleased)
    gangs := d.gangs.filterMap fun e => (haltGang ctx knum e.2).map fun g => (e.1, g)
    cores := d.cores.map fun e => (e.1, { e.2 with misses := e.2.misses.filter fun m => m.job != 0 || !gone (e.1 * 64 + m.slot) }) }

/-- A job has ended (R292, R295). -/
def Job.ended (j : Job) : Bool := (j.st == 3 || j.st == 4 || j.st == 5) && j.items.isEmpty && !j.pending

/-- An item has begun: its accesses are found, its row is being read, or it has failed; one that waits for a page, or is to restart, has not. -/
def Item.begun (i : Item) : Bool := i.req.isSome || i.fail.isSome || i.out

/-- JCANCEL's effect on a job (R295, R303): no further item starts or is reported, one that waits for its page among them. -/
def Job.cancel (j : Job) : Job := if j.st ≤ 2 || j.st == 6 then { j with st := 5, items := j.items.filter Item.begun } else j

/-- Moves a kernel to ENDING (R310): every thread halted, every job not yet ended cancelled. While it halts or is saved, the end waits. -/
def Dev.endKernel (d : Dev) (ctx knum : Nat) : Dev :=
  match d.kernel? ctx knum with
  | none => d
  | some k =>
    if k.st == 3 then d.onKernel ctx knum fun k => { k with endAfter := true }
    else if k.st == 6 then d.haltKernel ctx knum
    else
      let d := (d.onKernel ctx knum fun k => { k with st := 6, end_ := 2 }).haltKernel ctx knum
      { d with jobs := d.jobs.map fun e => if e.2.ctx == ctx && e.2.knum == knum then (e.1, e.2.cancel) else e }

/-- The record of a thread's trap (R417). -/
def threadRecord (b : Boot) (l : Live) (tid cause src detail : Nat) (pc addr handle : Word) (flags : Nat) : Record :=
  let t := l.dev.thread tid
  let halting := match l.dev.kernel? t.ctx t.knum with
    | some k => k.st == 3
    | none => false
  { cause, src, detail, ctx := if tid % 64 == 63 then wbits (l.dev.core (tid / 64)).ctxnum 15 0 else t.ctx, knum := t.knum,
    pc, addr, handle, lc := t.lcore, lt := t.lthread, phys := tid, owner := t.owner,
    flags := flags + (if halting then 4 else 0), turn := l.turn b }

/-- Counts a trap in its kernel and applies its fault policy (R313, R317). -/
def Dev.faultPolicy (d : Dev) (ctx knum cause : Nat) (autosw : Bool) : Dev :=
  match d.kernel? ctx knum with
  | none => d
  | some k =>
    let d := d.onKernel ctx knum fun k => { k with ntrap := k.ntrap + 1, cause := if k.cause == 0 then cause else k.cause }
    if autosw || bitsAt k.fpol 1 0 != 0 then d else d.endKernel ctx knum

/-- The record of a failure of a thread that is trapped: FLAGS.SEC is set (R415). -/
def secondRecord (b : Boot) (tid : Nat) (f : Deferred) (l : Live) : Live :=
  l.map fun d => d.sendRecord (threadRecord b l tid f.cause 1 f.detail f.pc f.addr 0 (if f.performed then 3 else 1))

/-- Taking a trap in one slot (R414): the thread becomes TRAPPED with its state as it stands, FAULTINFO takes the cause and the detail,
a record goes to the collector, those of failures that wait follow it (R415), and the fault policy acts. src and flags are those of the record; resume is where a resumed thread
continues when that is not its PC (R313). -/
def trapOne (b : Boot) (tid cause detail src flags : Nat) (pc addr handle : Word) (resume : Option Word) (l : Live) : Live :=
  let t := l.dev.thread tid
  let auto := (cause == 6 || cause == 7) && (match l.dev.kernel? t.ctx t.knum with
    | some k => k.fpol / 4 % 2 == 1
    | none => false)
  let r := { threadRecord b l tid cause src detail pc addr handle flags with resume := if auto then some tid else none }
  let l := l.onThread tid fun t =>
    { t with st := .trapped, flight := .none, retries := 0, toGang := 0, deferred := none, seconds := [], resumeAt := resume,
             faultInfo := BitVec.ofNat 64 (detail % 65536 * 65536 + cause % 256) }
  let l := l.map fun d => d.sendRecord r
  let l := (t.deferred.toList ++ t.seconds).foldl (fun l f => secondRecord b tid f l) l
  if tid % 64 == 63 then l else l.map fun d => d.faultPolicy t.ctx t.knum cause auto

/-- A core's place along its row of clusters: 8 × x + core index (R189). -/
def chainLin (core : Nat) : Nat := core / 8 % 24 * 8 + core % 8

/-- The core at a position of the chain that a head begins (R189). -/
def chainCore (head p : Nat) : Nat := (head % 1536 / 192 * 24 + (chainLin head + p) / 8) * 8 + (chainLin head + p) % 8

/-- The cores of a gang by position. -/
def gangCores (head n : Nat) : List Nat := (List.range n).map (chainCore head)

/-- The gang in whose work a thread takes part: as a gang thread, or by an MGANG on a core of a chain that forms. -/
def Dev.gangFor (d : Dev) (tid : Nat) (forming : Bool) : Option (Nat × Gang) :=
  d.gangs.find? fun e => if forming && e.2.st == 1 then (gangCores e.1 e.2.n).contains (tid / 64) else e.2.threads.any fun p => p.2 == tid

/-- The gang of which a thread is a gang thread (R190). -/
def Dev.gangOf (d : Dev) (tid : Nat) : Option (Nat × Gang) := d.gangFor tid false

/-- The waiting instances of a gang leave its barrier (R191, R192): a record that was forming is discarded, and weight loads that were
not released are dropped. -/
def Live.clearBarrier (l : Live) (head : Nat) : Live :=
  match tfind l.dev.gangs head with
  | none => l
  | some g =>
    let tids := g.arrivals.map Arrival.tid
    l.map fun d => { d with gangs := if g.st == 1 then tdel d.gangs head else tput d.gangs head { g with arrivals := [] },
                            reqs := d.reqs.filter fun r => !(tids.contains r.tid && r.unreleased) }

/-- Taking a trap in any slot (R414). Where the thread was to arrive at a gang's barrier, the instances that wait there trap too (R191). -/
def trapSlot (b : Boot) (tid cause detail src flags : Nat) (pc addr handle : Word) (resume : Option Word) (l : Live) : Live :=
  let t := l.dev.thread tid
  let gang := if t.toGang = 0 then none else l.dev.gangFor tid (t.toGang == 1)
  match gang with
  | none => trapOne b tid cause detail src flags pc addr handle resume l
  | some (head, g) =>
    let pos := chainLin (tid / 64) - chainLin head
    let l := if g.arrivals.isEmpty then l else l.clearBarrier head
    let l := trapOne b tid cause detail src flags pc addr handle resume l
    g.arrivals.foldl (fun l a => trapOne b a.tid 0x29 pos 0 0 (l.dev.thread a.tid).pc 0 0 none l) l

/-- The walker trapped: its misses are answered FAULT with cause 0x50 and it restarts at its entry (R424). -/
def restartWalker (b : Boot) (tid : Nat) (l : Live) : Live :=
  let c := tid / 64
  let misses := (l.dev.core c).misses
  let l := l.onThread tid fun t => { t with st := .ready, flight := .walk Config.walkerEntry, pc := Config.walkerEntry }
  let l := l.onCore c fun r => { r with misses := [] }
  misses.foldl (fun l m =>
    if m.job != 0 then
      l.map fun d => { d with jobs := d.jobs.map fun e =>
        if e.1 == m.job then (e.1, { e.2 with st := if e.2.st == 2 then 1 else e.2.st, items := e.2.items.map fun i =>
          if i.waiting then { i with waiting := false, fail := some (0x50, 0, BitVec.ofNat 64 m.va) } else i }) else e }
    else
      let w := c * 64 + m.slot
      trapSlot b w 0x50 0 0 0 (l.dev.thread w).pc (BitVec.ofNat 64 m.va) 0 none l) l

/-- Taking a trap (R414); the walker restarts. -/
def takeTrap (b : Boot) (tid cause detail src flags : Nat) (pc addr handle : Word) (resume : Option Word) (l : Live) : Live :=
  let l := trapSlot b tid cause detail src flags pc addr handle resume l
  if tid % 64 == 63 then restartWalker b tid l else l

/-- A thread's deferred fault is taken (R222, R415), before its next instruction issues; a resume goes on at that instruction. -/
def takeDeferred (b : Boot) (l : Live) (tid : Nat) (f : Deferred) : Live :=
  takeTrap b tid f.cause f.detail 1 (if f.performed then 2 else 0) f.pc f.addr 0 (some (l.dev.thread tid).pc)
    (l.onThread tid fun t => { t with deferred := none })

/-- The return from a trap (R109, R313): READY, at the next instruction after TRAP, BRK and deferred faults, else at the trapping one. -/
def resumeThread (tid : Nat) (l : Live) : Live :=
  l.onThread tid fun t =>
    if t.st == .trapped then { t with st := .ready, pc := t.resumeAt.getD t.pc, resumeAt := none } else t

/-- A failure after its instruction has completed (R222, R415): the thread traps before its next instruction issues. Where it is trapped already
the record goes at once; where a failure is due already, this one waits for its record. -/
def deferFault (b : Boot) (tid cause detail : Nat) (pc addr : Word) (performed : Bool) (l : Live) : Live :=
  let f : Deferred := ⟨cause, detail, pc, addr, performed⟩
  match (l.dev.thread tid).st, (l.dev.thread tid).deferred with
  | .trapped, _ => secondRecord b tid f l
  | .halted true, _ => secondRecord b tid f l
  | _, some _ => l.onThread tid fun t => { t with seconds := t.seconds ++ [f] }
  | _, none => l.onThread tid fun t => { t with deferred := some f }

/-- The outcome of an instruction of so many words taken into the thread (R70). -/
def finish (b : Boot) (len : Nat) (o : Out) : Live :=
  match o with
  | .done l => l.onTh fun t => { t with pc := t.pc + BitVec.ofNat 64 (4 * len), retries := 0 }
  | .jump l target => l.onTh fun t => { t with pc := target }
  | .wait l f => l.onTh fun t => { t with flight := f (t.pc + BitVec.ofNat 64 (4 * len)) }
  | .park l p => l.onTh fun t => { t with st := .parked p }
  | .trap l cause detail addr =>
    let pc := l.th.pc
    takeTrap b l.dev.cur cause detail 0 (if cause == 0x47 then 2 else 0) pc addr 0
      (if cause == 6 || cause == 7 then some (pc + BitVec.ofNat 64 (4 * len)) else none) l

/-- Check 6 of R63: g indices below the window size, t indices below the tile window size. -/
def checkWindows (l : Live) (gs : List Nat) (ts : List Nat) (k : Unit → Out) : Out :=
  if gs.any (fun i => l.th.wsize ≤ i) then .trap l 0x03 0 0
  else if ts.any (fun i => l.th.tsize ≤ i) then .trap l 0x03 1 0
  else k ()

/-- Presence (R70, R115): parks on the first register of the list whose bit is clear. -/
def checkPresent (l : Live) (gs : List Nat) (k : Unit → Out) : Out :=
  match gs.find? (fun i => l.th.lacks i) with
  | some r => .park l (.presence r)
  | none => k ()

/-- Runs a step on a state: nothing happens on a stopped package (R421). -/
def onLive (s : State) (f : Boot → Live → Live) : Host.Outcome State Fault Refusal :=
  if s.dev.stopped.isSome then .fault .packageStopped
  else
    let l := f s.boot ⟨s.dev, s.mem, []⟩
    .next { s with dev := l.dev, mem := s.mem.applyAll l.writes.reverse }

/-- A base instruction: windows, presence, body. -/
def instr (s : State) (len : Nat) (gs : List (BitVec 7)) (body : Boot → Live → Out) : Host.Outcome State Fault Refusal :=
  onLive s fun b l =>
    let is := gs.map BitVec.toNat
    finish b len (checkWindows l is [] fun _ => checkPresent l is fun _ => body b l)

/-- Words of an extended instruction (R49). -/
def Ext.len (x : Ext) : Nat := if x.lit.isSome then 5 else 3

/-- An extended instruction: windows, guard (R59), presence, body. -/
def instrX (s : State) (x : Ext) (gs : List (BitVec 7)) (ts : List (BitVec 7)) (body : Boot → Live → Out) :
    Host.Outcome State Fault Refusal :=
  onLive s fun b l =>
    let is := gs.map BitVec.toNat
    finish b (Ext.len x) (checkWindows l is (ts.map BitVec.toNat) fun _ =>
      if (l.th.p x.pg.toNat != x.pn) then checkPresent l is fun _ => body b l else .done l)

/-- One of the part's own steps. -/
def event (s : State) (f : Boot → Live → Live) : Host.Outcome State Fault Refusal := onLive s f

end Sys2Proof.Machine
end

