-- ==== Sys2Proof/Machine/Place.lean ====
section
/-!
DEFINITION. Where things lie: clusters, homes, routers, relay routes (01_package.md, 02_wheel.md, R211, R212, R290, R435).
A relay node is a cluster id, or 192 + g for the router of gateway die g.
-/

namespace Sys2Proof.Machine

/-- The capability mask of cluster presence (R23). -/
def Boot.hasCluster (b : Boot) (c : Nat) : Bool :=
  c < 192 && (if c < 64 then b.capclu0 else if c < 128 then b.capclu1 else b.capclu2).getLsbD (c % 64)

/-- An HBM4 stack is present (R23). -/
def Boot.hasStack (b : Boot) (s : Nat) : Bool := s < 12 && b.capstk.getLsbD s

/-- An LPDDR-6 channel is present (R23). -/
def Boot.hasChannel (b : Boot) (ch : Nat) : Bool :=
  ch < 128 && (if ch < 64 then b.caplpc0 else b.caplpc1).getLsbD (ch % 64)

/-- A compute die, or 8 + g for gateway die g, is present (R23). -/
def Boot.hasDie (b : Boot) (d : Nat) : Bool := b.capdie.getLsbD d

/-- x of a cluster (R10). -/
def xOf (c : Nat) : Nat := c % 24
/-- y of a cluster (R10). -/
def yOf (c : Nat) : Nat := c / 24
/-- The compute die of a cluster (R10). -/
def dieOf (c : Nat) : Nat := yOf c / 4 * 4 + xOf c / 6

/-- The home stack of a cluster (R12). -/
def stackOf (c : Nat) : Nat :=
  3 * ((if 4 ≤ yOf c then 2 else 0) + (if 12 ≤ xOf c then 1 else 0)) + xOf c % 12 / 4

/-- The clusters of a stack group in ascending id order (R12). -/
def groupOf (s : Nat) : List Nat := (List.range 192).filter fun c => stackOf c == s

/-- The home cluster of a pseudo-channel when no die is left out (R12). -/
def pcHome0 (s n : Nat) : Nat := (groupOf s).getD (n / 4) 0

/-- The home cluster of a pseudo-channel (R12, R22). -/
def pcHome (b : Boot) (s n : Nat) : Nat :=
  let c := pcHome0 s n
  if b.hasCluster c then c
  else
    let before := ((List.range n).filter fun m => !b.hasCluster (pcHome0 s m)).length
    let near := (groupOf s).filter b.hasCluster
    let pool := if near.isEmpty
      then (List.range 192).filter fun c => b.hasCluster c && stackOf c / 3 == s / 3
      else near
    pool.getD (before % pool.length) c

/-- The cluster at which an LPDDR-6 channel is reached (R212). -/
def lpHome (ch : Nat) : Nat :=
  let g := ch / 32
  (if g < 2 then 0 else 7) * 24 + 12 * (g % 2) + ch % 32 % 12

/-- A home (R211): a bank's cluster, a pseudo-channel as 64 × stack + number, or an LPDDR-6 channel. -/
inductive Home where
  | bank (c : Nat)
  | hbm (pc : Nat)
  | lp (ch : Nat)
deriving DecidableEq, Repr

/-- The home of a physical address; none outside the ranges of R211. -/
def paHome (b : Boot) (pa : Nat) : Option Home :=
  match bitsAt pa 51 48 with
  | 0 =>
    let s := bitsAt pa 39 36
    if bitsAt pa 47 40 = 0 && b.hasStack s && bitsAt pa 35 0 < 64000000000 then some (.hbm (64 * s + bitsAt pa 13 8)) else none
  | 1 =>
    let ch := bitsAt pa 14 8
    let off := bitsAt pa 39 15 * 256 + bitsAt pa 7 0
    if bitsAt pa 47 40 = 0 && b.hasChannel ch && off < 8000000000 then some (.lp ch) else none
  | 2 =>
    let c := bitsAt pa 29 22
    if bitsAt pa 47 30 = 0 && b.hasCluster c then some (.bank c) else none
  | _ => none

/-- The home cluster of a home (R212). -/
def Home.cluster (b : Boot) : Home → Nat
  | .bank c => c
  | .hbm pc => pcHome b (pc / 64) (pc % 64)
  | .lp ch => lpHome ch

/-- Where a home's messages end (R28). -/
def Home.dest : Home → Dest
  | .bank c => .cluster c
  | .hbm pc => .gateway (pc / 64 / 3) (12 + 4 * (pc / 64 % 3) + pc % 64 / 16)
  | .lp ch => .gateway (ch / 32) (24 + ch % 32 / 16)

/-- The cluster that gives the routes to and from a home: of a DRAM controller, its home cluster (R41, R435). -/
def Home.via (b : Boot) (h : Home) : Option Nat :=
  match h with
  | .bank _ => none
  | _ => some (h.cluster b)

/-- The physical address of an offset in a cluster's memory (R211). -/
def clusterPa (c off : Nat) : Nat := 2 * 2 ^ 48 + c * 2 ^ 22 + off

/-- The edge row that a gateway die faces (R435). -/
def edgeRow (g : Nat) : Nat := if g < 2 then 0 else 7

/-- The column of a gateway die's span that is nearest a column (R435). -/
def clampCol (g c : Nat) : Nat := Nat.max (12 * (g % 2)) (Nat.min (12 * (g % 2) + 11) c)

/-- The node at the far end of a relay link, where it lies within the package (R28). -/
def farEnd (node port : Nat) : Option Nat :=
  if node < 192 then
    match port with
    | 0 => some (if yOf node = 0 then 192 + xOf node / 12 else node - 24)
    | 1 => if xOf node = 23 then none else some (node + 1)
    | 2 => some (if yOf node = 7 then 194 + xOf node / 12 else node + 24)
    | 3 => if xOf node = 0 then none else some (node - 1)
    | _ => none
  else if port < 12 then some (edgeRow (node - 192) * 24 + 12 * ((node - 192) % 2) + port)
  else none

/-- The port by which the far end of a link sends back (R28). -/
def backPort (node port : Nat) : Nat :=
  if node < 192 then
    match farEnd node port with
    | some n => if n < 192 then (port + 2) % 4 else xOf node % 12
    | none => 0
  else if node < 194 then 0 else 2

/-- The crossing addition of a link within the package (R30): 3 across UCIe, else 0. -/
def crossing (node port : Nat) : Nat :=
  if node < 192 then
    match port with
    | 0 => if yOf node % 4 = 0 then 3 else 0
    | 1 => if xOf node % 6 = 5 then 3 else 0
    | 2 => if yOf node % 4 = 3 then 3 else 0
    | 3 => if xOf node % 6 = 0 then 3 else 0
    | _ => 0
  else if port < 12 then 3 else 0

/-- A number of hops by one port from a cluster. -/
def straight (c port n : Nat) : List (Nat × Nat) :=
  match n with
  | 0 => []
  | n + 1 => (c, port) :: straight ((farEnd c port).getD c) port n

/-- The hops along x from a cluster to a column. -/
def alongX (c col : Nat) : List (Nat × Nat) :=
  if xOf c < col then straight c 1 (col - xOf c) else straight c 3 (xOf c - col)

/-- The hops along y from a cluster to a row. -/
def alongY (c row : Nat) : List (Nat × Nat) :=
  if yOf c < row then straight c 2 (row - yOf c) else straight c 0 (yOf c - row)

/-- The minimal route between two clusters, x first or y first. -/
def meshRoute (c d : Nat) (xFirst : Bool) : List (Nat × Nat) :=
  if xFirst then alongX c (xOf d) ++ alongY (yOf c * 24 + xOf d) (yOf d)
  else alongY c (yOf d) ++ alongX (yOf d * 24 + xOf c) (xOf d)

/-- The column at which a message from a cluster's column crosses to a gateway port; a DRAM home has its own (R41). -/
def exitCol (col : Nat) (g : Nat) (home : Option Nat) : Nat :=
  match home with
  | some c => xOf c
  | none => clampCol g col

/-- The route from a cluster to an end (R41): xFirst gives the order of the mesh part. -/
def routeFrom (c : Nat) (d : Dest) (home : Option Nat) (xFirst : Bool) : List (Nat × Nat) :=
  match d with
  | .cluster k => meshRoute c k xFirst
  | .gateway g _ =>
    let e := edgeRow g * 24 + exitCol (xOf c) g home
    meshRoute c e xFirst ++ [(e, if g < 2 then 0 else 2)]

/-- The column at which a message from a gateway port enters the fabric (R435). -/
def entryCol (g : Nat) (srcHome : Option Nat) (d : Dest) : Nat :=
  match d with
  | .cluster k => match srcHome with
    | some c => xOf c
    | none => clampCol g (xOf k)
  | .gateway h _ => if g % 2 = 0 && h % 2 = 1 then 11 else if g % 2 = 1 && h % 2 = 0 then 12 else 12 * (g % 2)

/-- The standing route between two ends (R41, R435); the home clusters are those of a DRAM controller at either end. -/
def standingRoute (s : Dest) (srcHome : Option Nat) (d : Dest) (dstHome : Option Nat) (xFirst : Bool) : List (Nat × Nat) :=
  match s with
  | .cluster c => routeFrom c d dstHome xFirst
  | .gateway g _ =>
    let same := match d with
      | .gateway h _ => h == g
      | .cluster _ => false
    if same then []
    else
      let col := entryCol g srcHome d
      (192 + g, col % 12) :: routeFrom (edgeRow g * 24 + col) d dstHome xFirst

/-- The relay node of an end. -/
def Dest.node : Dest → Nat
  | .cluster c => c
  | .gateway g _ => 192 + g

/-- A relay node's die is present. -/
def Boot.hasNode (b : Boot) (n : Nat) : Bool := if n < 192 then b.hasCluster n else b.hasDie (8 + (n - 192))

/-- Neither end of a link is absent or on a list of failed links. -/
def linkClear (b : Boot) (failed : List (Nat × Nat)) (node port : Nat) : Bool :=
  b.hasNode node && !failed.contains (node, port) &&
    (match farEnd node port with
     | some n => b.hasNode n && !failed.contains (n, backPort node port)
     | none => port ≥ 12 && node ≥ 192)

/-- A link within the package can carry messages: neither end is absent, and it has not failed (R21, R290). -/
def linkOk (b : Boot) (l : Live) (node port : Nat) : Bool := linkClear b l.dev.links.failed node port

/-- A link that firmware's relay routes may use: it had not failed when they were computed (R290). -/
def linkRouted (b : Boot) (l : Live) (node port : Nat) : Bool := linkClear b l.dev.links.routed node port

/-- One round of a breadth-first search: the nodes reached from a frontier. -/
def expand (b : Boot) (l : Live) (front seen : List Nat) : List Nat :=
  front.foldl (fun acc n =>
    (List.range 12).foldl (fun acc p =>
      match farEnd n p with
      | some m => if linkRouted b l n p && !seen.contains m && !acc.contains m then acc ++ [m] else acc
      | none => acc) acc) []

/-- The distances of nodes from one node, nearest first, as lists by distance. -/
def layers (b : Boot) (l : Live) (front seen : List Nat) : Nat → List (List Nat)
  | 0 => []
  | n + 1 => if front.isEmpty then [] else front :: layers b l (expand b l front seen) (seen ++ front) n

/-- A shortest route by falling distance from the target; among equals, firmware's table decides (assumption 19). -/
def descend (b : Boot) (l : Live) (n dst : Nat) : List (List Nat) → List (Nat × Nat)
  | [] => []
  | layer :: rest =>
    let ports := (List.range 12).filter fun p => linkRouted b l n p && (match farEnd n p with
      | some m => layer.contains m
      | none => false)
    match ports[Config.routeChoice n dst % ports.length]? with
    | none => []
    | some p => (n, p) :: descend b l ((farEnd n p).getD n) dst rest

/-- The route firmware computes around failed links and absent dies (R290): y first if that is clear, else a shortest one. -/
def detour (b : Boot) (l : Live) (s : Dest) (srcHome : Option Nat) (d : Dest) (dstHome : Option Nat) : List (Nat × Nat) :=
  let yf := standingRoute s srcHome d dstHome false
  if yf.all (fun h => linkRouted b l h.1 h.2) then yf
  else
    let ls := layers b l [d.node] [] 64
    let near := ls.takeWhile fun y => !y.contains s.node
    descend b l s.node d.node near.reverse

/-- The package of an end on another package of the domain: of cluster 256 × (package + 1) + k. -/
def Dest.away (d : Dest) : Option Nat :=
  match d with
  | .cluster c => if 256 ≤ c then some (c / 256 - 1) else none
  | .gateway _ _ => none

/-- The route of a relay message within the package (R41, R290), by firmware's tables as they stand. -/
def innerRoute (b : Boot) (l : Live) (s : Dest) (srcHome : Option Nat) (d : Dest) (dstHome : Option Nat) : List (Nat × Nat) :=
  let r := standingRoute s srcHome d dstHome true
  if r.all (fun h => linkRouted b l h.1 h.2) then r else detour b l s srcHome d dstHome

/-- The route of a relay message (R41): to another package, out by the Treco port that the firmware's routing table names for it; where it names none, by a link
that is not there, so that the message is drained. -/
def relayRoute (b : Boot) (l : Live) (s : Dest) (srcHome : Option Nat) (d : Dest) (dstHome : Option Nat) : List (Nat × Nat) :=
  match d.away with
  | none => innerRoute b l s srcHome d dstHome
  | some p => match b.routes.find? fun r => r.1 == p with
    | some r => innerRoute b l s srcHome (.gateway (r.2 / 9) (26 + r.2 % 9)) none ++ [(192 + r.2 / 9, 26 + r.2 % 9)]
    | none => [(s.node, 63)]

end Sys2Proof.Machine
end

