-- ==== Sys2Proof/Machine/Relay.lean ====
section
/-!
DEFINITION. The relay service's queues, credits and places (R39 to R42), failure reports (R229, R290), and the requests it carries.
-/

namespace Sys2Proof.Machine

/-- A relay node's end: a cluster's NI, or port 37 of a gateway die. -/
def nodeEnd (n : Nat) : Dest := if n < 192 then .cluster n else .gateway (n - 192) 37

/-- Changes the request of a number. -/
def Live.onReq (l : Live) (id : Nat) (f : Req → Req) : Live :=
  l.map fun d => { d with reqs := d.reqs.map fun r => if r.id == id then f r else r }

/-- Changes some parts of a request. -/
def Live.onParts (l : Live) (id : Nat) (which : Part → Bool) (f : Part → Part) : Live :=
  l.onReq id fun r => { r with parts := r.parts.map fun p => if which p then f p else p }

/-- Removes a request. -/
def Live.dropReq (l : Live) (id : Nat) : Live := l.map fun d => { d with reqs := d.reqs.filter fun r => r.id != id }

/-- A request by its number. -/
def Live.req? (l : Live) (id : Nat) : Option Req := l.dev.reqs.find? fun r => r.id == id

/-- Adds a request; its number is fresh. -/
def Live.addReq (l : Live) (f : Nat → Req) : Nat × Live :=
  let n := l.newId
  (n.1, n.2.map fun d => { d with reqs := d.reqs ++ [f n.1] })

/-- The key of a relay link and context. -/
def linkKey (node dir ctx : Nat) : Nat := (node * 64 + dir) * 65536 + ctx

/-- Credits of a link for a context (R40): 8 to begin with. -/
def Live.credit (l : Live) (node dir ctx : Nat) : Credit := tget l.dev.credits {} (linkKey node dir ctx)

/-- Changes a link's credits. -/
def Live.onCredit (l : Live) (node dir ctx : Nat) (f : Credit → Credit) : Live :=
  l.map fun d => { d with credits := tset d.credits {} (linkKey node dir ctx) (f (tget d.credits {} (linkKey node dir ctx))) }

/-- A message's place in the queue of the NI that received it is freed; the NI owes its sender one credit (R40). -/
def Live.freePlace (l : Live) (m : Msg) : Live :=
  match m.came with
  | none => l
  | some (n, p) => l.onCredit n p m.ctx fun c => { c with owed := c.owed + 1 }

/-- The messages that wait for an outward port of a node, of one context, oldest first. -/
def Live.outQueue (l : Live) (node dir ctx : Nat) : List Msg :=
  l.dev.msgs.filter fun m => m.ctx == ctx && m.path.head? == some (node, dir)

/-- A fabric rekey holds a context's messages, but not those to DRAM homes (R341). -/
def Live.relayHeld (l : Live) (ctx : Nat) (d : Dest) : Bool :=
  (l.dev.ctx ctx).st == 5 && (match d with
    | .cluster _ => true
    | .gateway _ p => p < 12 || p ≥ 26)

/-- The first hop of a route from which a thread may not send now: no credit, as its own NI's queue holds eight messages (R40,
assumption 20), or the fabric key is being changed (R341). -/
def Live.sendBlocked (l : Live) (ctx : Nat) (d : Dest) (path : List (Nat × Nat)) : Option (Nat × Nat) :=
  match path with
  | [] => none
  | (n, p) :: _ => if l.relayHeld ctx d || 8 ≤ (l.outQueue n p ctx).length then some (n, p) else none

/-- The die of a relay node: C0 to C7 are 0 to 7, G0 to G3 are 8 to 11 (R334). -/
def nodeDie (n : Nat) : Nat := if n < 192 then dieOf n else 8 + (n - 192)

/-- Sets the bits of dies that a context touches (R344). -/
def Live.touch (l : Live) (ctx : Nat) (dies : List Nat) : Live :=
  if ctx = 0 then l
  else l.onCtx ctx fun c => { c with tdies := dies.foldl (fun (t : BitVec 12) d => t ||| (1#12 <<< d)) c.tdies }

/-- Sets the bit of the gateway die at which a physical address has its home in DRAM (R344). -/
def Live.touchPa (b : Boot) (l : Live) (ctx pa : Nat) : Live :=
  match paHome b pa with
  | some (.hbm pc) => l.touch ctx [8 + pc / 64 / 3]
  | some (.lp ch) => l.touch ctx [8 + ch / 32]
  | _ => l

/-- Sends a message (R39): its route is fixed when it is sent, and the context touches the dies of its routers (R344). -/
def Live.send (b : Boot) (l : Live) (ctx req : Nat) (back : Bool) (src : Dest) (srcHome : Option Nat) (dst : Dest)
    (dstHome : Option Nat) (flits : Nat) (grp : Nat := 0) : Live :=
  let path := relayRoute b l src srcHome dst dstHome
  let n := (l.touch ctx (nodeDie src.node :: nodeDie dst.node :: path.map fun h => nodeDie h.1)).newId
  n.2.map fun d => { d with msgs := d.msgs ++
    [{ id := n.1, ctx, req, back, path, node := src.node, dest := dst, flits, ready := d.slots, grp, home := dstHome, srcHome }] }

/-- A message stands at its destination, and the instant has come at which it is handed to its unit (R41). -/
def Live.arrived (l : Live) (m : Msg) : Bool := m.path.isEmpty && decide (m.ready ≤ l.dev.slots)

/-- The message of a request that stands at its destination. -/
def Live.atEnd (l : Live) (req : Nat) (back : Bool) : Option Msg :=
  l.dev.msgs.find? fun m => m.req == req && m.back == back && l.arrived m

/-- The message of one piece, or to or from one cluster, of a request that has several; a report of its failure where asked (R229). -/
def Live.atEndOf (l : Live) (req grp : Nat) (back rep : Bool) : Option Msg :=
  l.dev.msgs.find? fun m => m.req == req && m.grp == grp && m.back == back && m.rep == rep && l.arrived m

/-- A unit takes a message from its NI, whose place is freed. -/
def Live.takeMsg (l : Live) (m : Msg) : Live :=
  (l.freePlace m).map fun d => { d with msgs := d.msgs.filter fun x => x.id != m.id }

/-- A request's messages leave the relay service, with their places. -/
def Live.dropMsgs (l : Live) (req : Nat) : Live :=
  let l' := (l.dev.msgs.filter fun m => m.req == req).foldl (fun l m => l.freePlace m) l
  l'.map fun d => { d with msgs := d.msgs.filter fun m => m.req != req }

/-- A unit takes the message of a request that stands at its destination, if there is one (R41). -/
def Live.accept (l : Live) (req : Nat) (back : Bool) : Option Live :=
  match l.atEnd req back with
  | none => none
  | some m => some ((l.takeMsg m).onReq req fun r => { r with stage := if back then .replied else .home, since := if back then r.since else m.ready })

/-- A request whose message has not yet been taken by its unit is taken if it stands there; none if it is still on its way. -/
def Live.reach (l : Live) (r : Req) : Option Live :=
  match r.stage with
  | .home => some l
  | .going => l.accept r.id false
  | _ => none

/-- A request whose reply has reached its sender; the reply is taken if it stands there. -/
def Live.reachBack (l : Live) (r : Req) : Option Live :=
  match r.stage with
  | .replied => some l
  | .back => l.accept r.id true
  | _ => none

/-- DETAIL of the lost-reply cause for a request (R229, R230, R424; assumption 21 for the granule writes). -/
def ReqKind.lostDetail : ReqKind → Nat
  | .mem (.store _ _) _ => 2
  | .mem (.red _ _ _) _ => 3
  | .mem _ _ => 1
  | .phaser _ _ _ _ => 4
  | .circuit _ _ _ _ _ _ => 5
  | .tlbi _ _ _ => 7
  | .coll _ _ => 8
  | .attic op _ _ _ _ step _ => if op == 6 && step % 2 == 0 then 1 else 6
  | _ => 0

/-- What a failure of a request's message means for its sender: request-failed before its unit, else lost-reply (R229). -/
def failureOf (r : Req) (performed : Bool) : Nat × Nat × Bool :=
  if performed then (0x47, r.kind.lostDetail, true) else (0x46, 0, false)

/-- A request whose failure the relay service has reported (R229), as against one its home or unit found. -/
def Req.reported (r : Req) : Bool :=
  match r.fail with
  | some (c, _, _) => c == 0x46 || c == 0x47
  | none => false

/-- A request has several messages under way at once: a TLBI, a copy item. -/
def ReqKind.many : ReqKind → Bool
  | .tlbi _ _ _ => true
  | .piece _ _ => true
  | _ => false

/-- A drained or refused message: its place is freed, and the NI that held it sends a report to the sender (R229, R290). A granule wake that fails is
gone with its report, which asks nothing of the home that sent it. -/
def Live.failMsg (b : Boot) (l : Live) (m : Msg) : Live :=
  let l := l.takeMsg m
  match l.req? m.req with
  | none => l
  | some r =>
    let report := fun (l : Live) => l.send b m.ctx r.id true (nodeEnd m.node) none (nodeEnd r.src) none 1 m.grp
    match r.kind with
    | .wake _ => l.dropReq r.id
    | _ =>
      if r.kind.many then
        let id := l.dev.fresh
        (report l).map fun d => { d with msgs := d.msgs.map fun x => if x.id == id then { x with rep := true, lost := m.back } else x }
      else report (l.onReq r.id fun r => { r with stage := .back, fail := if r.reported then r.fail else some (failureOf r m.back) })

/-- The key of a place in a link's relay owner table (R42): places follow the order of (q, place). -/
def placeKey (node port place : Nat) : Nat := (node * 64 + port) * 1024 + place

/-- Relay places on a link: RLYCNT wheel slots of V places each (R42). -/
def Boot.places (b : Boot) : Nat := wbits b.whldesc 41 35 * 2 ^ wbits b.whldesc 62 60

/-- The context that holds a place; 0 for none. -/
def Live.placeOwner (l : Live) (node port place : Nat) : Nat := tget l.dev.links.places 0 (placeKey node port place)

/-- The relay wheel slot that a slot of the wheel is, by its number (R34). -/
def Boot.relayIndex (b : Boot) (slot : Nat) : Option Nat :=
  (List.range (wbits b.whldesc 41 35)).find? fun i => (wbits b.whldesc 24 15 + i * wbits b.whldesc 34 25) % b.wheel == slot

/-- V, the length of the relay rotation (R42). -/
def Boot.rotation (b : Boot) : Nat := 2 ^ wbits b.whldesc 62 60

/-- A context owns a link in an absolute slot (R40, R42): it is a relay wheel slot whose place n mod V, in turn n, names the context. -/
def Live.ownsSlot (b : Boot) (l : Live) (node port ctx a : Nat) : Bool :=
  match b.relayIndex (a % b.wheel) with
  | none => false
  | some i => ctx != 0 && l.placeOwner node port (i * b.rotation + a / b.wheel % b.rotation) == ctx

/-- The first slot from an absolute slot on that a context owns on a link (R41). -/
def Live.nextOwned (b : Boot) (l : Live) (node port ctx a : Nat) : Option Nat :=
  firstFrom a (b.wheel * b.rotation) (l.ownsSlot b node port ctx)

/-- A context holds a place on a link (R40). -/
def Live.holdsPlace (b : Boot) (l : Live) (node port ctx : Nat) : Bool :=
  (List.range b.places).any fun i => l.placeOwner node port i == ctx

/-- The free place of a link with the lowest (q, place). -/
def Live.freeLinkPlace (b : Boot) (l : Live) (node port : Nat) : Option Nat :=
  firstFrom 0 b.places fun i => l.placeOwner node port i == 0

/-- The router-to-router links of the package (R42). -/
def relayLinks (b : Boot) : List (Nat × Nat) :=
  ((List.range 192).flatMap fun c => if b.hasCluster c then [(c, 0), (c, 1), (c, 2), (c, 3)] else []).filter
      (fun h => (farEnd h.1 h.2).isSome) ++
    (List.range 4).flatMap fun g => if b.hasNode (192 + g) then (List.range 12).map fun p => (192 + g, p) else []

/-- Gives a context one place on each of some links, a further one on a link on which it holds one already where asked; none if a link has no free
place (R42). -/
def Live.grantPlaces (b : Boot) (l : Live) (ctx : Nat) (links : List (Nat × Nat)) (further : Bool := false) : Option Live :=
  match links with
  | [] => some l
  | (n, p) :: rest =>
    if !further && l.holdsPlace b n p ctx then l.grantPlaces b ctx rest further
    else match l.freeLinkPlace b n p with
      | none => none
      | some i =>
        (l.map fun d => { d with links := { d.links with places := tput d.links.places (placeKey n p i) ctx } }).grantPlaces b ctx rest further

end Sys2Proof.Machine
end

