-- ==== Sys2Proof/Machine/Translate.lean ====
section
/-!
DEFINITION. Page tables, TLBs, the miss mailbox and translation (21_page.md), and the accesses firmware makes for itself (R436).
-/

namespace Sys2Proof.Machine

/-- V of a page table entry (R380). -/
def pteV (p : Word) : Bool := p.getLsbD 63
/-- LEAF (R380). -/
def pteLeaf (p : Word) : Bool := p.getLsbD 62
/-- TIER (R380). -/
def pteTier (p : Word) : Nat := wbits p 61 60
/-- CLASS (R380). -/
def pteClass (p : Word) : Nat := wbits p 59 58
/-- W (R380). -/
def pteW (p : Word) : Bool := p.getLsbD 57
/-- P (R380). -/
def pteP (p : Word) : Bool := p.getLsbD 56
/-- M (R380). -/
def pteM (p : Word) : Bool := p.getLsbD 55
/-- KEY (R380). -/
def pteKey (p : Word) : Nat := wbits p 53 52
/-- ADDR as a physical address (R380). -/
def pteAddr (p : Word) : Nat := wbits p 51 8 * 256

/-- Bytes of a page. -/
def pageBytes (big : Bool) : Nat := if big then 2097152 else 65536

/-- The tier of a physical address as a leaf's TIER says it (R381). -/
def tierOfPa (pa : Nat) : Nat := bitsAt pa 51 48 + 1

/-- A leaf is well formed (R381). -/
def leafOk (b : Boot) (prot big : Bool) (p : Word) : Bool :=
  pteV p && pteLeaf p && !p.getLsbD 54 && pteClass p != 3 && pteKey p != 3 &&
    (pteTier p == 0 || (pteAddr p % pageBytes big == 0 && tierOfPa (pteAddr p) == pteTier p &&
      (paHome b (pteAddr p)).isSome)) &&
    (pteTier p != 3 || (pteKey p == 2 && pteClass p == 0)) &&
    (pteKey p != 2 || pteTier p == 0 || pteTier p == 3 || !prot) &&
    (pteKey p != 1 || pteClass p == 2) &&
    ((pteClass p != 1 && pteClass p != 2) || !pteW p)

/-- A pointer to a table whose size is given is well formed (R381). -/
def pointerOk (p : Word) (size : Nat) : Bool := pteV p && wbits p 62 52 == 0 && pteAddr p % size == 0

/-- What a walk of the page tables finds (R387). -/
inductive Walk where
  /-- V = 0 at some level -/
  | unmapped
  /-- an entry that is not well formed, or a poisoned table -/
  | bad
  | leaf (pte : Word) (big : Bool)
deriving DecidableEq, Repr

/-- Reads a table entry; none when the table is poisoned or lies nowhere. -/
def readPte (b : Boot) (m : Mem) (pa : Nat) : Option Word :=
  if m.isPoisoned (pa / 16) || (paHome b pa).isNone then none else some (BitVec.ofNat 64 (m.read pa 8))

/-- The walk of R379 and R387 from a level-1 table. -/
def walkFrom (b : Boot) (m : Mem) (prot : Bool) (root va : Nat) : Walk :=
  match readPte b m (root + 8 * bitsAt va 47 37) with
  | none => .bad
  | some p1 =>
    if !pteV p1 then .unmapped
    else if !pointerOk p1 524288 then .bad
    else match readPte b m (pteAddr p1 + 8 * bitsAt va 36 21) with
      | none => .bad
      | some p2 =>
        if !pteV p2 then .unmapped
        else if pteLeaf p2 then (if leafOk b prot true p2 then .leaf p2 true else .bad)
        else if !pointerOk p2 256 then .bad
        else match readPte b m (pteAddr p2 + 8 * bitsAt va 20 16) with
          | none => .bad
          | some p3 => if !pteV p3 then .unmapped else if leafOk b prot false p3 then .leaf p3 false else .bad

/-- The walk of a context's page tables. -/
def Live.walk (b : Boot) (l : Live) (ctx va : Nat) : Walk :=
  let c := l.dev.ctx ctx
  walkFrom b l.mem c.prot (wbits c.ptroot 51 14 * 16384) va

/-- The physical address a leaf gives for a virtual address. -/
def leafPa (pte : Word) (big : Bool) (va : Nat) : Nat :=
  pteAddr pte / pageBytes big * pageBytes big + va % pageBytes big

/-- The entry that covers a virtual address (R383). -/
def TlbEntry.covers (e : TlbEntry) (ctx va : Nat) : Bool :=
  e.ctx == ctx && (if e.big then e.page / 32 == va / 65536 / 32 else e.page == va / 65536)

/-- Puts an entry first and drops others for the same page; the least recently used leaves when there are too many (R383). -/
def tlbInstall (t : List TlbEntry) (e : TlbEntry) (size : Nat) : List TlbEntry :=
  (e :: t.filter fun x => !(x.covers e.ctx (e.page * 65536) || e.covers x.ctx (x.page * 65536))).take size

/-- The context of a core (R333). -/
def Live.coreCtx (l : Live) (core : Nat) : Nat := wbits (l.dev.core core).ctxnum 15 0

/-- Looks a virtual address up: the core's TLB, then the second-level TLB, whose hit fills the core's (R383). -/
def Live.tlbLookup (l : Live) (core va : Nat) : Option (TlbEntry × Live) :=
  let ctx := l.coreCtx core
  match (l.dev.core core).tlb.find? fun e => e.covers ctx va with
  | some e => some (e, l.onCore core fun r => { r with tlb := tlbInstall r.tlb e 64 })
  | none =>
    match (l.dev.cluster (core / 8)).tlb2.find? fun e => e.covers ctx va with
    | none => none
    | some e =>
      let l := l.onCluster (core / 8) fun c => { c with tlb2 := tlbInstall c.tlb2 e 2048 }
      some (e, l.onCore core fun r => { r with tlb := tlbInstall r.tlb e 64 })

/-- What the checks of an entry find (R384). -/
inductive Verdict where
  | ok
  /-- a write miss is posted -/
  | wait
  | cause (c : Nat)
deriving DecidableEq, Repr

/-- The checks of R384 in order. kind is KIND of R382; path 0x6 has kind 5. classCause is the Strongroom cause for this kind of access; 0
where none applies (R128). -/
def pteVerdict (pte : Word) (kind classCause : Nat) : Verdict :=
  let write := kind == 1 || kind == 4
  if kind == 5 && pteClass pte != 1 then .cause 0x66
  else if kind != 5 && pteClass pte == 1 && classCause != 0 then .cause classCause
  else if kind == 2 && (pteClass pte != 0 || pteTier pte == 3) then .cause 0x05
  else if pteP pte then .cause 0x45
  else if write && pteClass pte == 2 then .cause 0x73
  else if write && !pteW pte then .cause 0x4B
  else if write && pteM pte then .wait
  else .ok

/-- The result of a translation. -/
inductive Xlat where
  | pa (l : Live) (pa : Nat) (pte : Word)
  /-- a miss, or a write to a migrating page -/
  | miss (l : Live)
  | fail (l : Live) (cause : Nat)

/-- Translate(a, kind) on a core, with the checks of the entry (R383, R384, R211). -/
def Live.translate (b : Boot) (l : Live) (core va kind classCause : Nat) : Xlat :=
  match l.tlbLookup core va with
  | none => .miss l
  | some (e, l) =>
    match pteVerdict e.pte kind classCause with
    | .cause c => .fail l c
    | .wait => .miss l
    | .ok =>
      let pa := leafPa e.pte e.big va
      if (paHome b pa).isNone then .fail l 0x40 else .pa l pa e.pte

/-- Posts a miss in a core's mailbox (R385): a thread's miss takes its slot's place, a job's its own. -/
def Live.postMiss (l : Live) (core : Nat) (m : Miss) : Live :=
  l.onCore core fun r => { r with misses := (r.misses.filter fun x => !(x.slot == m.slot && x.job == m.job)) ++ [m] }

/-- Parks the issuing thread with reason TLB and posts its miss (R383). -/
def parkTlb (l : Live) (va kind : Nat) : Out :=
  .park (l.postMiss l.myCore { kind, va := va % 2 ^ 48, slot := l.mySlot, job := 0, jid := 0, defers := 0, due := none, arrived := false }) .tlb

/-- The bits of a path 0x0 or 0x1 address that are reserved (R209). -/
def reserved01 (a : Word) : Bool := wbits a 59 48 != 0

/-- The window of a core covers an offset (R214, R333). -/
def inWindow (cmwin : Word) (off : Nat) : Bool :=
  65536 * wbits cmwin 13 8 ≤ off && off < 65536 * (wbits cmwin 13 8 + wbits cmwin 6 0)

/-- The windows a context holds in a cluster (R214): the NI's copy (R332, R333). -/
def Live.ctxWindow (l : Live) (ctx cluster off : Nat) : Bool :=
  (l.dev.ctx ctx).attached.any fun a =>
    a.1 == cluster && decide (65536 * a.2.2.1 ≤ off) && decide (off < 65536 * (a.2.2.1 + a.2.2.2))

/-- Some granule of n bytes at a physical address is poisoned (R217). -/
def Mem.anyPoison (m : Mem) (pa n : Nat) : Bool :=
  (List.range ((pa + n - 1) / 16 + 1 - pa / 16)).any fun i => m.isPoisoned (pa / 16 + i)

/-- A usage counter grows, up to 2⁶⁴ − 1 (R348). -/
def addUsage (u : Table Word) (owner reg n : Nat) : Table Word :=
  let k := owner * 16 + reg
  let v := (tget u 0 k).toNat + n
  tset u 0 k (if v < 2 ^ 64 then BitVec.ofNat 64 v else BitVec.allOnes 64)

/-- Work is charged to an owner (R348). -/
def Live.charge (l : Live) (owner reg n : Nat) : Live := l.map fun d => { d with usage := addUsage d.usage owner reg n }

/-- Counts bytes moved at a home for a context's owner (R348). -/
def Live.chargeBytes (b : Boot) (l : Live) (ctx pa n : Nat) : Live :=
  match paHome b pa with
  | some (.hbm _) => l.charge (l.dev.ctx ctx).owner 4 n
  | some (.lp _) => l.charge (l.dev.ctx ctx).owner 5 n
  | _ => l

/-- Where an access that firmware makes for a context ends (R436). -/
inductive Reach where
  | ok (pa : Nat)
  /-- the page is migrating and the access is a write: it waits (R393) -/
  | wait
  | fail (cause : Nat)
deriving DecidableEq, Repr

/-- Firmware's walk for an access of its own, with the checks of R384 (R436). -/
def Live.fwReach (b : Boot) (l : Live) (ctx va : Nat) (write : Bool) : Reach :=
  match l.walk b ctx va with
  | .unmapped => .fail 0x48
  | .bad => .fail 0x49
  | .leaf pte big =>
    if pteTier pte = 0 then .fail 0x4A
    else match pteVerdict pte (if write then 1 else 0) (if write then 0x61 else 0x60) with
      | .cause c => .fail c
      | .wait => .wait
      | .ok =>
        let pa := leafPa pte big va
        if (paHome b pa).isNone then .fail 0x40 else if l.mem.isPoisoned (pa / 16) then .fail 0x45 else .ok pa

/-- The first failure among the granules of n bytes at a virtual address, or ok with the address of the first. -/
def Live.fwReachAll (b : Boot) (l : Live) (ctx va : Nat) (write : Bool) : Nat → Reach
  | 0 => l.fwReach b ctx va write
  | n + 1 =>
    match l.fwReach b ctx (va + 16 * n + 16) write with
    | .ok _ => l.fwReachAll b ctx va write n
    | r => r

/-- Reads n bytes of a context's memory as firmware (R436), granule by granule. -/
def Live.fwRead (b : Boot) (l : Live) (ctx va : Nat) : Nat → Nat
  | 0 => 0
  | n + 1 =>
    let low := match l.fwReach b ctx va false with
      | .ok pa => (l.mem.byteAt pa).toNat
      | _ => 0
    low + 256 * l.fwRead b ctx (va + 1) n

/-- Writes n bytes of a context's memory as firmware (R436). -/
def Live.fwWrite (b : Boot) (l : Live) (ctx va v : Nat) : Nat → Live
  | 0 => l
  | n + 1 =>
    let l' := match l.fwReach b ctx va true with
      | .ok pa => l.write (.byte pa (BitVec.ofNat 8 v))
      | _ => l
    l'.fwWrite b ctx (va + 1) (v / 256) n

/-- Removes the entries that a test selects from a core's TLB. -/
def Live.flushCore (l : Live) (core : Nat) (p : TlbEntry → Bool) : Live :=
  l.onCore core fun r => { r with tlb := r.tlb.filter fun e => !p e }

/-- Removes them from the TLBs of a cluster's cores and its second-level TLB. -/
def Live.flushCluster (l : Live) (c : Nat) (p : TlbEntry → Bool) : Live :=
  let l := l.onCluster c fun r => { r with tlb2 := r.tlb2.filter fun e => !p e }
  l.map fun d => { d with cores := d.cores.map fun e => if e.1 / 8 == c then (e.1, { e.2 with tlb := e.2.tlb.filter fun x => !p x }) else e }

end Sys2Proof.Machine
end

