-- ==== Sys2Proof/Machine/JobOps.lean ====
section
/-!
DEFINITION. Jobs: records, handles, items, how an item fails and how a job ends (15_job.md); the records of hardware events (R421).
-/

namespace Sys2Proof.Machine

/-- A record of the part's own: to the package log, and to the context named (R421). -/
def Live.hardRecord (b : Boot) (l : Live) (ctx cause src detail unit : Nat) (addr : Word) : Live :=
  let r : Record := { cause, src, detail, ctx := 0, addr, phys := unit, turn := l.turn b, owner := (l.dev.ctx ctx).owner }
  let l := l.map fun d => d.sendRecord r
  if ctx = 0 then l else l.map fun d => d.sendRecord { r with ctx }

/-- A record of a context event, SRC 6 (R417). -/
def Live.ctxRecord (b : Boot) (l : Live) (ctx cause detail knum flags : Nat) (handle : Word) (lc lt : Nat) : Live :=
  l.map fun d => d.sendRecord
    { cause, src := 6, detail, ctx, knum, handle, lc, lt, owner := (d.ctx ctx).owner, flags, turn := l.turn b }

/-- A number that names no thread: the sender of an engine's own requests. -/
def noThread : Nat := 98304

/-- The home stack of a name (R363). -/
def homeStack (b : Boot) (name : BitVec 128) : Nat :=
  let present := (List.range 12).filter b.hasStack
  present.getD (bitsAt name.toNat 40 9 % present.length) 0

/-- The gateway port of a stack's Attic engine (R363). -/
def engineDest (stack : Nat) : Dest := .gateway (stack / 3) 37

/-- Sends a request of an engine or an NI itself. -/
def Live.sendOwn (b : Boot) (l : Live) (ctx src : Nat) (kind : ReqKind) (dest : Dest) (flits : Nat) : Live :=
  let r := l.addReq fun id => { id, kind, tid := noThread, ctx, pc := 0, va := 0, cls := .plain, stage := if nodeEnd src == dest then .home else .going, src, dest }
  if nodeEnd src == dest then r.2 else r.2.send b ctx r.1 false (nodeEnd src) none dest none flits

/-- A circuit's handle (R277). -/
def Circuit.handle (c : Circuit) (n res : Nat) : Word :=
  BitVec.ofNat 64 (2 ^ 63 + res * 2 ^ 59 + c.gen * 2 ^ 40 + n * 2 ^ 20 + c.ep * 2 ^ 8 + c.src % 256)

/-- A job by its number. -/
def Live.job? (l : Live) (id : Nat) : Option Job := tfind l.dev.jobs id

/-- Changes a job. -/
def Live.onJob (l : Live) (id : Nat) (f : Job → Job) : Live :=
  l.map fun d => { d with jobs := d.jobs.map fun e => if e.1 == id then (e.1, f e.2) else e }

/-- ENG of a job's handle (R293). -/
def JobQueue.eng : JobQueue → Nat
  | .copy _ => 0
  | .coll e _ => e

/-- A job waits in a collective queue (KIND of R293). -/
def JobQueue.isColl : JobQueue → Bool
  | .copy _ => false
  | .coll _ _ => true

/-- A job's handle (R293). -/
def Job.handle (j : Job) : Word :=
  BitVec.ofNat 64 (2 ^ 63 + (if j.queue.isColl then 2 ^ 62 else 0) + j.queue.eng * 2 ^ 56 + j.lclu * 2 ^ 48 + j.epoch * 2 ^ 40 + j.jid)

/-- STATE as a record shows it (R294): a cancelled job is CANCELLED once its begun items have ended, so that a JPOLL that reports it follows every access of
the job (R240, R303, assumption 95). -/
def Job.shown (j : Job) : Nat := if j.st == 5 && !j.items.isEmpty then 1 else j.st

/-- Word 0 of a job's record (R294). -/
def Job.word0 (j : Job) : Word :=
  BitVec.ofNat 64 (j.shown * 2 ^ 61 + j.epoch * 2 ^ 53 + j.fcause * 2 ^ 45 + j.done * 2 ^ 21 + j.nfail)

/-- The 128 bytes of a job's record (R309). -/
def Job.record (j : Job) : Nat :=
  j.word0.toNat + j.flags.toNat * 2 ^ 64 + j.next * 2 ^ 128 + j.ga.toNat * 2 ^ 192 + j.gb.toNat * 2 ^ 256 +
    (j.kind % 16 + j.imm % 2 ^ 19 * 256) * 2 ^ 320 + j.shape.toNat * 2 ^ 512

/-- JSA of a kernel (R308). -/
def Kernel.jsa (k : Kernel) : Nat := lrecField k.lrec 96 8
/-- SAVEA of a kernel (R308). -/
def Kernel.savea (k : Kernel) : Nat := lrecField k.lrec 88 8

/-- Writes a job's record into the job status area (R309, R436); when it cannot be written the job still ends (0x8F), and while its page migrates
the write waits (R393). -/
def Live.putRecord (b : Boot) (l : Live) (id : Nat) : Live :=
  match l.job? id with
  | none => l
  | some j =>
    match l.dev.kernel? j.ctx j.knum with
    | none => l
    | some k =>
      let a := k.jsa + j.lclu * 131072 + j.jid * 128
      let l := l.onJob id fun j => { j with owed := false }
      match l.fwReachAll b j.ctx a true 7 with
      | .fail _ => l.hardRecord b j.ctx 0x8F 5 0 0 (BitVec.ofNat 64 a)
      | .wait => l.onJob id fun j => { j with owed := true }
      | .ok _ => l.fwWrite b j.ctx a j.record 128

/-- Writes the job records that waited for a page (R393, R436). -/
def Live.putOwed (b : Boot) (l : Live) : Live :=
  l.dev.jobs.foldl (fun l e => if e.2.owed then l.putRecord b e.1 else l) l

/-- The jobs that hold an entry of a copy queue (R292). -/
def Dev.copyEntries (d : Dev) (cluster : Nat) : List Job :=
  (d.jobs.filter fun e => e.2.queue == .copy cluster && !e.2.ended && e.2.st != 6).map Prod.snd

/-- A core may take an entry of its cluster's copy queue (R292): 16 entries, and 2 for a core while another core waits. -/
def Dev.copyRoom (d : Dev) (cluster core : Nat) : Bool :=
  let es := d.copyEntries cluster
  let other := d.threads.any fun e => e.1 / 64 != core && (match e.2.st with
    | .parked (.jobSpace q _) => q == cluster
    | _ => false)
  decide (es.length < 16) && (!other || decide ((es.filter fun j => j.core == core).length < 2))

/-- A record of a logical cluster belongs to no job that has not ended (R293). -/
def Dev.recordRoom (d : Dev) (ctx knum lclu : Nat) : Bool :=
  decide ((d.jobs.filter fun e => e.2.ctx == ctx && e.2.knum == knum && e.2.lclu == lclu && !e.2.ended).length < 1024)

/-- A core whose enqueue waits is the first that can be taken after the core taken last, in ascending index order and cyclically (R292). -/
def Dev.copyTurn (d : Dev) (cluster core : Nat) : Bool :=
  let waits := fun (c : Nat) => d.threads.any fun e => e.1 / 64 == c && (match e.2.st with
    | .parked (.jobSpace q lclu) => q == cluster && d.recordRoom e.2.ctx e.2.knum lclu
    | _ => false)
  ((List.range 8).map fun i => cluster * 8 + ((d.cluster cluster).copyPtr + 1 + i) % 8).find? (fun c => d.copyRoom cluster c && waits c) == some core

/-- The job of a kernel with this logical cluster and id. -/
def Live.jobOf (l : Live) (ctx knum lclu jid : Nat) : Option (Nat × Job) :=
  l.dev.jobs.find? fun e => e.2.ctx == ctx && e.2.knum == knum && e.2.lclu == lclu && e.2.jid == jid

/-- Lowest-indexed core of a context in a cluster, whose mailbox takes the misses of its jobs (R385). -/
def Live.missCore (l : Live) (ctx cluster : Nat) : Nat :=
  (((List.range 8).map fun i => cluster * 8 + i).find? fun c => l.coreCtx c == ctx).getD (cluster * 8)

/-- Marks an item as failed with a cause, unless it has failed already (R296). -/
def Job.failItem (j : Job) (idx cause detail : Nat) (addr : Word) : Job :=
  { j with items := j.items.map fun i =>
      if i.idx == idx && i.fail.isNone then { i with fail := some (cause, detail, addr), waiting := false } else i }

/-- Marks every item that has begun as failed, at its destination (R307). -/
def Job.failBegun (j : Job) (cause detail : Nat) : Job :=
  { j with items := j.items.map fun i =>
      if i.fail.isNone then { i with fail := some (cause, detail, i.dst), waiting := false } else i }

/-- A little-endian field of a shape block: n bytes from byte i (R297, R304). -/
def shapeField (sh : BitVec 512) (i n : Nat) : Nat := bitsAt sh.toNat (8 * (i + n) - 1) (8 * i)

/-- A signed 64-bit field of a shape block. -/
def shapeInt (sh : BitVec 512) (i : Nat) : Int := sext (shapeField sh i 8) 64

/-- N0 (R297). -/
def shapeN0 (sh : BitVec 512) : Nat := shapeField sh 0 4
/-- N1 (R297). -/
def shapeN1 (sh : BitVec 512) : Nat := shapeField sh 4 4
/-- N2 (R297). -/
def shapeN2 (sh : BitVec 512) : Nat := shapeField sh 8 4

/-- The destination of an item as issued where it needs no index; for a scatter its base, and for COLL the output block (R297, R305). -/
def plainDst (j : Job) (k : Nat) : Word :=
  let i := k % (Nat.max 1 (shapeN1 j.shape))
  let n := k / (Nat.max 1 (shapeN1 j.shape))
  match j.kind with
  | 1 => j.ga + BitVec.ofInt 64 (Int.ofNat k * shapeInt j.shape 32)
  | 2 => j.ga
  | 4 => j.ga + BitVec.ofNat 64 (128 * k)
  | 5 => j.gb + BitVec.ofNat 64 (512 * k)
  | _ => j.ga + BitVec.ofInt 64 (Int.ofNat i * shapeInt j.shape 32 + Int.ofNat n * shapeInt j.shape 40)

/-- Bytes of an item (R297). -/
def itemBytes (j : Job) : Nat := if j.kind == 4 then 128 else shapeN0 j.shape

/-- The address that the record of an item gives whose page could not be had (R417): its source or its destination, as the page is one of them, else that of
the index that it could not read. -/
def Item.missAddr (i : Item) (n va : Nat) : Word :=
  let on := fun (a : Word) => decide ((va + 2 ^ 48 - a.toNat % 2 ^ 48) % 2 ^ 48 < n)
  if on i.src then i.src else if on i.dst then i.dst else BitVec.ofNat 64 va

/-- An item's request goes, with what it has under way: messages, flits that are not on the fabric, and places in controllers' queues. -/
def Live.dropWork (l : Live) (id : Nat) : Live :=
  ((l.dropMsgs id).dropReq id).map fun d => { d with
    flits := d.flits.filter fun f => f.pos.isSome || !(match f.payload with
      | .burst r _ => r == id
      | _ => false)
    links := { d.links with queues := d.links.queues.map fun e => (e.1, e.2.filter fun q => q.1 != id) } }

/-- Removes the misses that a job's items have posted. -/
def Live.dropJobMisses (l : Live) (id : Nat) : Live :=
  l.map fun d => { d with cores := d.cores.map fun e => if e.2.misses.any fun m => m.job == id then (e.1, { e.2 with misses := e.2.misses.filter fun m => m.job != id }) else e }

/-- The record of a failed item (R296, R417). -/
def itemRecord (b : Boot) (l : Live) (j : Job) (idx cause detail : Nat) (addr : Word) : Record :=
  { cause, src := 3, detail, ctx := j.ctx, knum := j.knum, addr, handle := j.handle, item := idx, phys := j.core / 8,
    owner := j.owner, turn := l.turn b }

/-- Every item of a job has ended or will never start (R295), and a COLL job has sent on what the ring needs (R305). -/
def Job.finished (j : Job) : Bool :=
  j.items.isEmpty && (j.st == 5 || ((j.st == 1 || j.st == 2) && j.waits.isEmpty && decide (j.count ≤ j.done + j.nfail) && (j.ceased || decide (j.ringDue ≤ j.ringIn))))

/-- What a job gives back when it has ended: CPYN its reference on the root name (R301), COLL its circuit once no flit of it is left (R304). -/
def Live.releaseJob (b : Boot) (l : Live) (id : Nat) : Live :=
  match l.job? id with
  | none => l
  | some j =>
    if !j.ended then l
    else if j.kind == 4 && j.name != (0, 0) then
      let name : BitVec 128 := j.name.2 ++ j.name.1
      (l.onJob id fun j => { j with name := (0, 0) }).sendOwn b j.ctx (j.core / 8) (.attic 8 name 0 (BitVec.ofNat 128 id) 0 1 0) (engineDest (homeStack b name)) 1
    else if j.kind == 5 && j.cnum != 0 && !l.dev.flits.any fun f => f.cnum == j.cnum && f.at_.isNone then
      match tfind l.dev.circuits j.cnum with
      | some c => (l.onJob id fun j => { j with cnum := 0 }).sendOwn b j.ctx (192 + j.queue.eng) (.circuit 2 (c.handle j.cnum 0) 0 j.cnum 0 id) (.gateway 1 38) 1
      | none => l.onJob id fun j => { j with cnum := 0 }
    else l

/-- A job that has finished ends: DONE, FAILED, or CANCELLED as it stands (R295); its kernel counts failures (R317). -/
def Live.settleJob (b : Boot) (l : Live) (id : Nat) : Live :=
  match l.job? id with
  | none => l
  | some j =>
    if !j.finished then l
    else
      let st := if j.st == 5 then 5 else if j.nfail = 0 then 3 else 4
      let l := l.onJob id fun j => { j with st }
      let l := if st == 4 then l.map fun d => d.onKernel j.ctx j.knum fun k => { k with jfail := k.jfail + 1 } else l
      (l.putRecord b id).releaseJob b id

/-- An item of a COLL job ends, once (R305): DONE, or failed with a cause and DETAIL, and its record. -/
def Live.collEnd (b : Boot) (l : Live) (id idx : Nat) (fail : Option (Nat × Nat × Word)) : Live :=
  match l.job? id with
  | none => l
  | some j =>
    if j.itemsOver.contains idx || (j.st != 1 && j.st != 2) then l
    else
      let l := match fail with
        | none => l.onJob id fun j => { j with itemsOver := idx :: j.itemsOver, done := j.done + 1 }
        | some (c, det, a) =>
          let l := l.map fun d => d.sendRecord (itemRecord b l j idx c det a)
          l.onJob id fun j => { j with itemsOver := idx :: j.itemsOver, nfail := j.nfail + 1, fcause := if j.fcause == 0 then c else j.fcause }
      (l.putRecord b id).settleJob b id

/-- An item ends: DONE, or failed with its record (R296). -/
def Live.endItem (b : Boot) (l : Live) (id idx : Nat) : Live :=
  match l.job? id with
  | none => l
  | some j =>
    match j.items.find? fun i => i.idx == idx with
    | none => l
    | some i =>
      let l := match i.fail with
        | none => l.onJob id fun j => { j with items := j.items.filter (fun x => x.idx != idx), done := j.done + 1 }
        | some (c, det, a) =>
          let l := l.map fun d => d.sendRecord (itemRecord b l j idx c det a)
          l.onJob id fun j => { j with items := j.items.filter (fun x => x.idx != idx), nfail := j.nfail + 1,
                                       fcause := if j.fcause == 0 then c else j.fcause }
      let l := match i.req with
        | some r => l.dropWork r
        | none => l
      (l.putRecord b id).settleJob b id

/-- Every item of a job that has not ended fails with a cause, in ascending order (R304, R305, R307). -/
def Live.failRest (b : Boot) (l : Live) (id cause detail : Nat) : Live :=
  match l.job? id with
  | none => l
  | some j =>
    if j.kind == 5 then
      (List.range j.count).foldl (fun l i => l.collEnd b id i (some (cause, detail, plainDst j i)))
        (l.onJob id fun j => { j with st := if j.st == 0 then 1 else j.st, ceased := true, items := [] })
    else if j.st == 5 then
      let l := l.onJob id fun j => j.failBegun cause detail
      (j.items.map Item.idx).foldl (fun l i => l.endItem b id i) l
    else
      let begun := j.items.map Item.idx
      let l := l.onJob id fun j => { j.failBegun cause detail with
        items := (j.failBegun cause detail).items ++ ((List.range j.count).drop j.next).map (fun i => { idx := i, fail := some (cause, detail, plainDst j i) }), next := j.count }
      (begun ++ (List.range j.count).drop j.next).foldl (fun l i => l.endItem b id i) l

/-- JCANCEL's effect (R295, R303). -/
def Live.cancelJob (b : Boot) (l : Live) (id : Nat) : Live :=
  let l := (l.onJob id Job.cancel).dropJobMisses id
  (l.putRecord b id).settleJob b id

/-- A job that ends without its items being reported: its context is lost (R340, R345). -/
def Live.killJob (b : Boot) (l : Live) (id : Nat) : Live :=
  let reqs := match l.job? id with
    | some j => j.items.filterMap Item.req
    | none => []
  let l := reqs.foldl Live.dropWork l
  (l.onJob id fun j => if j.st == 3 || j.st == 4 || j.st == 5 then { j with items := [] } else { j with st := 4, items := [], pending := false }).putRecord b id

/-- CHS and CHD of a shape block (R297). -/
def Job.chs (j : Job) : Word := (j.shape.extractLsb' 384 64)
/-- CHD of a shape block (R297). -/
def Job.chd (j : Job) : Word := (j.shape.extractLsb' 448 64)

/-- CNUM of a circuit handle (R277). -/
def handleCnum (h : Word) : Nat := wbits h 31 20
/-- GEN of a circuit handle (R277). -/
def handleGen (h : Word) : Nat := wbits h 55 40

/-- A job uses a circuit (R298, R301, R304). -/
def Job.usesCircuit (j : Job) (cnum gen : Nat) : Bool :=
  if j.kind == 5 then j.cnum == cnum && cnum != 0
  else j.kind ≤ 4 && ((j.chs != 0 && handleCnum j.chs == cnum && handleGen j.chs == gen) ||
    (j.chd != 0 && handleCnum j.chd == cnum && handleGen j.chd == gen))

/-- SF, WF and CLR of an enqueue (R299). -/
def Job.sf (j : Job) : Bool := j.imm % 2 == 1
/-- WF (R299). -/
def Job.wf (j : Job) : Bool := j.imm / 2 % 2 == 1
/-- CLR (R299). -/
def Job.clr (j : Job) : Bool := j.imm / 4 % 2 == 1

end Sys2Proof.Machine
end

