-- ==== Sys2Proof/Machine/Circuit.lean ====
section
/-!
DEFINITION. Circuits: paths, first fit, configuration writes, answers and failure (14_circuit.md, R36 to R38).
-/

namespace Sys2Proof.Machine

/-- The connection manager's node: the router of G1 (R14). -/
def cmNode : Nat := 193

/-- KIND of an endpoint entry (R276). -/
def epKind (e : Word) : Nat := wbits e 55 52
/-- PKG of an endpoint entry (R276). -/
def epPkg (e : Word) : Nat := wbits e 39 32
/-- UNIT of an endpoint entry (R276). -/
def epUnit (e : Word) : Nat := wbits e 31 24
/-- PORT of an endpoint entry (R276). -/
def epPort (e : Word) : Nat := wbits e 23 16

/-- An endpoint entry of a context in a cluster (R276). -/
def Live.endpoint (l : Live) (ctx cluster ep : Nat) : Word := tget (l.dev.ctx ctx).endpoints 0 (cluster * 64 + ep)

/-- Where the path of a circuit to an entry ends on this package (R279, R281, R404); none if no port leads there. -/
def circuitEnd (b : Boot) (l : Live) (src : Nat) (e : Word) : Option Dest :=
  if 128 ≤ epPkg e && epKind e == 3 then
    let p := tget l.dev.links.uepeer (0, 0) (epPkg e - 128)
    if p.1.getLsbD 63 && src ≥ 192 then some (.gateway (src - 192) (35 + wbits p.1 2 0 % 2)) else none
  else if epPkg e != b.pkg then
    match b.routes.find? fun r => r.1 == epPkg e with
    | some r => some (.gateway (r.2 / 9) (26 + r.2 % 9))
    | none => none
  else match epKind e with
    | 0 => some (.cluster (epUnit e))
    | 1 => some (.gateway (epUnit e % 4) (12 + epPort e % 12))
    | 2 => some (.gateway (epUnit e % 4) (24 + epPort e % 2))
    | 3 => some (.gateway (epUnit e % 4) 37)
    | _ => none

/-- The output at which a path to an end leaves its last router. -/
def Dest.port : Dest → Nat
  | .cluster _ => 4
  | .gateway _ p => p

/-- The input at which a circuit enters its first router. -/
def sourcePort (node : Nat) : Nat := if node < 192 then 4 else 37

/-- The hops of a route with their crossing sums (R30). -/
def routeHops (path : List (Nat × Nat)) (x : Nat) : List (Nat × Nat × Nat) :=
  match path with
  | [] => []
  | (n, p) :: rest => (n, p, x) :: routeHops rest (x + crossing n p)

/-- The input at each router of a path. -/
def routeIns (path : List (Nat × Nat)) (first : Nat) : List Nat :=
  match path with
  | [] => []
  | (n, p) :: rest => first :: routeIns rest (backPort n p)

/-- A port at which a path begins or ends can carry circuits: a Treco port can while it is ALIGNED and has not failed (R47, R279). -/
def portUp (l : Live) (node port : Nat) : Bool :=
  !(decide (192 ≤ node) && decide (26 ≤ port) && decide (port ≤ 34)) ||
    (!l.dev.links.failed.contains (node, port) && (tget l.dev.links.trkwhl 0x20000 (9 * (node - 192) + (port - 26))).getLsbD 62)

/-- A route without slots, from its hops between routers, its last output and its first input; none if it crosses a failed link or an absent die. -/
def mkRoute (b : Boot) (l : Live) (path : List (Nat × Nat)) (last lastPort first : Nat) : Option Route :=
  if path.all (fun h => linkOk b l h.1 h.2) && b.hasNode last && portUp l last lastPort && portUp l (path.head?.elim last Prod.fst) first then
    some { hops := routeHops (path ++ [(last, lastPort)]) 0, ins := routeIns (path ++ [(last, lastPort)]) first }
  else none

/-- A candidate for the forward part (R279). -/
def forwardRoute (b : Boot) (l : Live) (src : Nat) (d : Dest) (xFirst : Bool) : Option Route :=
  mkRoute b l (standingRoute (nodeEnd src) none d none xFirst) d.node d.port (sourcePort src)

/-- A candidate for the reverse part, from the endpoint back to the source NI (R280). -/
def reverseRoute (b : Boot) (l : Live) (src : Nat) (d : Dest) (xFirst : Bool) : Option Route :=
  match d with
  | .cluster k => mkRoute b l (meshRoute k src xFirst) src 4 4
  | .gateway g p =>
    let col := exitCol (xOf src) g none
    mkRoute b l ((192 + g, col % 12) :: meshRoute (edgeRow g * 24 + col) src xFirst) src 4 p

/-- A candidate for the reverse part of a far half, from the endpoint to the Treco port at which the circuit arrives (R280, R281). -/
def farReverse (b : Boot) (l : Live) (d : Dest) (port : Nat) (xFirst : Bool) : Option Route :=
  let out : Dest := .gateway (port / 9 % 4) (26 + port % 9)
  mkRoute b l (standingRoute d none out none xFirst) out.node out.port d.port

/-- H + X_H + 1 of a route (R31). -/
def Route.latency (r : Route) : Nat := r.hops.length + ((r.hops.getLast?).map fun h => h.2.2).getD 0

/-- Slot-table cells (router, output, plane, wheel slot) that a set of injection slots occupies on a route (R30). -/
def Route.cells (w : Nat) (r : Route) (slots : List (Nat × Nat)) : List (Nat × Nat × Nat × Nat) :=
  slots.flatMap fun ps => r.hops.zipIdx.map fun h => (h.1.1, h.1.2.1, ps.1, (ps.2 + h.2 + h.1.2.2) % w)

/-- Cells that the circuits own or will own at the switch under way. -/
def Live.usedCells (b : Boot) (l : Live) : List (Nat × Nat × Nat × Nat) :=
  l.dev.circuits.flatMap fun e =>
    let c := e.2
    if c.st == 5 then []
    else
      let f := c.fwd.cells b.wheel c.fwd.slots ++ c.rev.cells b.wheel c.rev.slots
      match c.change with
      | none => f
      | some ch => f ++ c.fwd.cells b.wheel ch.fwd ++ c.rev.cells b.wheel ch.rev

/-- What the passing of turns and of service periods charges to owners (R348): SLOTTURN for every cell that a circuit owns, WINPER for every
access window owned. -/
def Dev.timeUsage (b : Boot) (d : Dev) (turns periods : Nat) : Table Word :=
  let u := d.circuits.foldl (fun u e =>
    let c := e.2
    if c.st == 5 || 4096 ≤ e.1 then u
    else addUsage u (d.ctx c.ctx).owner 6 (turns * ((c.fwd.cells b.wheel c.fwd.slots).length + (c.rev.cells b.wheel c.rev.slots).length))) d.usage
  d.links.windows.foldl (fun u e => if e.2 = 0 then u else addUsage u (d.ctx e.2).owner 7 periods) u

/-- Wheel slots pass (R26), once the wheel has started (R33). -/
def Live.passSlots (b : Boot) (l : Live) (n : Nat) : Live :=
  if !b.whldesc.getLsbD 63 then l
  else l.map fun d =>
    let a := d.slots
    { d with slots := a + n, usage := d.timeUsage b ((a + n) / b.wheel - a / b.wheel) ((a + n) / 256 - a / 256) }

/-- Time is at least the start of an absolute slot: an event that falls there has come. -/
def Live.reachSlot (b : Boot) (l : Live) (a : Nat) : Live := l.passSlots b (a - l.dev.slots)

/-- Time is at least the start of a wheel slot of a turn. -/
def Live.reachTime (b : Boot) (l : Live) (turn slot : Nat) : Live := l.reachSlot b (turn * b.wheel + slot)

/-- A wheel slot of plane 0 is reserved (R34, R35). -/
def Boot.reserved (b : Boot) (s : Nat) : Bool :=
  s == wbits b.whldesc 14 5 ||
    (List.range (wbits b.whldesc 41 35)).any fun i => (wbits b.whldesc 24 15 + i * wbits b.whldesc 34 25) % b.wheel == s

/-- A router-to-router output (R35). -/
def routerOutput (node port : Nat) : Bool := if node < 192 then port < 4 else port < 12 || (26 ≤ port && port ≤ 34)

/-- The test of the first-fit rule for one injection slot (R279). -/
def slotFits (b : Boot) (used : List (Nat × Nat × Nat × Nat)) (r : Route) (p s : Nat) : Bool :=
  (r.cells b.wheel [(p, s)]).all fun c =>
    !used.contains c && !(p == 0 && routerOutput c.1 c.2.1 && b.reserved c.2.2.2)

/-- First fit from slot 0 upwards over the planes in order (R279). -/
def fitPlain (b : Boot) (used : List (Nat × Nat × Nat × Nat)) (r : Route) (n : Nat) (planes : List Nat) (have_ : List (Nat × Nat)) :
    List (Nat × Nat) :=
  planes.foldl (fun acc p => (List.range b.wheel).foldl (fun acc s =>
    if acc.length < n && !acc.contains (p, s) && slotFits b (used ++ r.cells b.wheel acc) r p s then acc ++ [(p, s)] else acc) acc) have_

/-- First fit with EVEN: each slot is sought from its own target, plane by plane (R279). -/
def fitEven (b : Boot) (used : List (Nat × Nat × Nat × Nat)) (r : Route) (n : Nat) (planes : List Nat) (have_ : List (Nat × Nat)) :
    Nat → List (Nat × Nat)
  | 0 => have_
  | fuel + 1 =>
    match planes with
    | [] => have_
    | p :: rest =>
      if n ≤ have_.length then have_
      else
        let t := have_.length * b.wheel / n
        match (List.range b.wheel).find? fun i =>
            !have_.contains (p, (t + i) % b.wheel) && slotFits b (used ++ r.cells b.wheel have_) r p ((t + i) % b.wheel) with
        | some i => fitEven b used r n (p :: rest) (have_ ++ [(p, (t + i) % b.wheel)]) fuel
        | none => fitEven b used r n rest have_ fuel

/-- The slots the first-fit rule gives; fewer than asked when there are not enough (R279). -/
def firstFit (b : Boot) (used : List (Nat × Nat × Nat × Nat)) (r : Route) (n : Nat) (planes : List Nat) (even : Bool)
    (have_ : List (Nat × Nat)) : List (Nat × Nat) :=
  if even then fitEven b used r n planes have_ (n + 9) else fitPlain b used r n planes have_

/-- The planes a mask allows, ascending; 0 allows all (R289). -/
def planesOf (mask : Nat) : List Nat := (List.range 8).filter fun p => mask == 0 || mask / 2 ^ p % 2 == 1

/-- The largest cyclic gap between injection slots (R32, R282). -/
def maxGap (w : Nat) (slots : List (Nat × Nat)) : Nat :=
  let on := slots.map Prod.snd
  on.foldl (fun g s =>
    let next := ((List.range w).find? fun i => on.contains ((s + i + 1) % w)).getD (w - 1)
    Nat.max g (next + 1)) 0

/-- MAXLAT admits a part (R282). -/
def latencyOk (w maxlat : Nat) (r : Route) (slots : List (Nat × Nat)) (far : Nat) : Bool :=
  maxlat == 0 || maxGap w slots + r.latency + far ≤ maxlat

/-- N, the access windows of a period at a rate point (R43). -/
def windowCount (rate : Nat) : Nat := if rate = 0 then 88 else if rate = 1 then 70 else 56

/-- The present HBM4 rate point (R408). -/
def Live.rate (_b : Boot) (l : Live) : Nat := wbits l.dev.links.hbmrate 17 16

/-- Windows below this number may be assigned: the lower rate point's count while a switch is under way (R409). -/
def Live.windowLimit (b : Boot) (l : Live) : Nat :=
  match l.dev.links.rateTo with
  | none => windowCount (l.rate b)
  | some r => Nat.min (windowCount (l.rate b)) (windowCount r)

/-- Owner of an access window; 0 for none (R44). -/
def Live.windowOwner (l : Live) (pc win : Nat) : Nat := tget l.dev.links.windows 0 (pc * 128 + win)

/-- Windows that circuits hold or will hold. -/
def Live.claimedWins (l : Live) : List (Nat × Nat) :=
  l.dev.circuits.flatMap fun e => if e.2.st == 5 then [] else e.2.wins ++ ((e.2.change.map Change.wins).getD [])

/-- The pseudo-channels behind an HBM4 port: 64 × stack + number (R28). -/
def portPcs (g port : Nat) : List Nat :=
  (List.range 16).map fun i => 64 * (3 * g + (port - 12) / 4) + 16 * ((port - 12) % 4) + i

/-- Windows for each pseudo-channel of a port: the lowest-numbered free ones up to n, those already held first (R280, R286). -/
def Live.pickWins (b : Boot) (l : Live) (pcs : List Nat) (n : Nat) (held : List (Nat × Nat)) : List (Nat × Nat) :=
  let claimed := l.claimedWins
  pcs.flatMap fun pc =>
    let mine := (List.range 128).filter fun i => held.contains (pc, i)
    let free := (List.range (l.windowLimit b)).filter fun i =>
      !mine.contains i && l.windowOwner pc i == 0 && !claimed.contains (pc, i)
    ((mine.take n) ++ free.take (n - mine.length)).map fun i => (pc, i)

/-- A plan for a circuit: routes, slots and windows. -/
structure Plan where
  fwd : Route
  rev : Route
  fslots : List (Nat × Nat)
  rslots : List (Nat × Nat)
  wins : List (Nat × Nat)
deriving DecidableEq, Repr

/-- Plans one part over candidate routes: the first that gives enough slots and meets MAXLAT. The error is RES 2 if some candidate has enough slots, else 1
if there is a candidate, else 3 (R288). -/
def planPart (b : Boot) (used : List (Nat × Nat × Nat × Nat)) (routes : List (Option Route)) (n : Nat) (planes : List Nat) (even : Bool)
    (maxlat far : Nat) (res : Nat) : Except Nat (Route × List (Nat × Nat)) :=
  match routes with
  | [] => .error res
  | none :: rest => planPart b used rest n planes even maxlat far res
  | some r :: rest =>
    let s := firstFit b used r n planes even []
    if s.length < n then planPart b used rest n planes even maxlat far (if res == 2 then 2 else 1)
    else if latencyOk b.wheel maxlat r s far then .ok (r, s)
    else planPart b used rest n planes even maxlat far 2

/-- The planes a circuit may use: those asked for, and on a Treco port plane 0 and the port's second plane (R279, R401). -/
def Live.allowedPlanes (l : Live) (d : Dest) (mask : Nat) : List Nat :=
  match d with
  | .gateway g p =>
    if 26 ≤ p && p ≤ 34 then
      let q := wbits (tget l.dev.links.trkctl (1#64 <<< 48) (9 * g + (p - 26))) 51 48
      (planesOf mask).filter fun x => x == 0 || x == q
    else planesOf mask
  | .cluster _ => planesOf mask

/-- Plans a circuit (R279, R280, R282). -/
def planCircuit (b : Boot) (l : Live) (src : Nat) (d : Dest) (n planes : Nat) (even duplex : Bool) (maxlat nwin : Nat) : Except Nat Plan :=
  let used := l.usedCells b
  let ps := l.allowedPlanes d planes
  match planPart b used [forwardRoute b l src d true, forwardRoute b l src d false] n ps even maxlat 0 3 with
  | .error e => .error e
  | .ok (f, fs) =>
    let wins := match d with
      | .gateway g p => if 12 ≤ p && p < 24 then l.pickWins b (portPcs g p) nwin [] else []
      | .cluster _ => []
    let short := match d with
      | .gateway _ p => 12 ≤ p && p < 24 && wins.length < 16 * nwin
      | .cluster _ => false
    if short then .error 7
    else if !duplex then .ok ⟨f, {}, fs, [], wins⟩
    else match planPart b (used ++ f.cells b.wheel fs) [reverseRoute b l src d false, reverseRoute b l src d true] n ps even maxlat 0 3 with
      | .error e => .error e
      | .ok (r, rs) => .ok ⟨f, r, fs, rs, wins⟩

/-- The slot-table key of a cell (R27). -/
def cellKey (c : Nat × Nat × Nat × Nat) : Nat := ((c.1 * 64 + c.2.1) * 8 + c.2.2.1) * 1024 + c.2.2.2

/-- The circuit of a number. -/
def Live.circuit (l : Live) (n : Nat) : Circuit := tget l.dev.circuits {} n

/-- Changes a circuit. -/
def Live.onCircuit (l : Live) (n : Nat) (f : Circuit → Circuit) : Live :=
  l.map fun d => { d with circuits := tput d.circuits n (f (tget d.circuits {} n)) }

/-- Entry writes with the input code they carry: cells of a route for some slots. -/
def Route.writes (w : Nat) (r : Route) (slots : List (Nat × Nat)) (on : Bool) : List (Nat × Nat × Nat × Nat × Byte) :=
  slots.flatMap fun ps => (r.hops.zip r.ins).zipIdx.map fun h =>
    (h.1.1.1, h.1.1.2.1, ps.1, (ps.2 + h.2 + h.1.1.2.2) % w, if on then BitVec.ofNat 8 (128 + h.1.2) else 0)

/-- A list cut into pieces of n. -/
def chunks {α : Type} (n : Nat) (l : List α) : Nat → List (List α)
  | 0 => []
  | fuel + 1 => if l.isEmpty then [] else l.take n :: chunks n (l.drop n) fuel

/-- A configuration flit starts at a node; it crosses its first link in the configuration wheel slot of a turn, at the earliest (R36, R37). -/
def Live.sendCfg (l : Live) (cnum from_ dst turn : Nat) (k : CfgKind) : Live :=
  let n := l.newId
  n.2.map fun d => { d with cfg := d.cfg ++ [{ id := n.1, cnum, at_ := from_, dest := dst, kind := k, turn }] }

/-- The turn of the next configuration wheel slot, in which flits of the connection manager leave its port (R37). -/
def Live.cfgTurn (b : Boot) (l : Live) : Nat := (l.dev.slots + (b.wheel - 1 - wbits b.whldesc 14 5)) / b.wheel

/-- The gateway router of a pseudo-channel. -/
def pcNode (pc : Nat) : Nat := 192 + pc / 64 / 3

/-- Changes a circuit's change under way. -/
def Live.onChange (l : Live) (n : Nat) (f : Change → Change) : Live := l.onCircuit n fun c => { c with change := c.change.map f }

/-- The writes of a circuit's change leave for every router that takes part, up to 11 to a flit; each flit is to be acknowledged (R36, R37). -/
def Live.sendWrites (b : Boot) (l : Live) (n : Nat) (ws : List (Nat × Nat × Nat × Nat × Byte)) (ww : List (Nat × Nat × Nat)) : Live :=
  ((ws.map fun x => x.1) ++ ww.map fun x => pcNode x.1).foldl sinsert [] |>.foldl (fun l r =>
    let mine := ws.filter fun x => x.1 == r
    let mw := ww.filter fun x => pcNode x.1 == r
    let flits := (chunks 11 mine (mine.length + 1)).map (fun k => CfgKind.writes k []) ++ (chunks 11 mw (mw.length + 1)).map (fun k => CfgKind.writes [] k)
    flits.foldl (fun l k => (l.sendCfg n cmNode r (l.cfgTurn b + 1) k).onChange n fun ch => { ch with waiting := ch.waiting ++ [r] })
      (l.onChange n fun ch => { ch with routers := sinsert ch.routers r })) l

/-- Starts a change of a circuit to the slots and windows given (R36, R37). -/
def Live.startChange (b : Boot) (l : Live) (n : Nat) (fs rs wins : List (Nat × Nat)) (close : Bool) : Live :=
  let c := l.circuit n
  let w := b.wheel
  let diff := fun (a z : List (Nat × Nat)) => a.filter fun x => !z.contains x
  let ws := c.fwd.writes w (diff fs c.fwd.slots) true ++ c.rev.writes w (diff rs c.rev.slots) true ++
    c.fwd.writes w (diff c.fwd.slots fs) false ++ c.rev.writes w (diff c.rev.slots rs) false
  let ww := (diff wins c.wins).map (fun x => (x.1, x.2, c.ctx)) ++ (diff c.wins wins).map (fun x => (x.1, x.2, 0))
  (l.onCircuit n fun c => { c with change := some { fwd := fs, rev := rs, wins, routers := [], waiting := [], turn := none, close } }).sendWrites b n ws ww

/-- A circuit's handle (R277). -/
def circuitHandle (n : Nat) (c : Circuit) (res : Nat) : Word := c.handle n res

/-- The connection manager answers a request (R278, R289): out2 is the word for the register. -/
def Live.answerCm (b : Boot) (l : Live) (req : Nat) (v : Word) : Live :=
  match l.req? req with
  | none => l
  | some r =>
    let l := l.onReq req fun r => { r with out := v, stage := .back }
    l.send b r.ctx req true (.gateway 1 38) none (nodeEnd r.src) none 1

/-- A record returns to FREE and its GEN increments (R277). -/
def Live.freeCircuit (l : Live) (n : Nat) : Live :=
  let l := l.onCircuit n fun c => { gen := (c.gen + 1) % 65536 }
  l.map fun d => { d with copies := tdel d.copies n }

/-- The registers of a router (R291). -/
def Live.onRtrstat (l : Live) (node : Nat) (f : Word → Word) : Live :=
  l.map fun d => { d with links := { d.links with rtrstat := tset d.links.rtrstat 0 node (f (tget d.links.rtrstat 0 node)) } }

/-- Adds one to a saturating counter field. -/
def bumpField (w : Word) (lo n : Nat) : Word :=
  let v := wbits w (lo + n - 1) lo
  if v + 1 < 2 ^ n then setBits w lo n (v + 1) else w

/-- Injection on a circuit stops and its NI's copy shows its state (R289, R290). -/
def Live.copyState (l : Live) (n st fcause : Nat) : Live :=
  l.map fun d => match tfind d.copies n with
    | none => d
    | some c => { d with copies := tput d.copies n { c with st, fcause } }

/-- A flit still waits at the NI at which it enters its circuit. -/
def Flit.waits (f : Flit) : Bool := f.pos.isNone && f.at_.isNone

/-- The flits of a circuit that wait at a source NI are not injected (R290). -/
def Live.dropFlits (l : Live) (n : Nat) : Live := l.map fun d => { d with flits := d.flits.filter fun f => !(f.cnum == n && f.waits) }

/-- A number of flits of a payload wait at the NI at which a part of a circuit begins. -/
def Live.queueFlits (l : Live) (cnum : Nat) (rev : Bool) (payload : Payload) : Nat → Live
  | 0 => l
  | n + 1 =>
    let r := l.newId
    (r.2.map fun d => { d with flits := d.flits ++ [{ id := r.1, cnum, rev, payload, ready := d.slots }] }).queueFlits cnum rev payload n

/-- Flits of a relay message that carries bytes of a copy item's piece: 56 bytes a flit, 24 of them for what the piece says beside its data, so that 144 bytes
take 3 (R39, assumption 47). -/
def pieceFlits (n : Nat) : Nat := (n + 24 + 55) / 56

/-- The bytes of parts. -/
def partBytes (ps : List Part) : Nat := (ps.map Part.n).sum

/-- The parts of a request that one piece or burst carries. -/
def Req.group (r : Req) (g : Nat) : List Part := r.parts.filter fun p => p.grp == g

/-- A piece or burst of a copy item sets out for its home (R39, R298): a read asks, a write brings its data. -/
def Live.setOut (b : Boot) (l : Live) (r : Req) (g : Nat) : Live :=
  match r.group g with
  | [] => l
  | p :: ps =>
    let n := partBytes (p :: ps)
    let l := l.onParts r.id (fun q => q.grp == g) fun q => { q with leg := 2 }
    if p.cnum != 0 then l.queueFlits p.cnum false (.burst r.id g) (1 + if p.write then (n + 63) / 64 else 0)
    else match paHome b p.pa with
      | some h => l.send b r.ctx r.id false (nodeEnd r.src) none h.dest (h.via b) (if p.write then pieceFlits n else 1) g
      | none => l

/-- The data or the acknowledgement of a piece goes back by the reverse part of its circuit: data always, an acknowledgement when the circuit is duplex
(R298). -/
def Live.backByCircuit (l : Live) (p : Part) : Bool := p.cnum != 0 && (!p.write || (l.circuit p.cnum).duplex)

/-- Once every part of a piece or burst at its home has been performed or has failed, the home sends the data or the acknowledgement (R298). -/
def Live.replyGroup (b : Boot) (l : Live) (id g : Nat) : Live :=
  match l.req? id with
  | none => l
  | some r =>
    match r.group g with
    | [] => l
    | p :: ps =>
      if g = 0 || !(p :: ps).all fun q => q.done && q.leg == 3 then l
      else
        let l := l.onParts id (fun q => q.grp == g) fun q => { q with leg := 4 }
        let n := if p.write || (p :: ps).any Part.bad then 0 else partBytes (p :: ps)
        if l.backByCircuit p then l.queueFlits p.cnum true (.burst id g) (Nat.max 1 ((n + 63) / 64))
        else match paHome b p.pa with
          | some h => l.send b r.ctx id true h.dest (h.via b) (nodeEnd r.src) none (if n = 0 then 1 else pieceFlits n) g
          | none => l

/-- The flits of a burst, out or back. -/
def Live.burstFlits (l : Live) (id g : Nat) (rev : Bool) : List Flit :=
  l.dev.flits.filter fun f => f.payload == .burst id g && f.rev == rev

/-- A piece or burst has come to its home, or its data or acknowledgement to the copy unit. -/
def Live.groupCame (l : Live) (id : Nat) (p : Part) (back : Bool) : Bool :=
  if (if back then l.backByCircuit p else p.cnum != 0) then
    !(l.burstFlits id p.grp back).isEmpty && (l.burstFlits id p.grp back).all fun f => f.at_.isSome
  else (l.atEndOf id p.grp back false).isSome

/-- A piece or burst that has come is taken: by its home, or by the copy unit that waits for it. A flit marked bad fails its parts with the link-integrity
cause, and nothing of it is written (R399). -/
def Live.takeGroup (l : Live) (id : Nat) (p : Part) (back : Bool) : Live :=
  let fs := l.burstFlits id p.grp back
  let bad := fs.any Flit.bad
  let l := match (if fs.isEmpty then l.atEndOf id p.grp back false else none) with
    | some m => l.takeMsg m
    | none => l.map fun d => { d with flits := d.flits.filter fun f => !(f.payload == Payload.burst id p.grp && f.rev == back) }
  let l := l.onParts id (fun q => q.grp == p.grp) fun q => { q with leg := if back then 0 else 3, done := q.done || bad, bad := q.bad || bad }
  if bad then l.onReq id fun r => { r with fail := some (r.fail.getD (0xC6, 0, false)) } else l

/-- A list and what another has beyond it. -/
def joinSlots (a z : List (Nat × Nat)) : List (Nat × Nat) := a ++ z.filter fun x => !a.contains x

/-- The entries and windows of a circuit whose record is released or which has failed are brought to the given sets through the configuration class,
by a record of its own beyond the 4,095 that a handle can name (R278, assumption 22): what the circuit owned and what its change under way wrote. -/
def Live.giveBack (b : Boot) (l : Live) (n : Nat) (fs rs wins : List (Nat × Nat)) : Live :=
  let c := l.circuit n
  let new := fun (f : Change → List (Nat × Nat)) => (c.change.map f).getD []
  let g : Circuit := { c with st := 4, answer := none, peer := none, other := none, change := none, wins := joinSlots c.wins (new Change.wins)
                              fwd := { c.fwd with slots := joinSlots c.fwd.slots (new Change.fwd) }
                              rev := { c.rev with slots := joinSlots c.rev.slots (new Change.rev) } }
  if c.change.isNone && g.fwd.slots == fs && g.rev.slots == rs && g.wins == wins then l
  else
    let id := l.newId
    let k := 4096 + id.1
    let l := id.2.map fun d => { d with circuits := tput d.circuits k g, cfg := d.cfg.map fun m => if m.cnum == n then { m with cnum := k } else m }
    (l.startChange b k fs rs wins true).onChange k fun ch => { ch with stopped := true, waiting := ((c.change.map Change.waiting).getD []) ++ ch.waiting }

/-- A message to the peer connection manager that has the other half of a circuit, if it is known (R281). -/
def Live.tellPeer (l : Live) (n : Nat) (k : PeerKind) : Live :=
  match (l.circuit n).other with
  | none => l
  | some o => l.map fun d => { d with out := d.out ++ [.peer o.1 o.2.1 k] }

/-- A circuit's record is released: its entries go by a change of their own, and the peer withdraws the other half (R278, R281, R283). -/
def Live.releaseCircuit (b : Boot) (l : Live) (n : Nat) : Live := ((l.tellPeer n (.close true)).giveBack b n [] [] []).freeCircuit n

/-- The jobs that use a circuit lose the items that have not completed (R307). -/
def Live.failCircuitJobs (b : Boot) (l : Live) (n gen cause : Nat) : Live :=
  l.dev.jobs.foldl (fun l e =>
    if e.2.usesCircuit n gen && (e.2.st == 1 || e.2.st == 2 || !e.2.items.isEmpty) then
      if e.2.kind == 5 || e.2.kind == 3 then l.failRest b e.1 cause 0
      else
        let l := l.onJob e.1 fun j => j.failBegun cause 0
        (e.2.items.map Item.idx).foldl (fun l i => l.endItem b e.1 i) l
    else l) l

/-- Answers the request that waits for a circuit's change: an opened circuit gets a handle, a resize or close its RES. -/
def Live.answerChange (b : Boot) (l : Live) (n res : Nat) (valid : Bool) : Live :=
  let c := l.circuit n
  match c.answer with
  | none => l
  | some req =>
    let l := l.onCircuit n fun c => { c with answer := none }
    match l.req? req with
    | none => l
    | some r =>
      match r.kind with
      | .circuit op a _ _ _ _ =>
        if op == 0 || op == 9 then
          l.answerCm b req (if valid then circuitHandle n c 0 else BitVec.ofNat 64 (res * 2 ^ 59))
        else l.answerCm b req (setBits (setBits a 59 4 res) 63 1 (if op == 2 then 0 else 1))
      | _ => l

/-- A circuit fails with an FCAUSE (R283, R290, R48): FAILED, released when it was draining, or its plan withdrawn. The slots of a failed circuit stay
owned; a resize that was under way is undone. The other half of a circuit between packages fails with it (assumption 1). -/
def Live.failCircuit (b : Boot) (l : Live) (n fcause : Nat) : Live :=
  let c := l.circuit n
  if c.st == 5 || c.st == 6 || 4096 ≤ n then l
  else if c.st == 0 || c.st == 1 then (l.answerChange b n 3 false).releaseCircuit b n
  else
    let l := (l.dropFlits n).tellPeer n (.failed fcause)
    let l := l.answerChange b n 3 false
    let l := if c.isFar then l else l.map fun d => d.sendRecord
      { cause := 0xC0 + fcause, src := 4, ctx := c.ctx, handle := circuitHandle n c 0, item := c.ep + fcause * 256,
        phys := c.src, owner := (d.ctx c.ctx).owner, turn := l.turn b }
    let l := l.failCircuitJobs b n c.gen (0xC0 + fcause)
    if c.st == 4 then l.releaseCircuit b n
    else
      let l := if c.change.isSome then l.giveBack b n c.fwd.slots c.rev.slots c.wins else l
      (l.onCircuit n fun c => { c with st := 6, fcause, change := none, peer := none }).copyState n 6 fcause

/-- A circuit's path, or its plan, crosses a link: either direction of it, or the Treco port by which it comes in (R290). -/
def Circuit.crosses (c : Circuit) (node port : Nat) : Bool :=
  let on := fun (r : Route) => (r.hops.any fun h =>
    (h.1 == node && h.2.1 == port) || (match farEnd node port with
      | some m => h.1 == m && h.2.1 == backPort node port
      | none => false)) || (26 ≤ port && r.ins.head? == some port && (r.hops.head?.map Prod.fst) == some node)
  c.st != 5 && (on c.fwd || on c.rev)

/-- A link fails (R290): from the next turn it carries nothing, its circuits fail, every message queued towards it is drained and reported, by a route
that avoids the link, and other routes wait for firmware. -/
def Live.failLink (b : Boot) (l : Live) (node port fcause : Nat) : Live :=
  if l.dev.links.failed.contains (node, port) then l
  else
    let far := farEnd node port
    let ends := (node, port) :: (match far with
      | some m => [(m, backPort node port)]
      | none => [])
    let t := l.turn b + 1
    let l := l.map fun d => { d with links := { d.links with
      failed := d.links.failed ++ ends, failedFrom := ends.foldl (fun t' h => tput t' (h.1 * 64 + h.2) t) d.links.failedFrom } }
    let l := l.dev.circuits.foldl (fun l e => if e.2.crosses node port then l.failCircuit b e.1 fcause else l) l
    let queued := l.dev.msgs.filter fun m => match m.path.head? with
      | some h => ends.contains h
      | none => false
    let tables := l.dev.links.routed
    let route := fun (l : Live) (r : List (Nat × Nat)) => l.map fun d => { d with links := { d.links with routed := r } }
    route (queued.foldl (fun l m => l.failMsg b m) (route l l.dev.links.failed)) tables

end Sys2Proof.Machine
end

