-- ==== Sys2Proof/Machine/Link.lean ====
section
/-!
DEFINITION. Links, ports, HBM4 rate points and their monitors: shared operations and the meanings of their steps (22_link.md, R43 to R48).
-/

namespace Sys2Proof.Machine

/-- Changes the link state. -/
def Live.onLinks (l : Live) (f : Links → Links) : Live := l.map fun d => { d with links := f d.links }

/-- LNKSTAT of a UCIe link (R400). -/
def Live.lnkstat (l : Live) (i : Nat) : Word := tget l.dev.links.lnkstat 0x0000000400000000 i
/-- TRKWHL of a Treco port (R47). -/
def Live.trkwhl (l : Live) (p : Nat) : Word := tget l.dev.links.trkwhl 0x0000000000020000 p
/-- TRKCTL of a Treco port (R402). -/
def Live.trkctl (l : Live) (p : Nat) : Word := tget l.dev.links.trkctl 0x0001000000000000 p
/-- LPSTAT of a channel (R412). -/
def Live.lpstat (l : Live) (k : Nat) : Word := tget l.dev.links.lpstat 0 k
/-- UESTAT of a port (R405). -/
def Live.uestat (l : Live) (q : Nat) : Word := tget l.dev.links.uestat 0 q
/-- An eye monitor (R410). -/
def Live.eye (l : Live) (n : Nat) : Word := tget l.dev.links.eyes 0x00200A00FF0000FF n

/-- Writes LNKSTAT. -/
def Live.setLnkstat (l : Live) (i : Nat) (v : Word) : Live := l.onLinks fun k => { k with lnkstat := tput k.lnkstat i v }
/-- Writes TRKWHL. -/
def Live.setTrkwhl (l : Live) (p : Nat) (v : Word) : Live := l.onLinks fun k => { k with trkwhl := tput k.trkwhl p v }
/-- Writes TRKCTL. -/
def Live.setTrkctl (l : Live) (p : Nat) (v : Word) : Live := l.onLinks fun k => { k with trkctl := tput k.trkctl p v }
/-- Writes LPSTAT. -/
def Live.setLpstat (l : Live) (c : Nat) (v : Word) : Live := l.onLinks fun k => { k with lpstat := tput k.lpstat c v }
/-- Writes UESTAT. -/
def Live.setUestat (l : Live) (q : Nat) (v : Word) : Live := l.onLinks fun k => { k with uestat := tput k.uestat q v }

/-- The relay link of a Treco port (R28). -/
def trecoLink (p : Nat) : Nat × Nat := (192 + p / 9, 26 + p % 9)

/-- TRKCTL.STATE (R402). -/
def Live.trecoState (l : Live) (p : Nat) : Nat := wbits (l.trkctl p) 63 60

/-- A Treco port stops carrying traffic and enters a state (R48, R403): its circuits fail with an FCAUSE. -/
def Live.stopTreco (b : Boot) (l : Live) (p st fcause : Nat) (slip : Bool) : Live :=
  let l := l.setTrkwhl p (setBits (if slip then setBits (l.trkwhl p) 63 1 1 else l.trkwhl p) 62 1 0)
  let l := l.setTrkctl p (setBits (l.trkctl p) 60 4 st)
  l.failLink b (trecoLink p).1 (trecoLink p).2 fcause

/-- GUARD as the port uses it (R47). -/
def guardOf (trkwhl : Word) : Nat :=
  let g := wbits trkwhl 23 16
  if 1 ≤ g && g ≤ 15 then g else 15

/-- PTP_EXCHANGE (R48): SKEWNOW is compared with the limit, and a slip stops the link. -/
def execPtpExchange (port : Nat) (skew : BitVec 16) (s : State) : Host.Outcome State Fault Refusal :=
  event s fun b l =>
    let w := setBits (l.trkwhl port) 40 16 skew.toNat
    let l := l.setTrkwhl port w
    if w.getLsbD 62 && decide (skew.toInt.natAbs > wbits w 39 24 + guardOf w * 625) then l.stopTreco b port 4 2 true else l

/-- IEEE_1588_LOST (R424, 0xD6): the port is handled as slipped. -/
def execIeee1588Lost (port : Nat) (s : State) : Host.Outcome State Fault Refusal :=
  event s fun b l =>
    let l := l.hardRecord b 0 0xD6 5 0 port 0
    if (l.trkwhl port).getLsbD 62 then l.stopTreco b port 4 2 true else l

/-- RETRAIN (R402, R403): training starts from any state; an aligned port's circuits fail first. -/
def Live.retrain (b : Boot) (l : Live) (p : Nat) : Live :=
  let l := if l.trecoState p == 3 then l.stopTreco b p 3 1 false else l
  (l.setTrkctl p (setBits (l.trkctl p) 60 4 1)).setTrkwhl p (setBits (l.trkwhl p) 62 1 0)

/-- TRECO_RETRAIN (R402). -/
def execTrecoRetrain (port : Nat) (s : State) : Host.Outcome State Fault Refusal := event s fun b l => l.retrain b port

/-- TRECO_TRAINED (R403). -/
def execTrecoTrained (port : Nat) (lanesUp descOk : Bool) (peerPkg peerPort : Nat) (s : State) : Host.Outcome State Fault Refusal :=
  event s fun b l =>
    if l.trecoState port != 1 then l
    else if !lanesUp then (l.setTrkctl port (setBits (l.trkctl port) 60 4 5)).hardRecord b 0 0xCA 5 0 port 0
    else if !descOk then (l.setTrkctl port (setBits (l.trkctl port) 60 4 5)).hardRecord b 0 0xCB 5 0 port 0
    else l.setTrkctl port (setBits (setBits (setBits (l.trkctl port) 60 4 2) 40 8 peerPkg) 32 8 peerPort)

/-- TRECO_ALIGN (R47, R403): OFFSET from the worst transit, SKEWMAX and the guard; too large an OFFSET or another PLANE keeps MEASURING. -/
def execTrecoAlign (port : Nat) (skewMax : BitVec 16) (peerPlane peerGuard : Nat) (s : State) : Host.Outcome State Fault Refusal :=
  event s fun b l =>
    if l.trecoState port != 2 then l
    else
      let w := setBits (l.trkwhl port) 24 16 skewMax.toNat
      let l := l.setTrkwhl port w
      let off := (Config.worstTransit port + skewMax.toNat + 624) / 625 + Nat.max (guardOf w) peerGuard
      if wbits (l.trkctl port) 51 48 != peerPlane then l
      else if 1023 < off then l.hardRecord b 0 0xCC 5 0 port 0
      else
        let l := l.setTrkwhl port (setBits (setBits w 0 10 off) 62 1 1)
        let l := l.setTrkctl port (setBits (l.trkctl port) 60 4 3)
        let h := trecoLink port
        l.onLinks fun k => { k with failed := k.failed.filter fun x => x != h, failedFrom := tdel k.failedFrom (h.1 * 64 + h.2) }

/-- TRECO_LANE_FAIL (R401, R403). -/
def execTrecoLaneFail (port : Nat) (s : State) : Host.Outcome State Fault Refusal :=
  event s fun b l =>
    let l := l.hardRecord b 0 0xCA 5 0 port 0
    if l.trecoState port == 3 then l.stopTreco b port 5 1 false
    else if l.trecoState port == 1 then l.setTrkctl port (setBits (l.trkctl port) 60 4 5)
    else l

/-- The router links of a UCIe link (R396). -/
def ucieLinks (i : Nat) : List (Nat × Nat) :=
  if i < 6 then
    let x := 6 * (i % 3) + 5
    let y := i / 3 * 4
    (List.range 4).map fun r => ((y + r) * 24 + x, 1)
  else if i < 10 then (List.range 6).map fun r => (3 * 24 + 6 * (i - 6) + r, 2)
  else
    let c := i - 10
    (List.range 6).map fun r => if c < 4 then (6 * c + r, 0) else (7 * 24 + 6 * (c - 4) + r, 2)

/-- A UCIe link fails (R290, R398). -/
def Live.failUcie (b : Boot) (l : Live) (i fcause : Nat) : Live :=
  let l := l.setLnkstat i (setBits (l.lnkstat i) 60 4 2)
  (ucieLinks i).foldl (fun l h => l.failLink b h.1 h.2 fcause) l

/-- LANE_ERROR_THRESHOLD (R398): on a link that is UP, a repair is agreed, or with no spare lane left the link fails (0xC9). The lane is numbered within its link
as in R410. -/
def execLaneErrorThreshold (link lane : Nat) (s : State) : Host.Outcome State Fault Refusal :=
  event s fun b l =>
    let k := link * 64 + lane / 128
    if wbits (l.lnkstat link) 63 60 != 1 then l
    else
    let used := tget l.dev.links.repairs 0 k + tget l.dev.links.repairs 0 (4096 + k)
    if used < 4 then l.onLinks fun x => { x with repairs := tput x.repairs (4096 + k) (tget x.repairs 0 (4096 + k) + 1) }
    else (l.failUcie b link 1).hardRecord b 0 0xC9 5 0 link 0

/-- LANE_REPAIR_APPLY (R398, R400): at a turn that is a multiple of 1,024 the agreed repairs of a link take effect. -/
def execLaneRepairApply (link : Nat) (s : State) : Host.Outcome State Fault Refusal :=
  event s fun b l =>
    let l := l.reachTime b ((l.turn b / 1024 + 1) * 1024) 0
    let (l, n) := (List.range 64).foldl (fun (acc : Live × Nat) md =>
      let k := link * 64 + md
      let p := tget acc.1.dev.links.repairs 0 (4096 + k)
      if p = 0 then acc
      else (acc.1.onLinks fun x => { x with repairs := tdel (tput x.repairs k (tget x.repairs 0 k + p)) (4096 + k) }, acc.2 + p)) (l, 0)
    let worst := (List.range 64).foldl (fun m md => Nat.max m (tget l.dev.links.repairs 0 (link * 64 + md))) 0
    let w := l.lnkstat link
    let w := setBits w 40 16 (Nat.min 65535 (wbits w 55 40 + n))
    l.setLnkstat link (setBits w 32 3 (4 - worst))

/-- UE_TRANSPORT_FAIL (R404): the transport gives up on its peer and the circuit fails. -/
def execUeTransportFail (cnum : Nat) (s : State) : Host.Outcome State Fault Refusal :=
  event s fun b l => (l.failCircuit b cnum 1).hardRecord b (l.circuit cnum).ctx 0xCD 5 0 cnum 0

/-- UE_PORT_DOWN (R405, 0xCE). -/
def execUePortDown (q : Nat) (s : State) : Host.Outcome State Fault Refusal :=
  event s fun b l => (l.setUestat q (setBits (l.uestat q) 60 4 0)).hardRecord b 0 0xCE 5 0 q 0

/-- UE_PORT_UP (R405). -/
def execUePortUp (q : Nat) (s : State) : Host.Outcome State Fault Refusal :=
  event s fun _ l => l.setUestat q (setBits (l.uestat q) 60 4 1)

/-- IDE_INTEGRITY_FAIL (R407): the port becomes insecure, and contexts treat it as a link-down (R342). -/
def execIdeIntegrityFail (s : State) : Host.Outcome State Fault Refusal :=
  event s fun b l =>
    let l := l.onLinks fun k => { k with hlstat := bumpField (setBits k.hlstat 60 2 2) 16 16 }
    (l.map fun d => { d with hostUp := false }).hardRecord b 0 0xF4 5 0 0 0

/-- IDE_KEY_PROGRAM (R407): keys of the link stream are programmed in an SPDM session; a port that is up is secure again. With no session there is nothing
to program them in. A selective stream is asked for by an SPDM request, and refused there (R5). -/
def execIdeKeyProgram (s : State) : Host.Outcome State Fault Refusal :=
  event s fun _ l =>
    if l.dev.sessions.isEmpty then l.map fun d => { d with out := d.out ++ [.unsupported] }
    else
      let l := l.onLinks fun k => { k with hlstat := setBits k.hlstat 60 2 1 }
      l.map fun d => { d with hostUp := wbits d.links.hlstat 63 62 == 2 }

/-- HOST_LINK_DOWN (R342, R406). -/
def execHostLinkDown (s : State) : Host.Outcome State Fault Refusal :=
  event s fun b l =>
    let l := l.onLinks fun k => { k with hlstat := bumpField (setBits k.hlstat 62 2 0) 32 16 }
    (l.map fun d => { d with hostUp := false }).hardRecord b 0 0xF3 5 0 0 0

/-- HOST_LINK_UP (R342, R5): the link is up, at its full width or, where training has fallen back, a narrower one, and its IDE session is established again.
Which of the widths of a PCIe link, 1, 2, 4, 8 or 16 lanes, training has come to is a free choice (assumption 6). -/
def execHostLinkUp (s : State) : Host.Outcome State Fault Refusal :=
  event s fun _ l =>
    let w := l.choose 5
    let l := w.2.onLinks fun k => { k with hlstat := setBits (setBits (setBits (setBits k.hlstat 62 2 2) 60 2 1) 55 5 (2 ^ w.1)) 52 3 7 }
    l.map fun d => { d with hostUp := true }

/-- HBMRATE as it reads: boot sets the boot rate point (R408). -/
def Live.hbmrate (_b : Boot) (l : Live) : Word := l.dev.links.hbmrate

/-- A write of REQ (R408, R409). The stall of one that is taken begins at the next period boundary. -/
def Live.requestRate (b : Boot) (l : Live) (v : Word) : Live :=
  let w := l.hbmrate b
  if w.getLsbD 63 then l
  else
    let req := wbits v 1 0
    let set := fun (l : Live) (w : Word) => l.onLinks fun k => { k with hbmrate := w }
    let w := setBits w 0 2 req
    if req = 3 then set l (setBits w 56 3 3)
    else if req = wbits w 17 16 then set l (setBits w 56 3 0)
    else
      let n := Nat.min (windowCount req) (windowCount (wbits w 17 16))
      let owned := l.dev.links.windows.any fun e => e.2 != 0 && decide (n ≤ e.1 % 128) && b.hasStack (e.1 / 128 / 64)
      let pending := l.dev.circuits.any fun e => match e.2.change with
        | some ch => ch.wins != e.2.wins
        | none => false
      if owned then set l (setBits w 56 3 1)
      else if pending then set l (setBits w 56 3 2)
      else (set l (setBits w 63 1 1)).onLinks fun k => { k with rateTo := some req, stallAt := some ((l.dev.slots / 256 + 1) * 256) }

/-- HBMRATE_REQUEST (R408, R409). -/
def execHbmrateRequest (v : Word) (s : State) : Host.Outcome State Fault Refusal := event s fun b l => l.requestRate b v

/-- HBM_RATE_STALL_BEGIN (R409): the period boundary has come from which on no access window is served. -/
def execHbmRateStallBegin (s : State) : Host.Outcome State Fault Refusal :=
  event s fun b l => l.dev.links.stallAt.elim l fun a => l.reachSlot b a

/-- HBM_RATE_SWITCH_DONE (R409): 768 wheel slots after the boundary at which the stall began, the new rate point holds. -/
def execHbmRateSwitchDone (s : State) : Host.Outcome State Fault Refusal :=
  event s fun b l =>
    match l.dev.links.rateTo, l.dev.links.stallAt with
    | some r, some a =>
      let w := setBits (setBits (setBits (l.hbmrate b) 63 1 0) 56 3 0) 16 2 r
      (l.reachSlot b (a + 768)).onLinks fun k => { k with stallAt := none, rateTo := none, hbmrate := w }
    | _, _ => l

/-- HBM_REFRESH (R43): wheel slots 0 to 15 of a service period; it changes nothing but time. -/
def execHbmRefresh (pc : Nat) (s : State) : Host.Outcome State Fault Refusal :=
  event s fun b l => if pc < 768 then l.passSlots b ((256 - l.dev.slots % 256) % 256 + 16) else l

/-- Accesses queued at a controller fail with the poisoned-data cause (R395): their requests carry the failure back. -/
def Live.failQueued (b : Boot) (l : Live) (key : Nat) : Live :=
  let q := tget l.dev.links.queues [] key
  let l := l.onLinks fun k => { k with queues := tdel k.queues key }
  q.foldl (fun l e =>
    match l.req? e.1 with
    | none => l
    | some r => match r.kind with
      | .mem _ _ =>
        let l := l.onReq e.1 fun r => { r with stage := .back, fail := some (0x45, 0, false) }
        let home := match r.parts.head? with
          | some p => (paHome b p.pa).map (Home.cluster b)
          | none => none
        l.send b r.ctx e.1 true r.dest home (nodeEnd r.src) none 1
      | k =>
        let l := l.onReq e.1 fun r =>
          let parts := r.parts.mapIdx fun j p => if j == e.2 then { p with done := true, bad := true } else p
          { r with fail := some (r.fail.getD (0x45, 0, false)), parts, stage := if parts.all Part.done then .replied else r.stage }
        match k with
        | .piece _ _ => l.replyGroup b e.1 ((r.parts[e.2]?).elim 0 Part.grp)
        | _ => l) l

/-- LPDDR_FENCE (R412): the channel is FENCED, its granules are poisoned, and its queued accesses fail. -/
def execLpddrFence (ch : Nat) (s : State) : Host.Outcome State Fault Refusal :=
  event s fun b l =>
    if wbits (l.lpstat ch) 63 60 != 1 then l
    else
      let l := (l.setLpstat ch (setBits (l.lpstat ch) 60 4 2)).onLinks fun k => { k with lpfenced := sinsert k.lpfenced ch }
      ((l.write (.channel (1000 + ch))).failQueued b (1000 + ch)).hardRecord b 0 0x54 5 0 ch 0

/-- The link of a monitored lane is in use (R410). -/
def Live.laneLive (l : Live) (n : Nat) : Bool :=
  if n < 144 then l.trecoState (n / 4) != 0 && l.trecoState (n / 4) != 5
  else if n < 176 then wbits (l.uestat ((n - 144) / 4)) 63 60 == 1
  else if n < 192 then wbits l.dev.links.hlstat 63 62 != 0
  else
    let m := n - 1024
    let link := m / 128 / 48
    let lane := m % 128
    wbits (l.lnkstat link) 63 60 == 1 && decide (lane < 64 + tget l.dev.links.repairs 0 (link * 64 + m / 128 % 48))

/-- A number names a lane monitor (R410). -/
def eyeExists (n : Nat) : Bool :=
  n < 192 || (1024 ≤ n && decide ((n - 1024) / 128 / 48 < 18) && decide ((n - 1024) % 128 < 68) &&
    (decide (6 ≤ (n - 1024) / 128 / 48) || decide ((n - 1024) / 128 % 48 < 32)))

/-- EYE_SAMPLE (R410, R411). -/
def execEyeSample (n h v : Nat) (s : State) : Host.Outcome State Fault Refusal :=
  event s fun b l =>
    let w := l.eye n
    if !l.laneLive n then l
    else
      let h := h % 256
      let v := v % 256
      let low := decide (h < wbits w 55 48) || decide (v < wbits w 47 40)
      let w1 := setBits (setBits w 16 8 h) 8 8 v
      let w1 := setBits (setBits w1 24 8 (Nat.min h (wbits w 31 24))) 0 8 (Nat.min v (wbits w 7 0))
      let w1 := if low then setBits w1 63 1 1 else w1
      let l := l.onLinks fun k => { k with eyes := tput k.eyes n w1 }
      if low && !w.getLsbD 63 then
        let l := l.hardRecord b 0 0xDB 5 0 n 0
        if !w.getLsbD 62 then l
        else
          let l := l.onLinks fun k => { k with lnkirq := setBits k.lnkirq 32 16 n }
          if l.dev.links.lnkirq.getLsbD 8 then l.map fun d => { d with out := d.out ++ [.irq (wbits d.links.lnkirq 7 0)] } else l
      else l

/-- What a monitor reads as (R410). -/
def Live.readEye (l : Live) (n : Nat) : Word :=
  if l.laneLive n then l.eye n else l.eye n &&& 0xC0FFFF0000000000

/-- A write to a monitor register (R410). -/
def Live.writeEye (l : Live) (n : Nat) (v : Word) : Live :=
  let w := setBits (setBits (setBits (l.eye n) 62 1 (wbits v 62 62)) 48 8 (wbits v 55 48)) 40 8 (wbits v 47 40)
  let w := if v.getLsbD 63 then setBits (setBits (setBits w 63 1 0) 24 8 0xFF) 0 8 0xFF else w
  l.onLinks fun k => { k with eyes := tput k.eyes n w }

/-- EYE_MONITOR_WRITE (R410). -/
def execEyeMonitorWrite (n : Nat) (v : Word) (s : State) : Host.Outcome State Fault Refusal := event s fun _ l => l.writeEye n v

/-- A write to LNKSTAT clears FLITERR (R400). -/
def Live.writeLnkstat (l : Live) (i : Nat) : Live := l.setLnkstat i (setBits (l.lnkstat i) 0 32 0)
/-- A write to UESTAT clears RETX (R405). -/
def Live.writeUestat (l : Live) (q : Nat) : Live := l.setUestat q (setBits (l.uestat q) 0 32 0)
/-- A write to LPSTAT clears UECC and CECC (R412). -/
def Live.writeLpstat (l : Live) (c : Nat) : Live := l.setLpstat c (setBits (l.lpstat c) 0 32 0)
/-- A write to TRKWHL clears SLIP where a 1 is written and sets GUARD while ALIGNED is 0 (R47). -/
def Live.writeTrkwhl (l : Live) (p : Nat) (v : Word) : Live :=
  let w := l.trkwhl p
  let w1 := if v.getLsbD 63 then setBits w 63 1 0 else w
  l.setTrkwhl p (if w.getLsbD 62 then w1 else setBits w1 16 8 (wbits v 23 16))

/-- LNKSTAT_WRITE (R400). -/
def execLnkstatWrite (link : Nat) (_v : Word) (s : State) : Host.Outcome State Fault Refusal := event s fun _ l => l.writeLnkstat link
/-- UESTAT_WRITE (R405). -/
def execUestatWrite (q : Nat) (_v : Word) (s : State) : Host.Outcome State Fault Refusal := event s fun _ l => l.writeUestat q
/-- LPSTAT_WRITE (R412). -/
def execLpstatWrite (ch : Nat) (_v : Word) (s : State) : Host.Outcome State Fault Refusal := event s fun _ l => l.writeLpstat ch
/-- TRKWHL_WRITE (R47). -/
def execTrkwhlWrite (port : Nat) (v : Word) (s : State) : Host.Outcome State Fault Refusal := event s fun _ l => l.writeTrkwhl port v

/-- A write to TRKCTL (R402): PLANE while STATE is not 3, then RETRAIN. -/
def Live.writeTrkctl (b : Boot) (l : Live) (p : Nat) (v : Word) : Live :=
  let pl := wbits v 51 48
  let l := if l.trecoState p != 3 && decide (1 ≤ pl) && decide (pl ≤ 7) then l.setTrkctl p (setBits (l.trkctl p) 48 4 pl) else l
  if v.getLsbD 0 then l.retrain b p else l

end Sys2Proof.Machine
end

