-- ==== Sys2Proof/Machine/Package.lean ====
section
/-!
DEFINITION. The package: boot, capability registers, firmware image and cluster clocks (01_package.md, R33, R34, R331).
-/

namespace Sys2Proof.Machine

/-- The dies that a UCIe link joins (R396): C0 to C7 are 0 to 7, G0 to G3 are 8 to 11. -/
def ucieDies (i : Nat) : Nat × Nat :=
  if i < 3 then (i, i + 1) else if i < 6 then (i + 1, i + 2) else if i < 10 then (i - 6, i - 2) else (8 + (i - 10) / 2, i - 10)

/-- Dies reachable from G0 over trained links (R21): one more round of search. -/
def reachDies (failed : List Nat) (ds : List Nat) : Nat → List Nat
  | 0 => ds
  | n + 1 =>
    let more := (List.range 18).foldl (fun acc i =>
      if failed.contains i then acc
      else
        let (a, z) := ucieDies i
        if acc.contains a then sinsert acc z else if acc.contains z then sinsert acc a else acc) ds
    reachDies failed more n

/-- A number with the bits of a list set. -/
def maskOf (l : List Nat) : Nat := l.foldl (fun m i => m + 2 ^ i) 0

/-- A wheel descriptor is legal (R34). -/
def wheelLegal (v : Word) : Bool :=
  let lw := wbits v 3 0
  let w := 2 ^ lw
  let cnt := wbits v 41 35
  let slots := (List.range cnt).map fun i => (wbits v 24 15 + i * wbits v 34 25) % w
  3 ≤ lw && lw ≤ 10 && wbits v 62 60 ≤ 4 && wbits v 14 5 < w && decide slots.Nodup &&
    !slots.contains (wbits v 14 5) && 1 ≤ cnt && cnt ≤ 64 && (cnt + 1) * 4 ≤ w

/-- The writable fields of WHLDESC (R33). -/
def wheelMask : Word := 0x73FFFFFFFFFFFFEF

/-- Boot from training on (R20 to R23): what is published, whether the part starts, and the state that boot leaves. With too few dies, or with an
illegal wheel descriptor, the part stops (R21, R34). -/
def bootUp (a : BootArgs) : Boot × Dev :=
  let dies := reachDies a.failedLinks [8] 12
  let cds := (List.range 8).filter fun d => dies.contains d
  let gws := (List.range 4).filter fun g => dies.contains (8 + g)
  let lnk := (List.range 18).foldl (fun (t : Table Word) i =>
    let (x, z) := ucieDies i
    let st := if !dies.contains x || !dies.contains z then 3 else if a.failedLinks.contains i then 2 else 1
    tput t i (setBits 0x0000000400000000 60 4 st)) []
  let fwrld : Word := 0xC000000000000000
  if !dies.contains 9 || cds.isEmpty then
    ({ status := 3, badLinks := a.failedLinks }, { links := { lnkstat := lnk }, sched := { fwrld }, stopped := some 0 })
  else
    let clus := (List.range 192).filter fun c => cds.contains (dieOf c)
    let stks := (List.range 12).filter fun s => gws.contains (s / 3)
    let chs := (List.range 128).filter fun k => gws.contains (k / 32) && !a.failedChannels.contains k
    let rate := a.hbmRate % 3
    let whl := a.whldesc &&& wheelMask
    let ok := wheelLegal whl
    let boot : Boot := {
      capdie := BitVec.ofNat 64 (2 ^ 63 + 8 * clus.length * 2 ^ 44 + clus.length * 2 ^ 36 + chs.length * 2 ^ 28 +
        stks.length * 2 ^ 24 + maskOf gws * 2 ^ 8 + maskOf cds)
      capclu0 := BitVec.ofNat 64 (maskOf (clus.filter fun c => c < 64))
      capclu1 := BitVec.ofNat 64 (maskOf ((clus.filter fun c => 64 ≤ c && c < 128).map fun c => c - 64))
      capclu2 := BitVec.ofNat 64 (maskOf ((clus.filter fun c => 128 ≤ c).map fun c => c - 128))
      capstk := BitVec.ofNat 64 (rate * 2 ^ 16 + maskOf stks)
      caplnk := BitVec.ofNat 64 (maskOf ((List.range 36).filter fun p => gws.contains (p / 9)) +
        2 ^ 40 * maskOf ((List.range 8).filter fun q => gws.contains (q / 2)))
      caplpc0 := BitVec.ofNat 64 (maskOf (chs.filter fun k => k < 64))
      caplpc1 := BitVec.ofNat 64 (maskOf ((chs.filter fun k => 64 ≤ k).map fun k => k - 64))
      whldesc := if ok then whl ||| (1#64 <<< 63) else whl
      pkg := a.pkg, routes := a.trecoRoutes, log2b := a.log2b, fillLimit := a.fillLimit, badLinks := a.failedLinks
      status := if ok then 1 else 4 }
    let failed := a.failedLinks.flatMap fun i => (ucieLinks i).flatMap fun h => (h.1, h.2) :: (match farEnd h.1 h.2 with
      | some m => [(m, backPort h.1 h.2)]
      | none => [])
    let dev : Dev := {
      links := { lnkstat := lnk, failed
                 hbmrate := BitVec.ofNat 64 (rate * 65537)
                 lpstat := chs.foldl (fun t k => tput t k (1#64 <<< 60)) []
                 uepeer := a.peers.foldl (fun t p => tput t p.1 p.2) [] }
      clusters := a.homes.foldl (fun t h => tput t h.1 { home := h.2 % 256, user := h.2 % 256 }) []
      sched := { fwrld, sbyok := ok }
      stopped := if ok then none else some 0 }
    (boot, dev)

/-- The record of a rejected image in the package's log (R331, R424). -/
def imageRejected (d : Dev) (turn : Nat) : Dev := d.sendRecord { cause := 0xF5, src := 5, turn }

/-- COLD_BOOT (R20, R331, R421): the image is verified before anything runs; every earlier state is gone. -/
def execColdBoot (a : BootArgs) (s : State) : Host.Outcome State Fault Refusal :=
  if a.imageOk then
    let r := bootUp a
    .next { boot := r.1, mem := {}, dev := r.2, agenda := s.agenda, core := s.core }
  else .next { boot := { status := 2 }, mem := {}, dev := imageRejected { sched := { fwrld := 0x8000000000000000 } } 0, agenda := s.agenda, core := s.core }

/-- FWRLD_WRITE (R331): a legal LEN while STATE is 2 starts verification. -/
def execFwrldWrite (v : Word) (s : State) : Host.Outcome State Fault Refusal :=
  event s fun _ l =>
    let n := wbits v 31 0
    if wbits l.dev.sched.fwrld 63 62 == 2 && decide (1 ≤ n) && decide (n ≤ 134217728) then
      l.map fun d => { d with sched := { d.sched with fwrld := setBits (setBits d.sched.fwrld 62 2 1) 0 32 n } }
    else l

/-- IMAGE_VERIFY_DONE (R331): the part boots from an image that passes; one that fails returns STATE to 2. -/
def execImageVerifyDone (ok : Bool) (a : BootArgs) (s : State) : Host.Outcome State Fault Refusal :=
  if s.dev.stopped.isSome then .fault .packageStopped
  else if wbits s.dev.sched.fwrld 63 62 != 1 then .next s
  else if ok then
    let r := bootUp a
    .next { boot := r.1, mem := {}, dev := r.2, agenda := s.agenda, core := s.core }
  else .next { s with dev := imageRejected { s.dev with sched := { s.dev.sched with fwrld := setBits s.dev.sched.fwrld 62 2 2 } } ((⟨s.dev, s.mem, []⟩ : Live).turn s.boot) }

/-- Clusters locked together with some of a list: one round more, gang by gang (R19). -/
def lockedWith (gangs : List (List Nat)) (cs : List Nat) : Nat → List Nat
  | 0 => cs
  | n + 1 => lockedWith gangs (gangs.foldl (fun acc g => if g.any acc.contains then g.foldl sinsert acc else acc) cs) n

/-- The clusters whose oscillators are locked to a cluster's (R19): those of its ACTIVE gangs, and of the gangs that share a cluster with these;
the cluster alone if there is none. -/
def Live.lockGroup (l : Live) (c : Nat) : List Nat :=
  let gangs := (l.dev.gangs.filter fun e => e.2.st == 2).map fun e => (gangCores e.1 e.2.n).map (· / 8)
  lockedWith gangs [c] gangs.length

/-- The oscillators of a cluster's lock group run at the lowest frequency that any member's supply and set-point allow (R16, R19); each that so
comes to the floor counts. A stopped clock takes its frequency at the restart. -/
def Live.retune (l : Live) (c : Nat) : Live :=
  let group := l.lockGroup c
  let f := Nat.max 30 (group.foldl (fun m k => Nat.min m (Nat.min (l.dev.cluster k).setpt (l.dev.cluster k).supply)) 42)
  group.foldl (fun l k => l.onCluster k fun r =>
    if r.busy then r else { r with freq := f, droops := if f == 30 && r.freq != 30 then Nat.min (r.droops + 1) 0xFFFFFF else r.droops }) l

/-- A write of a set-point byte to a cluster's clock control (R18, R19). ERR stays until a 1 is written to it, whatever legal values follow
(assumption 91). -/
def Live.writeSetpt (l : Live) (c : Nat) (v : Nat) : Live :=
  if v < 30 || 42 < v then l.onCluster c fun r => { r with err := true }
  else
    (l.lockGroup c).foldl (fun l k => l.onCluster k fun r =>
      if r.busy then { r with queued := some v } else { r with busy := true, setpt := v }) l

/-- A write to CLKCTL (R17). -/
def Live.writeClk (l : Live) (c : Nat) (v : Word) : Live :=
  let l := if v.getLsbD 1 then l.onCluster c fun r => { r with err := false } else l
  l.writeSetpt c (wbits v 15 8)

/-- CLKCTL as it reads (R17). -/
def clkRead (r : Cluster) : Word :=
  BitVec.ofNat 64 (r.droops * 2 ^ 40 + r.freq * 2 ^ 24 + r.setpt * 2 ^ 8 + (if r.lock then 4 else 0) + (if r.err then 2 else 0) + (if r.busy then 1 else 0))

/-- SETPT_WRITE (R18). -/
def execSetptWrite (cluster : Nat) (v : Word) (s : State) : Host.Outcome State Fault Refusal := event s fun _ l => l.writeClk cluster v

/-- The request for a pre-emption or an end that was held while a clock was stopped takes effect at the restart (R18). -/
def Dev.haltHeld (d : Dev) : Dev :=
  d.kernels.foldl (fun d k => if k.st == 3 || k.st == 6 then d.haltKernel k.ctx k.knum else d) d

/-- SETPT_CHANGE_DONE (R18, R19): the clocks of the group restart together; a queued value is applied next. -/
def execSetptChangeDone (cluster : Nat) (s : State) : Host.Outcome State Fault Refusal :=
  event s fun _ l =>
    if !(l.dev.cluster cluster).busy then l
    else
      let group := l.lockGroup cluster
      let l := ((group.foldl (fun l k => l.onCluster k fun r => { r with busy := false }) l).retune cluster).map Dev.haltHeld
      group.foldl (fun l k => l.onCluster k fun r =>
        match r.queued with
        | some q => { r with busy := true, setpt := q, queued := none }
        | none => r) l

end Sys2Proof.Machine
end

