-- ==== Sys2Proof/Machine/Device.lean ====
section
/-!
DEFINITION. Device registers on path 0xE: what each reads as and what a write to it does (R210 and the chapters' register tables),
and the meanings of the register-write steps.
-/

namespace Sys2Proof.Machine

/-- A command queue (R318). -/
def Live.queue (l : Live) (q : Nat) : Queue := tget l.dev.sched.queues {} q

/-- Changes a command queue. -/
def Live.onQueue (l : Live) (q : Nat) (f : Queue → Queue) : Live :=
  l.map fun d => { d with sched := { d.sched with queues := tput d.sched.queues q (f (tget d.sched.queues {} q)) } }

/-- EN of a queue (R318). -/
def Queue.en (q : Queue) : Bool := q.cfg.getLsbD 63
/-- CTX of a queue (R318). -/
def Queue.ctx (q : Queue) : Nat := wbits q.cfg 55 40
/-- OWNER of a queue (R318). -/
def Queue.owner (q : Queue) : Nat := wbits q.cfg 39 32
/-- Entries of a queue's ring (R318). -/
def Queue.size (q : Queue) : Nat := 2 ^ wbits q.cfg 27 24

/-- The writable fields of QCFG (R318). -/
def qcfgMask : Word := 0x80FFFFFF0FFF0000
/-- The writable fields of FQCFG (R418). -/
def fqcfgMask : Word := 0x800FFF8000000000

/-- A write of QCFG (R318, R322): only EN can be cleared while it is set, and then its scan ends; enabling sets QHEAD to QTAIL. A queue is enabled
for an ACTIVE context, once the firmware image has been accepted and the part has booted (R20, R331, R335). -/
def Live.writeQcfg (b : Boot) (l : Live) (q : Nat) (v : Word) : Live :=
  let r := l.queue q
  let on := v.getLsbD 63
  if r.en then
    if on then l
    else (l.onQueue q fun r => { r with cfg := setBits r.cfg 63 1 0, st := 0, ecode := 0 }).map fun d =>
      { d with sched := { d.sched with serving := if d.sched.serving.any fun x => x.1 == q then none else d.sched.serving } }
  else
    let cfg := v &&& qcfgMask
    let lg := wbits cfg 27 24
    let ok := on && decide (4 ≤ lg) && (l.dev.ctx (wbits cfg 55 40)).st == 3 && wbits l.dev.sched.fwrld 63 62 == 3 && b.status == 1
    if ok then l.onQueue q fun r => { r with cfg, head := r.tail, st := 0, ecode := 0 }
    else l.onQueue q fun r => { r with cfg := setBits cfg 63 1 0 }

/-- A write of FQCFG (R418): enabling sets TAIL to 0; a protected context's queue is never on the host. -/
def Live.writeFqcfg (l : Live) (c : Nat) (v : Word) : Live :=
  let r := l.dev.collector c
  let put := fun (r : Collector) => l.map fun d => { d with collectors := tput d.collectors c r }
  let on := v.getLsbD 63
  if r.cfg.getLsbD 63 then (if on then l else put { r with cfg := setBits r.cfg 63 1 0 })
  else
    let cfg := v &&& fqcfgMask
    let host := r.base.getLsbD 63
    let ok := on && decide (4 ≤ wbits cfg 51 48) && !(host && (l.dev.ctx c).prot) && !(c == 0 && !host && wbits r.base 62 52 != 0)
    put { r with cfg := if ok then cfg else setBits cfg 63 1 0, tail := if ok then 0 else r.tail }

/-- Queues that wait are tested again: a heap entry has left, a kernel retired, or a weight changed (R322). -/
def Live.retestQueues (l : Live) : Live :=
  l.dev.sched.queues.foldl (fun l e => if e.2.st == 2 then
    (l.onQueue e.1 fun r => { r with st := 1 }).map fun d => { d with sched := { d.sched with kicks := sinsert d.sched.kicks e.1 } }
  else l) l

/-- WEIGHT of an owner (R324). -/
def Live.weight (l : Live) (o : Nat) : Nat := wbits (tget l.dev.sched.owncfg 0 o) 15 0

/-- The cores bound to a kernel (R310, R324): those of its core set not released, from its bind until it drains, is saved or retires. -/
def Live.boundCores (l : Live) (k : Kernel) : List Nat :=
  if l.dev.sched.bound.contains (k.ctx, k.knum) && k.st != 4 && k.st != 5 && k.st != 7 then
    (k.cores.zipIdx.filter fun c => !shas k.released c.2).map Prod.fst
  else []

/-- U_o (R324). -/
def Live.inUse (l : Live) (o : Nat) : Nat :=
  ((l.dev.kernels.filter fun k => k.owner == o).map fun k => (l.boundCores k).length).sum +
    ((l.dev.sched.heap.filter fun h => h.owner == o).map fun h => h.cores.length).sum

/-- An owner belongs to A (R324). -/
def Live.active (l : Live) (o : Nat) : Bool :=
  l.weight o != 0 && (l.dev.sched.heap.any (fun h => h.owner == o) ||
    l.dev.kernels.any (fun k => k.owner == o && !(l.boundCores k).isEmpty) ||
    l.dev.sched.queues.any (fun q => q.2.owner == o && q.2.st == 2))

/-- S_o (R324). -/
def Live.share (b : Boot) (l : Live) (o : Nat) : Nat :=
  if l.active o then
    wbits b.capdie 54 44 * l.weight o / (((List.range 256).filter fun a => l.active a).map fun a => l.weight a).sum
  else 0

/-- OWNCFG as it reads: SHARE is as the last admission test left it (R324). -/
def Live.readOwncfg (l : Live) (o : Nat) : Word :=
  BitVec.ofNat 64 (l.inUse o % 65536 * 2 ^ 32 + tget l.dev.sched.shares 0 o % 65536 * 2 ^ 16 + l.weight o)

/-- A write of OWNCFG (R322, R324). -/
def Live.writeOwncfg (l : Live) (o : Nat) (v : Word) : Live :=
  (l.map fun d => { d with sched := { d.sched with owncfg := tset d.sched.owncfg 0 o (v &&& 0xFFFF) } }).retestQueues

/-- SCHSTAT (R328). -/
def Live.schstat (l : Live) : Word :=
  let s := l.dev.sched
  BitVec.ofNat 64 (Nat.min s.tkocnt 65535 * 2 ^ 48 + (if s.hold then (s.fifo.filter fun c => !c.taken).length else 0) * 2 ^ 32 +
    (if s.hold then 128 else 0) + (if s.tko then 64 else 0) + (if s.sbyok then 32 else 0) + (if s.act then 16 else 0) + (if s.lost then 8 else 0))

/-- CTXCTL (R334). -/
def Ctx.ctl (c : Ctx) : Word :=
  let keys := (if c.keyMem.isSome then 1 else 0) + (if c.keyFab.isSome then 2 else 0) + (c.keyW.map fun e => 4 * 2 ^ e.1).sum
  BitVec.ofNat 64 (c.st * 2 ^ 60 + (if c.prot then 2 ^ 59 else 0) + (if c.efwd then 2 ^ 58 else 0) + (if c.poison then 2 ^ 57 else 0) +
    (if c.dieLost then 2 ^ 56 else 0) + c.owner * 2 ^ 48 + keys * 2 ^ 32 + c.adom * 2 ^ 24 + c.tdies.toNat)

/-- PARTCL (R346). -/
def Cluster.partcl (c : Cluster) : Word :=
  BitVec.ofNat 64 ((if c.xfer then 2 ^ 23 else 0) + (if c.rcl then 2 ^ 22 else 0) + (if c.held then 2 ^ 21 else 0) +
    (if c.lent then 2 ^ 20 else 0) + c.home * 256 + c.user)

/-- ATSTAT of an Attic engine (R377). -/
def Live.atstat (b : Boot) (l : Live) (s : Nat) : Word :=
  let mine := l.dev.names.filter fun e => e.1 == s
  let dorm := (mine.filter fun e => e.2.dorm).length
  if b.hasStack s then BitVec.ofNat 64 (2 ^ 63 + b.log2b % 32 * 2 ^ 54 + (mine.length - dorm) % 2 ^ 27 * 2 ^ 27 + dorm % 2 ^ 27) else 0

/-- FQSTAT (R418). -/
def Collector.stat (c : Collector) : Word :=
  BitVec.ofNat 64 (c.seq % 2 ^ 32 * 2 ^ 32 + Nat.min c.drop 65535 * 65536 + c.tail * 2 + (if c.err then 1 else 0))

/-- FLOWS of an Ultra Ethernet port (R405): the circuits open through it. -/
def Live.flows (l : Live) (q : Nat) : Nat :=
  (l.dev.circuits.filter fun e => (e.2.st == 2 || e.2.st == 3 || e.2.st == 4) &&
    (e.2.fwd.hops.getLast?.map fun h => (h.1, h.2.1)) == some (192 + q / 2, 35 + q % 2)).length

/-- One of a run of registers that start at base and lie step bytes apart: its number and the offset in it. -/
def slotAt (a base step count : Nat) : Option (Nat × Nat) :=
  if base ≤ a && (a - base) / step < count then some ((a - base) / step, (a - base) % step) else none

/-- A device register by the bits [59:0] of its address; none if no register has that address (R210). -/
def Live.readDevice (b : Boot) (l : Live) (a : Nat) : Option Word :=
  if a < 0x100000 then
    match a with
    | 0x00 => some b.capdie
    | 0x08 => some b.capclu0
    | 0x10 => some b.capclu1
    | 0x18 => some b.capclu2
    | 0x20 => some b.capstk
    | 0x28 => some b.caplnk
    | 0x30 => some b.caplpc0
    | 0x38 => some b.caplpc1
    | _ => none
  else if a < 0x200000 then
    match slotAt a 0x100000 0x40 192 with
    | some (c, 0) => some (clkRead (l.dev.cluster c))
    | _ => none
  else if a < 0x300000 then
    if a = 0x200000 then some b.whldesc
    else match slotAt a 0x201000 0x40 36 with
      | some (p, 0) => some (l.trkwhl p)
      | some (p, 8) => some (l.trkctl p)
      | _ => none
  else if a < 0x400000 then
    match slotAt a 0x300000 0x40 192, slotAt a 0x304000 0x40 4 with
    | some (c, 0), _ => some (tget l.dev.links.rtrstat 0 c)
    | _, some (g, 0) => some (tget l.dev.links.rtrstat 0 (192 + g))
    | _, _ => none
  else if a < 0x410000 then
    match slotAt a 0x400000 0x40 18 with
    | some (i, 0) => some (l.lnkstat i)
    | _ => none
  else if a = 0x410000 then some (l.hbmrate b)
  else if a < 0x430000 then
    match slotAt a 0x420000 8 128 with
    | some (k, 0) => some (l.lpstat k)
    | _ => none
  else if a = 0x430000 then some l.dev.links.lnkirq
  else if a = 0x450000 then some l.dev.links.hlstat
  else if a < 0x470000 then
    match slotAt a 0x460000 0x40 8 with
    | some (q, 0) => some (setBits (l.uestat q) 32 16 (l.flows q))
    | _ => none
  else if a < 0x600000 then
    match slotAt a 0x470000 0x10 128 with
    | some (i, 0) => some (tget l.dev.links.uepeer (0, 0) i).1
    | some (i, 8) => some (tget l.dev.links.uepeer (0, 0) i).2
    | _ => none
  else if a < 0x1000000 then
    if a % 8 = 0 && eyeExists ((a - 0x600000) / 8) then some (l.readEye ((a - 0x600000) / 8)) else none
  else if a < 0x1080000 then
    match slotAt a 0x1000000 0x40 4096 with
    | some (q, 0x00) => some (l.queue q).cfg
    | some (q, 0x08) => some (l.queue q).base
    | some (q, 0x10) => some (BitVec.ofNat 64 (l.queue q).head)
    | some (q, 0x18) => some (BitVec.ofNat 64 (l.queue q).tail)
    | some (q, 0x20) => some (BitVec.ofNat 64 ((l.queue q).miss * 2 ^ 32 + (l.queue q).ecode * 2 ^ 24 + (l.queue q).st))
    | _ => none
  else if a < 0x1100000 then
    match slotAt a 0x1080000 8 256 with
    | some (o, 0) => some (l.readOwncfg o)
    | _ => none
  else if a = 0x1100000 then some l.schstat
  else if a < 0x2010000 then
    match slotAt a 0x2000000 0x40 1024 with
    | some (c, 0) => some (l.dev.ctx c).ctl
    | _ => none
  else if a < 0x2100000 then
    match slotAt a 0x2010000 0x20 1024 with
    | some (c, 0x00) => some (l.dev.collector c).cfg
    | some (c, 0x08) => some (l.dev.collector c).base
    | some (c, 0x10) => some (l.dev.collector c).stat
    | _ => none
  else if a < 0x2200000 then
    match slotAt a 0x2100000 0x40 4 with
    | some (g, 0) => let s := tget l.dev.scrubs {} g
                     some (BitVec.ofNat 64 (s.ctx * 2 ^ 48 + s.phase * 2 ^ 44 + s.restarts % 256 * 2 ^ 32))
    | some (g, 8) => let s := tget l.dev.scrubs {} g
                     some (BitVec.ofNat 64 (s.total * 2 ^ 32 + s.done))
    | _ => none
  else if a < 0x2300000 then
    match slotAt a 0x2200000 8 192 with
    | some (c, 0) => some (l.dev.cluster c).partcl
    | _ => none
  else if a < 0x2400000 then
    match slotAt a 0x2300000 0x80 256 with
    | some (o, k) => if k % 8 = 0 && k / 8 < 9 then some (tget l.dev.usage 0 (o * 16 + k / 8)) else none
    | none => none
  else
    match slotAt a 0x2500000 0x40 12 with
    | some (s, 0) => some (l.atstat b s)
    | _ => none

/-- What a write to a device register does; none if no register has that address. A write to a read-only register changes nothing. -/
def Live.writeDevice (b : Boot) (l : Live) (a : Nat) (v : Word) : Option Live :=
  match l.readDevice b a with
  | none => none
  | some _ =>
    match slotAt a 0x100000 0x40 192, slotAt a 0x201000 0x40 36, slotAt a 0x300000 0x40 192, slotAt a 0x304000 0x40 4 with
    | some (c, _), _, _, _ => some (l.writeClk c v)
    | _, some (p, 0), _, _ => some (l.writeTrkwhl p v)
    | _, some (p, _), _, _ => some (l.writeTrkctl b p v)
    | _, _, some (c, _), _ => some (l.onRtrstat c fun w => if v.getLsbD 32 then 0 else w &&& (1#64 <<< 32))
    | _, _, _, some (g, _) => some (l.onRtrstat (192 + g) fun w => if v.getLsbD 32 then 0 else w &&& (1#64 <<< 32))
    | none, none, none, none =>
      match slotAt a 0x400000 0x40 18, slotAt a 0x420000 8 128, slotAt a 0x460000 0x40 8, slotAt a 0x1000000 0x40 4096 with
      | some (i, _), _, _, _ => some (l.writeLnkstat i)
      | _, some (k, _), _, _ => some (l.writeLpstat k)
      | _, _, some (q, _), _ => some (l.writeUestat q)
      | _, _, _, some (q, 0x00) => some (l.writeQcfg b q v)
      | _, _, _, some (q, 0x08) => some (if (l.queue q).en then l else l.onQueue q fun r => { r with base := v })
      | _, _, _, some _ => some l
      | none, none, none, none =>
        match slotAt a 0x1080000 8 256, slotAt a 0x2010000 0x20 1024 with
        | some (o, _), _ => some (l.writeOwncfg o v)
        | _, some (c, 0x00) => some (l.writeFqcfg c v)
        | _, some (c, 0x08) => some (if (l.dev.collector c).cfg.getLsbD 63 then l
            else l.map fun d => { d with collectors := tput d.collectors c { d.collector c with base := v } })
        | _, _ =>
          if a = 0x410000 then some (l.requestRate b v)
          else if a = 0x430000 then some (l.onLinks fun k => { k with lnkirq := setBits (setBits k.lnkirq 8 1 (wbits v 8 8)) 0 8 (wbits v 7 0) })
          else if 0x600000 ≤ a && a < 0x1000000 then some (l.writeEye ((a - 0x600000) / 8) v)
          else some l

/-- QCFG_WRITE (R318, R322). -/
def execQcfgWrite (q : Nat) (v : Word) (s : State) : Host.Outcome State Fault Refusal := event s fun b l => l.writeQcfg b q v
/-- FQCFG_WRITE (R418). -/
def execFqcfgWrite (ctx : Nat) (v : Word) (s : State) : Host.Outcome State Fault Refusal := event s fun _ l => l.writeFqcfg ctx v
/-- OWNCFG_WRITE (R322, R324). -/
def execOwncfgWrite (owner : Nat) (v : Word) (s : State) : Host.Outcome State Fault Refusal := event s fun _ l => l.writeOwncfg owner v
/-- REGISTER_WRITE (R210): a device register by the address bits [59:0]. WHLDESC takes its fields while the wheel does not run (R33). -/
def execRegisterWrite (addr v : Word) (s : State) : Host.Outcome State Fault Refusal :=
  if wbits addr 59 0 == 0x200000 && !s.boot.whldesc.getLsbD 63 && s.dev.stopped.isNone then .next { s with boot := { s.boot with whldesc := v &&& wheelMask } }
  else event s fun b l => (l.writeDevice b (wbits addr 59 0) v).getD l

end Sys2Proof.Machine
end

