-- ==== Sys2Proof/Machine/ThreadOps.lean ====
section
/-!
DEFINITION. Thread slots, windows and groups (R105 to R109, R248 to R257), and sending a request from a thread (R39).
-/

namespace Sys2Proof.Machine

/-- A slot holds a thread that counts in its groups (R252). -/
def Thread.live (t : Thread) : Bool := t.st != .free && t.st != .claimed

/-- The thread slots of a core that hold something, with their threads; the walker apart. -/
def Dev.slotsOf (d : Dev) (core : Nat) : List (Nat × Thread) :=
  d.threads.filter fun e => e.1 / 64 == core && e.1 % 64 != 63 && e.2.st != .free

/-- A window of so many registers at a base overlaps no live window of the core (R106). -/
def windowFits (used : List (Nat × Nat)) (base size : Nat) : Bool :=
  used.all fun w => base + size ≤ w.1 || w.1 + w.2 ≤ base

/-- The lowest base at which a window fits in entries 0 to 1,903 (R106). -/
def Dev.freeWindow (d : Dev) (core size : Nat) : Option Nat :=
  let used := (d.slotsOf core).map fun e => (e.2.wbase, e.2.wsize)
  (firstFrom 0 238 fun i => decide (8 * i + size ≤ 1904) && windowFits used (8 * i) size).map (8 * ·)

/-- The lowest free slot of a core from lo, of n slots (R105). -/
def Dev.freeSlot (d : Dev) (core lo n : Nat) : Option Nat := firstFrom lo n fun s => (d.thread (core * 64 + s)).st == .free

/-- Zeroes a window (R106). -/
def Dev.zeroWindow (d : Dev) (core base size : Nat) : Dev := { d with regs := tclear d.regs (core * 2048 + base) size }

/-- Writes registers of a window from entry i on; those of a list beyond the window are dropped. -/
def Dev.fillWindow (d : Dev) (core base i : Nat) : List Word → Dev
  | [] => d
  | v :: r => ({ d with regs := tset d.regs 0 (core * 2048 + base + i) v } : Dev).fillWindow core base (i + 1) r

/-- Places a thread in a slot: its window is zeroed, then g1 and on take the given values (R106, R108). -/
def Dev.placeThread (d : Dev) (tid : Nat) (t : Thread) (regs : List Word) : Dev :=
  ((d.zeroWindow (tid / 64) t.wbase t.wsize).fillWindow (tid / 64) t.wbase 1 (regs.take (t.wsize - 1))).setThread tid t

/-- A thread slot becomes FREE; waits and misses of the slot go with it (R109). -/
def Dev.freeThread (d : Dev) (tid : Nat) : Dev :=
  { d with threads := tdel d.threads tid, phWaits := d.phWaits.filter (fun w => w.2.2 != tid),
           grWaits := d.grWaits.filter (fun w => w.2 != tid), wakes := serase d.wakes tid,
           cores := d.cores.map fun e => if e.1 == tid / 64 then (e.1, { e.2 with misses := e.2.misses.filter fun m => m.job != 0 || m.slot != tid % 64 }) else e }

/-- The values of g1 to g(n−1) of a thread. -/
def Dev.windowRegs (d : Dev) (tid n : Nat) : List Word := (List.range (n - 1)).map fun i => d.getG tid (i + 1)

/-- Distinct values of a list in the order of their first occurrence. -/
def distinct (l : List Nat) : List Nat := l.foldl (fun acc x => if acc.contains x then acc else acc ++ [x]) []

/-- The physical clusters of a kernel by logical cluster index (R250). -/
def Kernel.clusters (k : Kernel) : List Nat := distinct (k.cores.map (· / 8))

/-- A core of another package of the domain. -/
def farCore (core : Nat) : Bool := 2048 ≤ core

/-- LSTK of each logical cluster of a launch (R250): the position of its package and home stack among the distinct ones in ascending order. -/
def Kernel.launchStacks (k : Kernel) : List Nat :=
  let pkgs := distinct (k.clusters.map (· / 256))
  let key := fun c => (pkgs.findIdx (· == c / 256)) * 16 + stackOf (c % 256)
  let keys := (k.clusters.map key).foldl sinsert []
  k.clusters.map fun c => keys.findIdx (· == key c)

/-- Logical core number of a physical core (R250). -/
def Kernel.lcOf (k : Kernel) (core : Nat) : Nat := k.cores.findIdx (· == core)

/-- Logical cluster index of a physical cluster (R250). -/
def Kernel.lcluOf (k : Kernel) (c : Nat) : Nat := k.clusters.findIdx (· == c)

/-- Logical stack index of a physical cluster (R250, R251). -/
def Kernel.lstkOf (k : Kernel) (c : Nat) : Nat := k.lstks.getD (k.lcluOf c) 0

/-- The kernel of the issuing thread. -/
def Live.myKernel (l : Live) : Option Kernel := l.dev.kernel? l.th.ctx l.th.knum

/-- QUOTA of a kernel (R308). -/
def Kernel.quota (k : Kernel) : Nat := lrecField k.lrec 117 1
/-- TBASE of a kernel (R308). -/
def Kernel.tbase (k : Kernel) : Nat := lrecField k.lrec 116 1
/-- TILES of a kernel (R308). -/
def Kernel.tiles (k : Kernel) : Nat := lrecField k.lrec 115 1
/-- JOBSEED of a kernel (R308). -/
def Kernel.jobseed (k : Kernel) : Word := BitVec.ofNat 64 (lrecField k.lrec 72 8)

/-- The logical numbers a thread takes on a core (R119, R250). -/
def Kernel.number (k : Kernel) (core : Nat) (t : Thread) : Thread :=
  { t with lcore := k.lcOf core, ncore := k.cores.length, lclu := k.lcluOf (core / 8), lstk := k.lstkOf (core / 8) }

/-- The next LTHREAD of a logical core: its counter starts at the quota (R119). -/
def Kernel.lthread (k : Kernel) (lc : Nat) : Nat := tget k.nextLt k.quota lc

/-- A kernel's core group on a core holds no live thread (R252). -/
def Dev.coreGroupEmpty (d : Dev) (ctx knum core : Nat) : Bool :=
  !d.threads.any fun e => e.1 / 64 == core && e.1 % 64 != 63 && e.2.ctx == ctx && e.2.knum == knum && e.2.live

/-- What the completion of a kernel's core group does to the core's work list: it loses its holder, and its entries are discarded and
counted (R255, R257). -/
def Dev.endCoreGroup (d : Dev) (ctx knum core : Nat) : Dev :=
  let w := tget d.work {} core
  if d.coreGroupEmpty ctx knum core && w.holder == some (ctx, knum) then
    { (d.onKernel ctx knum fun k => { k with wldisc := k.wldisc + w.items.length }) with work := tdel d.work core }
  else d

/-- No live thread of a kernel is on some of the cores of this package. -/
def Dev.noThreadOn (d : Dev) (ctx knum : Nat) (p : Nat → Bool) : Bool :=
  !d.threads.any fun e => e.1 % 64 != 63 && e.2.ctx == ctx && e.2.knum == knum && e.2.live && p (e.1 / 64)

/-- A kernel's domain group holds no live thread (R252); of cores on other packages, that is as they report (assumption 1). -/
def Dev.domainEmpty (d : Dev) (ctx knum : Nat) : Bool :=
  d.noThreadOn ctx knum (fun _ => true) && !((d.kernel? ctx knum).any fun k => k.cores.any farCore && !Config.farDone d.tick)

/-- A group of a kernel is complete: no live thread is on its cores, and each of these has been populated (R252). -/
def Dev.groupComplete (d : Dev) (k : Kernel) (p : Nat → Bool) : Bool :=
  d.noThreadOn k.ctx k.knum p && (k.st != 1 || !((k.cores.drop k.populated).any p))

/-- Reports the groups of a kernel that a thread's end on a core completes (R252). -/
def Dev.reportGroups (d : Dev) (ctx knum core : Nat) : Dev :=
  match d.kernel? ctx knum with
  | none => d
  | some k =>
    let tiers : List (Nat × Nat × (Nat → Bool)) :=
      [(1, k.lcOf core, fun c => c == core), (2, k.lcluOf (core / 8), fun c => c / 8 == core / 8),
       (3, k.lstkOf (core / 8), fun c => k.lstkOf (c / 8) == k.lstkOf (core / 8)), (4, 0, fun _ => true)]
    let done := (tiers.filter fun t => d.groupComplete k t.2.2 && (t.1 != 4 || d.domainEmpty ctx knum)).map fun t => (t.1, t.2.1, ctx, knum)
    { d with sched := { d.sched with groups := d.sched.groups ++ done } }

/-- A RUNNING kernel whose domain group completes is DRAINING (R310). -/
def Dev.drainKernel (d : Dev) (ctx knum : Nat) : Dev :=
  match d.kernel? ctx knum with
  | none => d
  | some k => if k.st == 2 && d.domainEmpty ctx knum then d.onKernel ctx knum fun k => { k with st := 5 } else d

/-- A thread leaves its slot for good. -/
def Dev.endThread (d : Dev) (tid : Nat) : Dev :=
  let t := d.thread tid
  (((d.freeThread tid).endCoreGroup t.ctx t.knum (tid / 64)).reportGroups t.ctx t.knum (tid / 64)).drainKernel t.ctx t.knum

/-- The context of a thread: a walker's is its core's (R333). -/
def Dev.ctxOf (d : Dev) (tid : Nat) : Nat := if tid % 64 == 63 then wbits (d.core (tid / 64)).ctxnum 15 0 else (d.thread tid).ctx

/-- The context of the issuing thread. -/
def Live.myCtx (l : Live) : Nat := l.dev.ctxOf l.dev.cur

/-- Sends a request of the issuing thread, or parks it when there is no credit (R39, R40, R71). -/
def sendReq (b : Boot) (l : Live) (dest : Dest) (home : Option Nat) (flits : Nat) (mk : Nat → Req) (k : Nat → Live → Out) : Out :=
  match l.sendBlocked l.myCtx dest (relayRoute b l (nodeEnd l.myCluster) none dest home) with
  | some (n, p) => .park l (.relay n p)
  | none =>
    let r := l.addReq mk
    k r.1 (r.2.send b l.myCtx r.1 false (nodeEnd l.myCluster) none dest home flits)

/-- A request of the issuing thread. -/
def Live.newReq (l : Live) (kind : ReqKind) (cls : Cls) (va : Word) (dest : Dest) (id : Nat) : Req :=
  { id, kind, tid := l.dev.cur, ctx := l.myCtx, pc := l.th.pc, va, cls, stage := .going, src := l.myCluster, dest }

/-- A unit's reply to a request sets out (R39); one to the unit's own cluster needs no message. -/
def Live.reply (b : Boot) (l : Live) (r : Req) (home : Option Nat) (flits : Nat) (f : Req → Req) : Live :=
  if r.dest == nodeEnd r.src then l.onReq r.id fun r => { f r with stage := .replied }
  else (l.onReq r.id fun r => { f r with stage := .back }).send b r.ctx r.id true r.dest home (nodeEnd r.src) none flits

/-- The kernel of a thread is halting or ending: an instruction that stops between attempts does not go on (R171, R376). -/
def Live.halting (l : Live) (tid : Nat) : Bool :=
  let t := l.dev.thread tid
  match l.dev.kernel? t.ctx t.knum with
  | some k => k.st == 3 || k.st == 6
  | none => false

/-- An instruction that stops between attempts when its kernel halts: the thread is halted, to execute it again (R111). -/
def Live.haltFlight (l : Live) (tid : Nat) : Live := l.onThread tid fun t => { t with flight := .none, retries := 0, st := .halted false }

/-- The thread of a request waits for it. -/
def Live.awaits (l : Live) (r : Req) : Option Word :=
  match (l.dev.thread r.tid).flight with
  | .request n next => if n == r.id then some next else none
  | _ => none

/-- The instruction that waited completes (R70). -/
def Live.complete (l : Live) (tid : Nat) (next : Word) : Live :=
  l.onThread tid fun t => { t with flight := .none, pc := next, retries := 0 }

/-- The instruction that waited parks instead (R70). -/
def Live.parkFlight (l : Live) (tid : Nat) (p : Park) : Live :=
  l.onThread tid fun t => { t with flight := .none, st := .parked p }

/-- The instruction that waited traps (R70, R414), with a record from the source src; the failure counts as performed where said. -/
def Live.trapFrom (b : Boot) (l : Live) (src tid cause detail : Nat) (addr : Word) (performed : Bool) : Live :=
  takeTrap b tid cause detail src (if performed then 2 else 0) (l.dev.thread tid).pc addr 0 none l

/-- The instruction that waited traps: the record is the thread's own. -/
def Live.trapFlight (b : Boot) (l : Live) (tid cause detail : Nat) (addr : Word) (performed : Bool) : Live := l.trapFrom b 0 tid cause detail addr performed

/-- An asynchronous return reaches a register of a thread (R115, R116); one whose slot no longer holds a thread of the context is dropped. -/
def Live.land (l : Live) (tid ctx reg : Nat) (v : Word) : Live :=
  if (l.dev.thread tid).live && l.dev.ctxOf tid == ctx then l.map fun d => d.setG tid reg v else l

/-- Waits, as an ORDER park, until every earlier access is performed and, where asked, REDOUT is 0 (R125, R220). -/
def waitOrder (l : Live) (reds : Bool) (k : Unit → Out) : Out :=
  if l.dev.pendingAccess l.dev.cur then .park l (.order (if reds then .all else .accesses))
  else if reds && l.dev.redOut l.dev.cur != 0 then .park l (.order .all)
  else k ()

end Sys2Proof.Machine
end

