-- ==== Sys2Proof/Machine/Group.lean ====
section
/-!
DEFINITION. Work lists and the balancer (12_group.md), phasers (13_barrier.md).
-/

namespace Sys2Proof.Machine

/-- A core's work list. -/
def Dev.list (d : Dev) (core : Nat) : WorkList := tget d.work {} core

/-- Changes a core's work list. -/
def Live.onList (l : Live) (core : Nat) (f : WorkList → WorkList) : Live :=
  l.map fun d => { d with work := tput d.work core (f (d.list core)) }

/-- The work-list trap (R258, R259). -/
def workTrap (l : Live) (d : Nat) : Out := .trap l 0xA5 d 0

/-- The issuing thread's kernel holds a list. -/
def Live.holds (l : Live) (core : Nat) : Bool :=
  (l.dev.list core).holder == some (l.th.ctx, l.th.knum)

/-- WPUSH (R258): a release; 1 for a full list, 2 for a zero entry, 3 without the list. -/
def execWpush (x : Ext) (s : State) : Host.Outcome State Fault Refusal :=
  instrX s x [x.a] [] fun _ l =>
    waitOrder l false fun _ =>
      if !l.holds l.myCore then workTrap l 3
      else if l.g x.a = 0 then workTrap l 2
      else if 64 ≤ (l.dev.list l.myCore).items.length then workTrap l 1
      else .done (l.onList l.myCore fun w => { w with items := w.items ++ [l.g x.a] })

/-- WPOP (R258): the tail entry, or 0 from an empty list. -/
def execWpop (x : Ext) (s : State) : Host.Outcome State Fault Refusal :=
  instrX s x [x.d] [] fun _ l =>
    if !l.holds l.myCore then workTrap l 3
    else
      let items := (l.dev.list l.myCore).items
      .done ((l.onList l.myCore fun w => { w with items := items.dropLast }).setG x.d (items.getLast?.getD 0))

/-- WLEN (R258). -/
def execWlen (x : Ext) (s : State) : Host.Outcome State Fault Refusal :=
  instrX s x [x.d] [] fun _ l =>
    if !l.holds l.myCore then workTrap l 3
    else .done (l.setG x.d (BitVec.ofNat 64 (l.dev.list l.myCore).items.length))

/-- BALCFG (R259): the parameters of every list of the cluster that the kernel holds. -/
def execBalcfg (x : Ext) (s : State) : Host.Outcome State Fault Refusal :=
  instrX s x [x.a, x.b] [] fun _ l =>
    let cores := ((List.range 8).map (l.myCluster * 8 + ·)).filter l.holds
    if cores.isEmpty then workTrap l 3
    else if wbits (l.g x.a) 63 16 != 0 || wbits (l.g x.b) 63 6 != 0 then workTrap l 4
    else .done (cores.foldl (fun l c => l.onList c fun w => { w with interval := wbits (l.g x.a) 15 0, thr := wbits (l.g x.b) 5 0 }) l)

/-- The neighbour a source gives to (R260): the one with the shorter sampled list, the lower index on a tie. -/
def balanceTarget (lens : List (Nat × Nat)) (s : Nat) : Option (Nat × Nat) :=
  match lens.find? (fun e => e.1 + 1 == s && e.1 / 8 == s / 8), lens.find? (fun e => e.1 == s + 1 && e.1 / 8 == s / 8) with
  | some a, some b => some (if b.2 < a.2 then b else a)
  | some a, none => some a
  | none, b => b

/-- BALANCE_INSTANT (R260): lengths are sampled, and entries leave the heads of the sources. A new instant waits until all moves of the
kernel have been inserted. -/
def execBalanceInstant (cluster ctx knum : Nat) (s : State) : Host.Outcome State Fault Refusal :=
  event s fun _ l =>
    let cores := ((List.range 8).map (cluster * 8 + ·)).filter fun c => (l.dev.list c).holder == some (ctx, knum)
    let lens := cores.map fun c => (c, (l.dev.list c).items.length)
    let thr := fun c => (l.dev.list c).thr
    if (l.dev.cluster cluster).moves.any (fun m => m.ctx == ctx && m.knum == knum) then l
    else
      cores.foldl (fun l' c =>
        let n := (lens.find? fun e => e.1 == c).elim 0 Prod.snd
        if (l.dev.list c).interval == 0 || n ≤ thr c then l'
        else match balanceTarget lens c with
          | none => l'
          | some (t, nt) =>
            let m := Nat.min (n - thr c) ((n - nt) / 2)
            if thr t < nt || m == 0 then l'
            else
              let items := (l'.dev.list c).items
              (l'.onList c fun w => { w with items := items.drop m }).onCluster cluster fun r =>
                { r with moves := r.moves ++ [{ core := t, ctx, knum, items := items.take m }] }) l

/-- A move can end now: its target's list has room for every entry of it, or belongs to another by now (R255; assumption 92). -/
def Move.fits (m : Move) (d : Dev) : Bool :=
  (d.list m.core).holder != some (m.ctx, m.knum) || decide ((d.list m.core).items.length + m.items.length ≤ 64)

/-- BALANCE_INSERT (R260): the oldest entries taken whose target has room are appended at its tail; without its holder they are discarded and
counted (R257). -/
def execBalanceInsert (cluster : Nat) (s : State) : Host.Outcome State Fault Refusal :=
  event s fun _ l =>
    match (l.dev.cluster cluster).moves.find? fun m => m.fits l.dev with
    | none => l
    | some m =>
      let l := l.onCluster cluster fun r => { r with moves := r.moves.erase m }
      if (l.dev.list m.core).holder == some (m.ctx, m.knum) then l.onList m.core fun w => { w with items := w.items ++ m.items }
      else l.map fun d => d.onKernel m.ctx m.knum fun k => { k with wldisc := k.wldisc + m.items.length }

/-- CORE_RELEASE (R253): the scheduler releases a core whose core group has completed. -/
def execCoreRelease (ctx knum lc : Nat) (s : State) : Host.Outcome State Fault Refusal :=
  event s fun _ l =>
    match l.dev.kernel? ctx knum with
    | none => l
    | some k =>
      match k.cores[lc]? with
      | none => l
      | some core =>
        if k.st == 2 && l.dev.coreGroupEmpty ctx knum core && !shas k.released lc then
          l.map fun d => d.onKernel ctx knum fun k => { k with released := sinsert k.released lc }
        else l

/-- A phaser of a unit. -/
def Dev.phaser (d : Dev) (unit idx : Nat) : Phaser := tget d.phasers {} (unit * 32 + idx)

/-- Writes a phaser. -/
def Live.setPhaser (l : Live) (unit idx : Nat) (p : Phaser) : Live :=
  l.map fun d => { d with phasers := tput d.phasers (unit * 32 + idx) p }

/-- LCLU of a phaser handle (R261). -/
def phLclu (h : Word) : Nat := wbits h 55 48
/-- WPH of a phaser handle (R261). -/
def phWph (h : Word) : Nat := wbits h 31 16
/-- RSIG of a phaser handle (R261). -/
def phRsig (h : Word) : Bool := h.getLsbD 15
/-- RWAIT of a phaser handle (R261). -/
def phRwait (h : Word) : Bool := h.getLsbD 14
/-- IDX of a phaser handle (R261). -/
def phIdx (h : Word) : Nat := wbits h 4 0

/-- A phaser handle (R261). -/
def phHandle (lclu gen wph : Nat) (rsig rwait : Bool) (idx : Nat) : Word :=
  BitVec.ofNat 64 (2 ^ 63 + lclu * 2 ^ 48 + gen * 2 ^ 32 + wph * 2 ^ 16 + rsig.toNat * 2 ^ 15 + rwait.toNat * 2 ^ 14 + idx)

/-- The part of the handle check that the issuing NI makes (R262): the phaser's cluster. -/
def phUnit (k : Option Kernel) (h : Word) : Option Nat :=
  if !h.getLsbD 63 || wbits h 62 56 != 0 || wbits h 13 5 != 0 then none
  else match k with
    | none => none
    | some k => k.clusters[phLclu h]?

/-- The completion rule (R264) on a phaser's counts: the phaser and whether a phase completed. -/
def phRule (p : Phaser) (drop : Bool) : Nat → Phaser × Bool
  | 0 => (p, false)
  | n + 1 =>
    if p.arrived < p.sigreg || (p.sigreg == 0 && !drop) then (p, false)
    else
      let q := { p with arrived := p.arrived - p.sigreg, ph := (p.ph + 1) % 2 ^ 32 }
      if p.sigreg == 0 then (q, true) else ((phRule q drop n).1, true)

/-- Applies the completion rule and wakes every wait registration of the phaser when a phase completes (R264). -/
def Live.phComplete (l : Live) (unit idx : Nat) (p : Phaser) (drop : Bool) : Live :=
  let r := phRule p drop 65536
  let l := l.setPhaser unit idx r.1
  if !r.2 then l
  else l.map fun d =>
    { d with phWaits := d.phWaits.filter (fun w => w.1 != unit || w.2.1 != idx),
             wakes := (d.phWaits.filter (fun w => w.1 == unit && w.2.1 == idx)).foldl (fun s w => sinsert s w.2.2) d.wakes }

/-- What a phaser unit answers. -/
inductive PhAnswer where
  /-- the operation has been applied; the word it returns -/
  | ok (l : Live) (out : Word)
  /-- the phaser trap with this DETAIL; nothing has changed (R273) -/
  | trap (d : Nat)
  /-- the phase is not complete; whether a wait registration was made (R269) -/
  | wait (l : Live) (registered : Bool) (phase : Nat)

/-- The wait of R269. -/
def phWait (l : Live) (unit tid : Nat) (h : Word) : PhAnswer :=
  let p := l.dev.phaser unit (phIdx h)
  let d := (p.ph % 65536 + 65536 - phWph h) % 65536
  if 1 ≤ d && d ≤ 0x7FFF then .ok l (setBits h 16 16 (phWph h + 1))
  else
    let l := l.map fun x => { x with wakes := serase x.wakes tid }
    if 128 ≤ (l.dev.phWaits.filter fun w => w.1 == unit).length then .wait l false (phWph h)
    else .wait (l.map fun x => { x with phWaits := x.phWaits ++ [(unit, phIdx h, tid)] }) true (phWph h)

/-- What a phaser request does at its unit (R262 to R271). The operation is the instruction's minor; 8 is the drop of an ended thread, 9 the
registration of a SPAWN. For PHREG mode holds G[B], and 2^64 more when the thread's JOIN is set; for PHNEXT it is 1 once the signal has been
counted. -/
def phaserDo (l : Live) (unit op : Nat) (h : Word) (mode tid ctx knum : Nat) : PhAnswer :=
  let idx := phIdx h
  let p := l.dev.phaser unit idx
  if p.st != 1 || p.ctx != ctx || p.knum != knum || p.gen != wbits h 47 32 then .trap 1
  else
    match op with
    | 1 =>
      let sig := mode % 2 == 1
      let wait := mode / 2 % 2 == 1
      let join := mode / 4 % 2 == 1
      if mode % 2 ^ 64 / 8 != 0 || (join && (sig || wait)) then .trap 6
      else if (sig && phRsig h) || (wait && phRwait h) || (join && mode / 2 ^ 64 != 0) then .trap 5
      else
        let q := { p with sigreg := p.sigreg + (sig || join).toNat, waitreg := p.waitreg + wait.toNat }
        if 65535 < q.sigreg || 65535 < q.waitreg then .trap 2
        else
          let h1 := if wait then setBits h 16 16 p.ph else h
          .ok (l.setPhaser unit idx q) (h1 ||| (if sig then 1#64 <<< 15 else 0) ||| (if wait then 1#64 <<< 14 else 0))
    | 2 =>
      let h1 := setBits h 14 2 0
      if (phRsig h && p.sigreg == 0) || (phRwait h && p.waitreg == 0) then .trap 3
      else
        let q := { p with sigreg := p.sigreg - (phRsig h).toNat, waitreg := p.waitreg - (phRwait h).toNat }
        if phRsig h then .ok (l.phComplete unit idx q true) h1 else .ok (l.setPhaser unit idx q) h1
    | 3 =>
      if !phRsig h then .trap 7
      else if p.arrived == 65535 then .trap 2
      else .ok (l.phComplete unit idx { p with arrived := p.arrived + 1 } false) h
    | 4 => if !phRwait h then .trap 7 else phWait l unit tid h
    | 5 =>
      if !phRsig h || !phRwait h then .trap 7
      else if mode == 1 then phWait l unit tid h
      else if p.arrived == 65535 then .trap 2
      else phWait (l.phComplete unit idx { p with arrived := p.arrived + 1 } false) unit tid h
    | 6 =>
      if p.sigreg != 0 || p.waitreg != 0 || p.arrived != 0 || l.dev.phWaits.any (fun w => w.1 == unit && w.2.1 == idx) then .trap 4
      else .ok (l.setPhaser unit idx { gen := (p.gen + 1) % 65536 }) h
    | 7 => .ok l (BitVec.ofNat 64 (p.sigreg * 2 ^ 48 + p.waitreg * 2 ^ 32 + p.arrived * 2 ^ 16 + p.ph % 65536))
    | 8 =>
      if p.sigreg == 0 then .trap 3
      else .ok (l.phComplete unit idx { p with sigreg := p.sigreg - 1 } true) h
    | _ =>
      if p.sigreg == 65535 then .trap 2
      else .ok (l.setPhaser unit idx { p with sigreg := p.sigreg + 1 }) h

/-- What a completed phaser instruction writes (R270): its register, JOIN, and the end of PHNEXT's record. -/
def phWrite (l : Live) (tid op : Nat) (h : Word) (mode dst : Nat) (out : Word) : Live :=
  let l := if op == 3 || op == 6 then l else l.map fun d => d.setG tid dst out
  l.onThread tid fun t =>
    { t with join := if op == 1 && mode / 4 % 2 == 1 then some h else t.join, phNext := if op == 5 then false else t.phNext }

/-- PHNEXT records that its signal has been counted (R270). -/
def phRecord (l : Live) (tid op : Nat) : Live := if op == 5 then l.onThread tid fun t => { t with phNext := true } else l

/-- A phaser instruction on a handle (R262, R270): at once when the phaser is in the issuer's cluster, else by a relay message. -/
def phaserBody (b : Boot) (l : Live) (op : Nat) (h : Word) (mode : Nat) (dst : BitVec 7) : Out :=
  match phUnit l.myKernel h with
  | none => .trap l 0xA4 1 0
  | some unit =>
    if unit == l.myCluster then
      match phaserDo l unit op h mode l.dev.cur l.th.ctx l.th.knum with
      | .trap d => .trap l 0xA4 d 0
      | .ok l out => .done (phWrite l l.dev.cur op h mode dst.toNat out)
      | .wait l reg ph => .park (phRecord l l.dev.cur op) (.phaser unit (phIdx h) ph reg)
    else
      sendReq b l (.cluster unit) none 1 (l.newReq (.phaser op h mode dst.toNat) .plain (BitVec.ofNat 64 l.th.knum) (.cluster unit)) fun id l => .wait l (.request id)

/-- PHNEW (R270): the lowest FREE phaser of the issuer's cluster, or 0. -/
def execPhnew (x : Ext) (s : State) : Host.Outcome State Fault Refusal :=
  instrX s x [x.d, x.a] [] fun _ l =>
    let a := l.g x.a
    if wbits a 63 2 != 0 then .trap l 0xA4 6 0
    else match firstFrom 0 32 fun i => (l.dev.phaser l.myCluster i).st == 0 with
      | none => .done (l.setG x.d 0)
      | some i =>
        let p := l.dev.phaser l.myCluster i
        let q : Phaser := { st := 1, gen := p.gen, ctx := l.th.ctx, knum := l.th.knum, sigreg := (a.getLsbD 0).toNat, waitreg := (a.getLsbD 1).toNat }
        .done ((l.setPhaser l.myCluster i q).setG x.d (phHandle l.th.lclu p.gen 0 (a.getLsbD 0) (a.getLsbD 1) i))

/-- PHREG (R270). -/
def execPhreg (x : Ext) (s : State) : Host.Outcome State Fault Refusal :=
  instrX s x [x.a, x.b] [] fun b l =>
    phaserBody b l 1 (l.g x.a) ((l.g x.b).toNat + (if l.th.join.isSome then 2 ^ 64 else 0)) x.a

/-- PHDROP (R270): after a release wait. -/
def execPhdrop (x : Ext) (s : State) : Host.Outcome State Fault Refusal :=
  instrX s x [x.a] [] fun b l =>
    if (phUnit l.myKernel (l.g x.a)).isNone then .trap l 0xA4 1 0
    else waitOrder l true fun _ => phaserBody b l 2 (l.g x.a) 0 x.a

/-- PHSIG (R270): after a release wait. -/
def execPhsig (x : Ext) (s : State) : Host.Outcome State Fault Refusal :=
  instrX s x [x.a] [] fun b l =>
    if (phUnit l.myKernel (l.g x.a)).isNone then .trap l 0xA4 1 0
    else waitOrder l true fun _ => phaserBody b l 3 (l.g x.a) 0 x.a

/-- PHWAIT (R269, R270). -/
def execPhwait (x : Ext) (s : State) : Host.Outcome State Fault Refusal :=
  instrX s x [x.a] [] fun b l => phaserBody b l 4 (l.g x.a) 0 x.a

/-- PHNEXT (R270): its signal after a release wait, once; then its wait. -/
def execPhnext (x : Ext) (s : State) : Host.Outcome State Fault Refusal :=
  instrX s x [x.a] [] fun b l =>
    if (phUnit l.myKernel (l.g x.a)).isNone then .trap l 0xA4 1 0
    else if l.th.phNext then phaserBody b l 5 (l.g x.a) 1 x.a
    else waitOrder l true fun _ => phaserBody b l 5 (l.g x.a) 0 x.a

/-- PHFREE (R266, R270). -/
def execPhfree (x : Ext) (s : State) : Host.Outcome State Fault Refusal :=
  instrX s x [x.a] [] fun b l => phaserBody b l 6 (l.g x.a) 0 x.a

/-- PHQ (R271). -/
def execPhq (x : Ext) (s : State) : Host.Outcome State Fault Refusal :=
  instrX s x [x.d, x.a] [] fun b l => phaserBody b l 7 (l.g x.a) 0 x.d

/-- PHASER_REQUEST (R264): a request takes effect at its unit, and its reply sets out. -/
def execPhaserRequest (req : Nat) (s : State) : Host.Outcome State Fault Refusal :=
  event s fun b l =>
    match l.req? req with
    | none => l
    | some r =>
      match r.kind, r.dest, l.reach r with
      | .phaser op h mode _, .cluster unit, some l =>
        match phaserDo l unit op h mode r.tid r.ctx (wbits r.va 31 0) with
        | .trap d => l.reply b r none 1 fun r => { r with fail := some (0xA4, d, false) }
        | .ok l out => l.reply b r none 1 fun r => { r with out }
        | .wait l reg ph => l.reply b r none 1 fun r => { r with park := some (.phaser unit (phIdx h) ph reg) }
      | _, _, _ => l

/-- The drop of a join registration by a cluster's NI (R125, R267): at once in its own cluster, else by a relay message. The numbers of the thread,
its logical core × 65,536 + LTHREAD, stand in the request for a record (R274). -/
def dropJoinOf (b : Boot) (src tid ctx knum numbers : Nat) (pc h : Word) (l : Live) : Live :=
  match phUnit (l.dev.kernel? ctx knum) h with
  | none => l
  | some unit =>
    if unit == src then
      match phaserDo l unit 8 h 0 tid ctx knum with
      | .ok l _ => l
      | _ => l
    else
      let r := l.addReq fun id =>
        { id, kind := .phaser 8 h numbers 0, tid, ctx, pc, va := BitVec.ofNat 64 knum, cls := .plain, stage := .going, src, dest := .cluster unit }
      r.2.send b ctx r.1 false (.cluster src) none (.cluster unit) none 1

/-- The drop of a thread's join registration at its end (R125, R267). -/
def dropJoin (b : Boot) (tid : Nat) (h : Word) (l : Live) : Live :=
  let t := l.dev.thread tid
  dropJoinOf b (tid / 512) tid t.ctx t.knum (t.lcore * 65536 + t.lthread) t.pc h l

/-- PHASER_RETRY_TIMEOUT (R269): a thread whose registration was refused re-executes after one turn without a wake. -/
def execPhaserRetryTimeout (tid : Nat) (s : State) : Host.Outcome State Fault Refusal :=
  event s fun _ l => l.onThread tid fun t =>
    match t.st with
    | .parked (.phaser _ _ _ false) => { t with st := .ready }
    | _ => t

end Sys2Proof.Machine
end

