-- ==== Sys2Proof/Machine/Operands.lean ====
section
/-!
DEFINITION. Operand forms shared by the scalar and control-flow instructions (R52, R60, R132, R149).
-/

namespace Sys2Proof.Machine

/-- An immediate field sign-extended to 64 bits (R52). -/
def simm {n : Nat} (i : BitVec n) : Word := i.signExtend 64

/-- The address of the fetch block that holds an address (R61). -/
def blockOf (pc : Word) : Word := pc &&& ~~~(0x3F : Word)

/-- The target of a fetch-block displacement (R52). -/
def dispTarget {n : Nat} (pc : Word) (disp : BitVec n) : Word := blockOf pc + (simm disp <<< 6)

/-- Branch(t) (R71, R149): the checks of R62 on a taken branch, before any of its effects. -/
def branchTo (l l' : Live) (t : Word) : Out :=
  if t &&& 0x3F ≠ 0 then .trap l 0x04 0 0
  else if t >>> 48 ≠ 0 then .trap l 0x05 0 0
  else .jump l' t

/-- A shift or rotate count: the operand mod 64 (R134). -/
def shiftCount (n : Word) : Nat := n.toNat % 64

/-- SHL (R134). -/
def shlW (a : Word) (n : Nat) : Word := a <<< n
/-- SHR (R134). -/
def shrW (a : Word) (n : Nat) : Word := a >>> n
/-- SAR: floor division by a power of two (R134). -/
def sarW (a : Word) (n : Nat) : Word := a.sshiftRight n
/-- ROT: rotation left (R134). -/
def rotW (a : Word) (n : Nat) : Word := if n = 0 then a else (a <<< n) ||| (a >>> (64 - n))

/-- Signed minimum (R134). -/
def minS (a b : Word) : Word := if a.slt b then a else b
/-- Signed maximum (R134). -/
def maxS (a b : Word) : Word := if a.slt b then b else a
/-- Unsigned minimum (R134). -/
def minU (a b : Word) : Word := if a.ult b then a else b
/-- Unsigned maximum (R134). -/
def maxU (a b : Word) : Word := if a.ult b then b else a

/-- MULH: bits 127 to 64 of the signed product (R138). -/
def mulHigh (a b : Word) : Word := BitVec.ofInt 64 ((a.toInt * b.toInt) / (2 ^ 64 : Int))
/-- MULHN: bits 127 to 64 of the unsigned product (R138). -/
def mulHighN (a b : Word) : Word := BitVec.ofNat 64 (a.toNat * b.toNat / 2 ^ 64)

/-- DIV: the quotient truncated toward zero (R138). -/
def divS (a b : Word) : Word := BitVec.ofInt 64 (a.toInt.tdiv b.toInt)
/-- REM: the remainder with the dividend's sign (R138). -/
def remS (a b : Word) : Word := BitVec.ofInt 64 (a.toInt.tmod b.toInt)
/-- DIVN (R138). -/
def divU (a b : Word) : Word := BitVec.ofNat 64 (a.toNat / b.toNat)
/-- REMN (R138). -/
def remU (a b : Word) : Word := BitVec.ofNat 64 (a.toNat % b.toNat)

/-- The number of leading zeros of the low n bits. -/
def leadingZeros (a : Word) : Nat → Nat
  | 0 => 0
  | n + 1 => if a.getLsbD n then 0 else 1 + leadingZeros a n

/-- The number of trailing zeros, over n bits from bit i. -/
def trailingZeros (a : Word) (i : Nat) : Nat → Nat
  | 0 => 0
  | n + 1 => if a.getLsbD i then 0 else 1 + trailingZeros a (i + 1) n

/-- The number of one bits among the low n. -/
def onesOf (a : Word) : Nat → Nat
  | 0 => 0
  | n + 1 => (if a.getLsbD n then 1 else 0) + onesOf a n

/-- BREV (R139): bit i of the result is bit 63 − i. -/
def reverseBits (a : Word) : Word := a.reverse

/-- WID and POS of a bit-field immediate (R140). -/
def fieldWid (v : Word) : Nat := wbits v 12 6
/-- POS of a bit-field immediate (R140). -/
def fieldPos (v : Word) : Nat := wbits v 5 0

/-- EXT (R140). -/
def extS (a : Word) (pos wid : Nat) : Word := BitVec.ofInt 64 (sext (a.toNat / 2 ^ pos) wid)
/-- EXTN (R140). -/
def extU (a : Word) (pos wid : Nat) : Word := BitVec.ofNat 64 (a.toNat / 2 ^ pos % 2 ^ wid)
/-- INS (R140). -/
def insW (d a : Word) (pos wid : Nat) : Word := setBits d pos wid a.toNat

/-- A result of a format narrower than a register: integers of .iN sign-extended, everything else zero-extended (R132). -/
def extendFmt (code x : Nat) : Word :=
  if code < 4 then BitVec.ofInt 64 (sext x (fmtBits code)) else BitVec.ofNat 64 (x % 2 ^ fmtBits code)

/-- A three-register integer instruction. -/
def alu3 (s : State) (d a b : BitVec 7) (f : Word → Word → Word) : Host.Outcome State Fault Refusal :=
  instr s 1 [d, a, b] fun _ l => .done (l.setG d (f (l.g a) (l.g b)))

/-- A two-register integer instruction. -/
def alu2 (s : State) (d a : BitVec 7) (f : Word → Word) : Host.Outcome State Fault Refusal :=
  instr s 1 [d, a] fun _ l => .done (l.setG d (f (l.g a)))

/-- An immediate instruction of so many words, with the operand value v. -/
def aluImm (s : State) (len : Nat) (d a : BitVec 7) (v : Word) (f : Word → Word → Word) : Host.Outcome State Fault Refusal :=
  instr s len [d, a] fun _ l => .done (l.setG d (f (l.g a) v))

/-- A division: DIVZERO on a zero divisor (R138). -/
def aluDiv (s : State) (d a b : BitVec 7) (f : Word → Word → Word) : Host.Outcome State Fault Refusal :=
  instr s 1 [d, a, b] fun _ l => if l.g b = 0 then .trap l 0x20 0 0 else .done (l.setG d (f (l.g a) (l.g b)))

/-- A compare into a predicate (R142). -/
def compareTo (l : Live) (pd : BitVec 3) (cc : BitVec 4) (a b : Word) : Out :=
  .done (l.setP pd (intCond cc.toNat 64 a.toNat b.toNat))

/-- The predicate indices of a REG form (R144). -/
def predOp (s : State) (d : BitVec 7) (f : Thread → Bool) : Host.Outcome State Fault Refusal :=
  instr s 1 [] fun _ l => .done (l.onTh fun t => t.setP d.toNat (f t))

/-- A guarded JMP form (R150): taken when P[PG] xor PN. -/
def branchIf (l l' : Live) (pg : BitVec 3) (pn : Bool) (t : Word) : Out :=
  if l.th.p pg.toNat != pn then branchTo l l' t else .done l

/-- CALL's link value: the next fetch block (R150). -/
def linkOf (l : Live) : Word := blockOf l.th.pc + 64

/-- CALL (R150). -/
def callBody (l : Live) (pg : BitVec 3) (pn : Bool) (t : Word) : Out := branchIf l (l.setG 7 (linkOf l)) pg pn t

/-- LOOP (R151). -/
def loopBody (l : Live) (cnt : BitVec 3) (t : Word) : Out :=
  let c := cnt.setWidth 7
  let n := l.g c - 1
  if n ≠ 0 then branchTo l (l.setG c n) t else .done (l.setG c n)

/-- The rounding mode of an extended form, with IM (R57, R90). -/
def modeFor (l : Live) (x : Ext) : Mode × Flags := resolveMode x.rm.toNat l.th.fpmode.toNat

/-- The operand of a scalar floating-point or conversion instruction: the low bits of its register (R132). -/
def fpOperand (code : Nat) (w : Word) : Nat := w.toNat % 2 ^ fmtBits code

/-- Rounds a value into a format with at most one draw, writes the register, sets the flags (R91, R94, R132). -/
def roundInto (l : Live) (x : Ext) (code : Nat) (sat : Bool) (v : Val) (f : Flags) : Out :=
  let m := modeFor l x
  let r := roundDraw code sat m.1 l.th.rng v
  .done (((l.onTh fun t => { t with rng := r.2.2 }).setFlags (f ||| r.2.1 ||| m.2)).setG x.d (extendFmt code r.1))

/-- A scalar floating-point instruction (R146): Val of its operands, an exact result, one rounding. -/
def fpArith (s : State) (x : Ext) (gs : List (BitVec 7)) (f : Mode → (BitVec 7 → Val) → Val × Flags) :
    Host.Outcome State Fault Refusal :=
  instrX s x (x.d :: gs) [] fun _ l =>
    let code := x.dfmt.toNat
    let r := f (modeFor l x).1 fun i => valOf code (fpOperand code (l.g i))
    roundInto l x code false r.1 r.2

/-- FMIN and FMAX (R83, R146). -/
def fpMinMax (s : State) (x : Ext) (wantMax : Bool) : Host.Outcome State Fault Refusal :=
  instrX s x [x.d, x.a, x.b] [] fun _ l =>
    let code := x.dfmt.toNat
    let r := minMaxFp (fpFmt code) wantMax (fpOperand code (l.g x.a)) (fpOperand code (l.g x.b))
    .done ((l.setFlags r.2).setG x.d (BitVec.ofNat 64 r.1))

end Sys2Proof.Machine
end

