-- ==== Sys2Proof/Machine/Thread.lean ====
section
/-!
DEFINITION. Meanings of the thread instructions and of what becomes of threads (06_thread.md); answers to phaser requests.
-/

namespace Sys2Proof.Machine

/-- EXIT (R125, R190, R268): waits, drops the join registration, frees the slot; the walker's slot and a gang thread trap. -/
def execExit (s : State) : Host.Outcome State Fault Refusal :=
  instr s 1 [] fun b l =>
    if l.mySlot == 63 then .trap l 0x08 0 0
    else if (l.dev.gangOf l.dev.cur).isSome then .trap l 0x27 0 0
    else if l.th.landing then .park l (.order .landed)
    else waitOrder l true fun _ =>
      let tid := l.dev.cur
      let free := fun (l : Live) => Out.jump (l.map fun d => d.endThread tid) 0
      match l.th.join with
      | none => free l
      | some h =>
        match phUnit l.myKernel h with
        | none => free l
        | some unit =>
          match (if unit == l.myCluster then none else l.sendBlocked l.th.ctx (.cluster unit) (relayRoute b l (nodeEnd l.myCluster) none (.cluster unit) none)) with
          | some (n, p) => .park l (.relay n p)
          | none => free (dropJoin b tid h l)

/-- YIELD (R126): it completes with L = 6, and its hold counts from then (Live.startHolds). -/
def execYield (s : State) : Host.Outcome State Fault Refusal :=
  instr s 1 [] fun _ l => .done (l.onTh fun t => { t with yieldAt := some ((l.dev.core l.myCore).cycle + 6), hold := none })

/-- YIELD_HOLD_END (R126): 64 issue cycles have passed. -/
def execYieldHoldEnd (tid : Nat) (s : State) : Host.Outcome State Fault Refusal :=
  event s fun _ l => l.onThread tid fun t =>
    match t.hold with
    | some (_, n) => if n ≤ (l.dev.core (tid / 64)).cycle then { t with hold := none } else t
    | none => t

/-- The value of a system register (R117 to R121, R333, R382). -/
def sysRead (b : Boot) (l : Live) (n : Nat) : Word :=
  let t := l.th
  let core := l.dev.core l.myCore
  match n with
  | 0x000 => BitVec.ofNat 64 l.dev.cur
  | 0x001 => BitVec.ofNat 64 (t.lthread % 2 ^ 16)
  | 0x002 => BitVec.ofNat 64 (t.ncore * 65536 + t.lcore)
  | 0x003 => BitVec.ofNat 64 (t.lclu * 2 ^ 32 + l.myCluster)
  | 0x004 => BitVec.ofNat 64 (t.lstk * 2 ^ 32 + stackOf l.myCluster)
  | 0x005 => BitVec.ofNat 64 (b.pkg * 65536 + wbits b.whldesc 57 42)
  | 0x006 => BitVec.ofNat 64 (t.owner * 2 ^ 32 + t.knum)
  | 0x007 => t.jobseed
  | 0x008 => l.dev.status l.dev.cur
  | 0x009 => t.fpmode.setWidth 64
  | 0x00A => BitVec.ofNat 64 (t.wsize * 65536 + t.wbase)
  | 0x00B => BitVec.ofNat 64 (t.tsize * 256 + t.tbase)
  | 0x00C => BitVec.ofNat 64 (l.dev.cluster l.myCluster).cycle
  | 0x00D => BitVec.ofNat 64 (l.turn b)
  | 0x00E => BitVec.ofNat 64 (l.dev.slots % b.wheel)
  | 0x00F => t.faultInfo
  | 0x800 => BitVec.ofNat 64 ((core.misses.find? fun m => m.arrived).elim 0 Miss.va)
  | 0x801 => match core.misses.find? fun m => m.arrived with
    | none => 0
    | some m => BitVec.ofNat 64 (2 ^ 63 + m.jid * 2 ^ 32 + Nat.min m.defers 255 * 2 ^ 24 + m.kind * 2 ^ 16 + m.slot)
  | 0x802 => core.ptroot
  | 0x803 => core.ctxnum
  | _ => core.cmwin

/-- A write of a system register: its RW fields take the bits (R118, R121, R122, R333, R382). -/
def sysWrite (l : Live) (n : Nat) (v : Word) : Live :=
  let core := l.myCore
  let mask := fun (m old : Word) => (v &&& m) ||| (old &&& ~~~m)
  match n with
  | 0x008 => l.onTh fun t => { t with status := v &&& statusMask }
  | 0x009 => l.onTh fun t => { t with fpmode := v.setWidth 3 }
  | 0x00F => l.onTh fun t => { t with faultInfo := v &&& 0xFFFF00FF }
  | 0x802 => l.onCore core fun r => { r with ptroot := mask 0x000FFFFFFFFFC000 r.ptroot }
  | 0x803 => l.onCore core fun r => { r with ctxnum := mask 0xFFFF r.ctxnum }
  | 0x804 => l.onCore core fun r => { r with cmwin := mask 0x3F7F r.cmwin }
  | _ => l

/-- The checks of R122 on a system register number. -/
def sysCheck (l : Live) (n : Nat) (k : Unit → Out) : Out :=
  if !(n ≤ 0x00F || (0x800 ≤ n && n ≤ 0x804)) then .trap l 0x01 2 0
  else if 0x800 ≤ n && !l.privileged then .trap l 0x02 0 0
  else k ()

/-- MFS (R122); check 5 comes before check 6 (R63). -/
def execMfs (d : BitVec 7) (n : BitVec 12) (s : State) : Host.Outcome State Fault Refusal :=
  onLive s fun b l => finish b 1 (sysCheck l n.toNat fun _ =>
    checkWindows l [d.toNat] [] fun _ => checkPresent l [d.toNat] fun _ => .done (l.setG d (sysRead b l n.toNat)))

/-- MTS (R122). -/
def execMts (d : BitVec 7) (n : BitVec 12) (s : State) : Host.Outcome State Fault Refusal :=
  onLive s fun b l => finish b 1 (sysCheck l n.toNat fun _ =>
    if !([0x008, 0x009, 0x00F, 0x802, 0x803, 0x804].contains n.toNat) then .trap l 0x01 3 0
    else checkWindows l [d.toNat] [] fun _ => checkPresent l [d.toNat] fun _ => .done (sysWrite l n.toNat (l.g d)))

/-- The value an instruction reads in a word that is written late (R114, R160): the newest to the writer and from the sixth issue cycle on;
before that some value that was current since, by a free choice. -/
def readLate (l : Live) (tile : Bool) (idx : Nat) (now : Word) : Word × Live :=
  let c := l.dev.core l.myCore
  let olds := (c.late.filter fun e => e.tile == tile && e.idx == idx && e.slot != l.mySlot && decide (c.cycle < e.until_)).map Late.old
  match olds with
  | [] => (now, l)
  | _ =>
    let r := l.choose (olds.length + 1)
    ((olds ++ [now]).getD r.1 now, r.2)

/-- Records a late write of the issuing instruction, which completes after so many issue cycles (R114, R160, R166). -/
def noteLate (l : Live) (tile : Bool) (idx : Nat) (old : Word) (latency : Nat) : Live :=
  l.onCore l.myCore fun c =>
    { c with late := (c.late.filter fun e => decide (c.cycle < e.until_)) ++ [⟨c.cycle + latency, l.mySlot, tile, idx, old⟩] }

/-- MOV cN, gA (R141, R114): visible to every thread six issue cycles later. -/
def execMovToC (a : BitVec 7) (c : BitVec 4) (s : State) : Host.Outcome State Fault Refusal :=
  instr s 1 [a] fun _ l =>
    let k := l.myCore * 16 + c.toNat
    let l := noteLate l false c.toNat (tget l.dev.cregs 0 k) 6
    .done (l.map fun d => { d with cregs := tset d.cregs 0 k (l.g a) })

/-- MOV gD, cN (R141, R114). -/
def execMovFromC (d : BitVec 7) (c : BitVec 4) (s : State) : Host.Outcome State Fault Refusal :=
  instr s 1 [d] fun _ l =>
    let r := readLate l false c.toNat (tget l.dev.cregs 0 (l.myCore * 16 + c.toNat))
    .done (r.2.setG d r.1)

/-- A new thread of a kernel on a core (R108). -/
def newThread (k : Kernel) (core pc base size lthread : Nat) : Thread :=
  let t : Thread := k.number core { st := .ready, pc := BitVec.ofNat 64 pc, wbase := base, wsize := size, tbase := k.tbase, tsize := k.tiles, k0 := BitVec.allOnes 128, k1 := BitVec.allOnes 128, k2 := BitVec.allOnes 128, k3 := BitVec.allOnes 128, lthread, ctx := k.ctx, knum := k.knum, owner := k.owner, jobseed := k.jobseed }
  { t with rng := rngSeed k.jobseed t.lcore (lthread % 2 ^ 16), lthread := lthread % 2 ^ 16 }

/-- Takes the next LTHREAD of a logical core, a counter of 16 bits (R119). -/
def Dev.takeLthread (d : Dev) (k : Kernel) (lc : Nat) : Dev :=
  d.onKernel k.ctx k.knum fun x => { x with nextLt := tput x.nextLt lc ((x.lthread lc + 1) % 2 ^ 16) }

/-- A free ordinary slot and window on a core that is not released (R106, R123, R253). -/
def Dev.findPlace (d : Dev) (k : Kernel) (core size : Nat) : Option (Nat × Nat) :=
  if shas k.released (k.lcOf core) then none
  else match d.freeSlot core 0 56, d.freeWindow core size with
    | some s, some w => some (core * 64 + s, w)
    | _, _ => none

/-- Creates a SPAWN child in a slot (R123 step 6). -/
def Live.createChild (l : Live) (k : Kernel) (tid base size : Nat) (pc : Word) (regs : List Word) (join : Option Word) (landing : Bool) : Live :=
  let core := tid / 64
  let lc := k.lcOf core
  let t := newThread k core pc.toNat base size (k.lthread lc)
  l.map fun d => (d.takeLthread k lc).placeThread tid { t with join, landing } regs

/-- The kernel's core of a logical number has not been populated, though its kernel halts by now (R310, R312). -/
def unpopulated (k : Kernel) (lc : Nat) : Bool := (k.st == 1 || k.st == 3) && decide (k.populated ≤ lc)

/-- The last part of a SPAWN, once its phaser registration is made (R123 step 6, R124): the child is created, or its message sets out. The
slot held for a child in this cluster is place; next is the PC after the SPAWN when it has waited. -/
def spawnFinish (b : Boot) (l : Live) (tid : Nat) (k : Kernel) (pc : Word) (regs : List Word) (lc wsz : Nat) (join : Option Word)
    (dst : Nat) (place : Option (Nat × Nat)) : Live :=
  match place with
  | some (child, base) =>
    (l.createChild k child base wsz pc regs join false).map fun d => d.setG tid dst (BitVec.ofNat 64 child)
  | none =>
    let dest := Dest.cluster (k.cores.getD lc 0 / 8)
    let t : Thread := { pc, wsize := wsz, ctx := k.ctx, knum := k.knum }
    let r := l.addReq fun id =>
      { id, kind := .spawn t regs lc wsz (join.getD 0) dst, tid, ctx := k.ctx, pc := (l.dev.thread tid).pc, va := 0, cls := .plain, stage := .going, src := tid / 512, dest }
    let l := r.2.send b k.ctx r.1 false (.cluster (tid / 512)) none dest none 3
    l.map fun d => d.clearPresent tid dst

/-- The registers that a SPAWN passes on: g1 and on, those of the copy range as the parent's, others 0 (R108). -/
def spawnRegs (l : Live) (first count n : Nat) : List Word :=
  (List.range (n - 1)).map fun i =>
    if decide (first ≤ i + 1) && decide (i + 1 < first + count) then l.dev.getG l.dev.cur (i + 1) else 0

/-- SPAWN's entry (R123). -/
def spawnEntry (l : Live) (x : Ext) : Word :=
  match x.lit with
  | some v => v
  | none => dispTarget l.th.pc x.imm

/-- SPAWN (R123, R124). -/
def execSpawn (x : Ext) (s : State) : Host.Outcome State Fault Refusal :=
  instrX s x [x.d, x.a, x.b, x.c] [] fun b l =>
    let gb := l.g x.b
    let first := wbits gb 6 0
    let count := wbits gb 14 8
    let pc := spawnEntry l x
    let h := l.g x.c
    let join := if h = 0 then none else some h
    match l.myKernel with
    | none => .trap l 0xA0 0 0
    | some k =>
      let lc := (l.g x.a).toNat
      let core := k.cores.getD lc 0
      let far := core / 8 != l.myCluster
      if l.th.ncore ≤ lc || k.cores.length ≤ lc || gb.getLsbD 7 || wbits gb 63 15 != 0 || (count != 0 && first == 0) || decide (l.th.wsize < first + count) ||
          (far && count != 0 && 16 < first + count) then .trap l 0xA0 0 0
      else if pc &&& 0x3F ≠ 0 then .trap l 0x04 0 0
      else if pc >>> 48 ≠ 0 then .trap l 0x05 0 0
      else checkPresent l ((List.range count).map (first + ·)) fun _ => waitOrder l false fun _ =>
        if unpopulated k lc then .park l (.order (.populated lc))
        else
          let place := if far then none else l.dev.findPlace k core l.th.wsize
          if !far && place.isNone then .done (l.setG x.d (BitVec.allOnes 64))
          else
            let dest := Dest.cluster (core / 8)
            let blocked := if far then l.sendBlocked l.th.ctx dest (relayRoute b l (nodeEnd l.myCluster) none dest none) else none
            match blocked with
            | some (n, p) => .park l (.relay n p)
            | none =>
              let regs := spawnRegs l first count (if far then 16 else l.th.wsize)
              let go := fun (l : Live) => Out.done (spawnFinish b l l.dev.cur k pc regs lc l.th.wsize join x.d.toNat place)
              if h = 0 then go l
              else match phUnit l.myKernel h with
                | none => .trap l 0xA4 1 0
                | some unit =>
                  if unit == l.myCluster then
                    match phaserDo l unit 9 h 0 l.dev.cur l.th.ctx l.th.knum with
                    | .trap d => .trap l 0xA4 d 0
                    | .ok l _ => go l
                    | .wait l _ _ => go l
                  else
                    let t : Thread := { pc, wsize := l.th.wsize, wbase := (place.map Prod.snd).getD 0, ctx := k.ctx, knum := k.knum }
                    match l.sendBlocked l.th.ctx (.cluster unit) (relayRoute b l (nodeEnd l.myCluster) none (.cluster unit) none) with
                    | some (n, p) => .park l (.relay n p)
                    | none =>
                      let r := l.addReq fun id => { l.newReq (.spawn t regs lc l.th.wsize h x.d.toNat) .plain 0 dest id with stage := .home, out := BitVec.ofNat 64 (place.elim 0 fun p => p.1 + 1), out2 := 1 }
                      let l := match place with
                        | some (child, base) => r.2.map fun d => d.setThread child { st := .claimed, wbase := base, wsize := l.th.wsize, ctx := k.ctx, knum := k.knum }
                        | none => r.2
                      sendReq b l (.cluster unit) none 1 (l.newReq (.phaser 9 h r.1 0) .plain (BitVec.ofNat 64 k.knum) (.cluster unit)) fun id l => .wait l (.request id)

/-- What a SPAWN that waited for its phaser registration does next: nothing was created when it failed (R123 step 5). The request that stands
for the SPAWN until then has out2 = 1, and out is one more than the slot held for a child in this cluster. -/
def spawnAfterPhaser (b : Boot) (l : Live) (tid sreq : Nat) (ok : Bool) : Live :=
  match l.req? sreq with
  | none => l
  | some r =>
    match r.kind with
    | .spawn t regs lc wsz join dst =>
      let l := l.dropReq sreq
      let place := if r.out = 0 then none else some (r.out.toNat - 1, t.wbase)
      if !ok then (if r.out = 0 then l else l.map fun d => { d with threads := tdel d.threads (r.out.toNat - 1) })
      else match l.dev.kernel? t.ctx t.knum with
        | none => l
        | some k => spawnFinish b l tid k t.pc regs lc wsz (some join) dst place
    | _ => l

/-- PHASER_REPLY (R264, R269, R270): the reply completes its instruction, parks it or traps it; a failed one is a report's (R273). -/
def execPhaserReply (req : Nat) (s : State) : Host.Outcome State Fault Refusal :=
  event s fun b l =>
    match l.req? req with
    | none => l
    | some r =>
      match r.kind, l.reachBack r with
      | .phaser op h mode dst, some l =>
        if r.reported then l
        else
          let next := l.awaits r
          let l := l.dropReq req
          match next with
          | none => l
          | some next =>
            match r.fail, r.park with
            | some (c, d, _), _ =>
              let l := if op == 9 then spawnAfterPhaser b l r.tid mode false else l
              l.trapFlight b r.tid c d 0 false
            | none, some p => phRecord (l.parkFlight r.tid p) r.tid op
            | none, none =>
              let l := if op == 9 then spawnAfterPhaser b l r.tid mode true else phWrite l r.tid op h mode dst r.out
              l.complete r.tid next
      | _, _ => l

/-- SPAWN_REMOTE_CREATE (R124): the destination NI creates the child or refuses, and answers. -/
def execSpawnRemoteCreate (req : Nat) (s : State) : Host.Outcome State Fault Refusal :=
  event s fun b l =>
    match l.req? req with
    | none => l
    | some r =>
      match r.kind, (if r.out2 = 0 then l.reach r else none) with
      | .spawn t regs lc wsz _ _, some l =>
        match l.dev.kernel? t.ctx t.knum with
        | none => l.reply b r none 1 fun r => { r with out := BitVec.allOnes 64 }
        | some k =>
          if unpopulated k lc then l
          else match l.dev.findPlace k (k.cores.getD lc 0) wsz with
            | none => l.reply b r none 1 fun r => { r with out := BitVec.allOnes 64 }
            | some (tid, base) =>
              let l := l.createChild k tid base wsz t.pc regs none true
              let l := if k.st == 3 then l.onThread tid fun t => { t with st := .halted false } else l
              l.reply b r none 1 fun r => { r with out := BitVec.ofNat 64 tid }
      | _, _ => l

/-- Sends the join message of R268 to a thread slot. -/
def sendJoinTo (b : Boot) (l : Live) (src ctx target : Nat) (dest : Dest) (join : Option Word) : Live :=
  let r := l.addReq fun id => { id, kind := .joinMsg target join, tid := target, ctx, pc := 0, va := 0, cls := .plain, stage := .going, src, dest }
  r.2.send b ctx r.1 false (.cluster src) none dest none 1

/-- The join message to a thread slot of this package. -/
def sendJoin (b : Boot) (l : Live) (src ctx target : Nat) (join : Option Word) : Live := sendJoinTo b l src ctx target (.cluster (target / 512)) join

/-- The registration that a cross-cluster SPAWN made for a child that was not created is dropped as by the child's exit (R124): by the parent's
NI, whether or not the parent is still there. -/
def undoSpawnJoin (b : Boot) (l : Live) (r : Req) : Live :=
  match r.kind with
  | .spawn t _ lc _ join _ => if join = 0 then l else dropJoinOf b r.src r.tid r.ctx t.knum (lc % 65536 * 65536) r.pc join l
  | _ => l

/-- SPAWN_REPLY (R124, R268): g[D] takes the child's THREADID, and the join message sets out; or g[D] takes the refusal, and the
registration is dropped. -/
def execSpawnReply (req : Nat) (s : State) : Host.Outcome State Fault Refusal :=
  event s fun b l =>
    match l.req? req with
    | none => l
    | some r =>
      match r.kind, l.reachBack r with
      | .spawn _ _ _ _ join dst, some l =>
        if r.reported then l
        else
          let l := (l.dropReq req).land r.tid r.ctx dst r.out
          if r.out = BitVec.allOnes 64 then undoSpawnJoin b l r
          else if r.dest.away.isSome then sendJoinTo b l r.src r.ctx r.out.toNat r.dest (if join = 0 then none else some join)
          else sendJoin b l r.src r.ctx r.out.toNat (if join = 0 then none else some join)
      | _, _ => l

/-- JOIN_MESSAGE (R268): JOIN of the thread slot takes what the message carries. Where the thread has migrated on before the message landed,
its origin now sends it to the new slot. -/
def execJoinMessage (req : Nat) (s : State) : Host.Outcome State Fault Refusal :=
  event s fun b l =>
    match l.req? req with
    | none => l
    | some r =>
      match r.kind, l.reach r with
      | .joinMsg target join, some l =>
        let l := l.dropReq req
        if r.dest != .cluster (target / 512) then sendJoin b l r.dest.node r.ctx target join
        else if (l.dev.thread target).live then l.onThread target fun t => { t with join, landing := false }
        else l
      | _, _ => l

/-- The slot that an RPUT names holds a thread that takes its write (R127 step 3): READY, PARKED or TRAPPED, of the issuer's context, with
the register in its window. A HALTED thread of the issuer's kernel counts as what it was (R111: its RPUTs are written before the save). -/
def rputOk (d : Dev) (ctx knum target reg : Nat) : Bool :=
  let t := d.thread target
  (match t.st with
    | .ready => true
    | .parked _ => true
    | .trapped => true
    | .halted _ => t.knum == knum
    | _ => false) && d.ctxOf target == ctx && decide (reg < t.wsize)

/-- What an RPUT does to its target's register (R127 step 4). -/
def rputWrite (d : Dev) (target reg : Nat) (v : Word) (empty : Bool) : Dev := if empty then d.clearPresent target reg else d.setG target reg v

/-- RPUT (R127): it waits for earlier accesses, and its write is delivered to a thread of the cluster. D names a register of the target, so
only check 6 applies to it here. A write to a thread of the issuer's own core is made with the instruction, as every write that core makes to its
registers, so that they land in issue order (R116). -/
def execRput (x : Ext) (s : State) : Host.Outcome State Fault Refusal :=
  onLive s fun b l => finish b (Ext.len x) <|
  checkWindows l [x.d.toNat, x.a.toNat, x.b.toNat] [] fun _ =>
  if l.th.p x.pg.toNat == x.pn then .done l else
  checkPresent l [x.a.toNat, x.b.toNat] fun _ =>
    let a := l.g x.a
    let target := l.myCluster * 512 + wbits a 8 0
    if wbits a 62 9 != 0 then .trap l 0xA1 0 0
    else waitOrder l false fun _ =>
      let lc := match l.myKernel with
        | some k => if k.cores.contains (target / 64) && unpopulated k (k.lcOf (target / 64)) then some (k.lcOf (target / 64)) else none
        | none => none
      match lc with
      | some n => .park l (.order (.populated n))
      | none =>
        if target / 64 == l.myCore then
          if rputOk l.dev l.myCtx l.th.knum target x.d.toNat then .done (l.map fun d => rputWrite d target x.d.toNat (l.g x.b) (a.getLsbD 63))
          else .trap l 0xA1 0 0
        else
        let r := l.addReq fun id => { l.newReq (.rput target x.d.toNat (l.g x.b) (a.getLsbD 63)) .plain 0 (.cluster l.myCluster) id with stage := .home }
        .wait r.2 (.request r.1)

/-- An RPUT of the same core to the same register issued earlier and has not been delivered (R116). -/
def rputBefore (d : Dev) (r : Req) (target reg : Nat) : Bool :=
  d.reqs.any fun q => q.id < r.id && q.tid / 64 == r.tid / 64 && (match q.kind with
    | .rput t g _ _ => t == target && g == reg
    | _ => false)

/-- RPUT_DELIVER (R127, R111, R116): the write or empty reaches the target, or the issuer traps. -/
def execRputDeliver (req : Nat) (s : State) : Host.Outcome State Fault Refusal :=
  event s fun b l =>
    match l.req? req with
    | none => l
    | some r =>
      match r.kind, l.awaits r with
      | .rput target reg v empty, some next =>
        if rputBefore l.dev r target reg then l
        else
          let l := l.dropReq req
          if rputOk l.dev r.ctx (l.dev.thread r.tid).knum target reg then (l.map fun d => rputWrite d target reg v empty).complete r.tid next
          else l.trapFlight b r.tid 0xA1 0 0 false
      | _, _ => l

/-- The home cluster of an address, for MIGRATE (R128 step 2). -/
inductive MigHome where
  | cluster (l : Live) (c : Nat)
  | stop (o : Out)

/-- R128 step 2. MIGRATE makes no access: no Strongroom cause applies, and on paths 0x2 and 0x3 the home is a matter of the path and of bits
[29:22] alone. DEDUCED (assumption 102): reserved address bits raise nothing there, and the address trap on paths 0x0 and 0x1, where the address is
translated. -/
def migHome (b : Boot) (l : Live) (a : Word) : MigHome :=
  match wbits a 63 60 with
  | 0 | 1 =>
    if reserved01 a then .stop (.trap l 0x40 0 a)
    else match l.translate b l.myCore (wbits a 47 0) 0 0 with
      | .miss l => .stop (parkTlb l (wbits a 47 0) 0)
      | .fail l c => .stop (.trap l c 0 a)
      | .pa l pa _ => match paHome b pa with
        | some h => .cluster l (h.cluster b)
        | none => .stop (.trap l 0x40 0 a)
  | 2 => .cluster l l.myCluster
  | 3 => .cluster l (wbits a 29 22)
  | _ => .stop (.trap l 0x41 0 a)

/-- The cores of a kernel in a cluster that may take a migrating thread (R130, R253). -/
def Kernel.openCores (k : Kernel) (c : Nat) : List Nat := k.cores.filter fun x => x / 8 == c && !shas k.released (k.lcOf x)

/-- Steps 4 to 6 of R128: the thread sends itself to a cluster and becomes MIGRATING; it goes on there at the given PC. -/
def migrateTo (b : Boot) (l : Live) (c start : Nat) (pc : Word) : Out :=
  match l.myKernel with
  | none => .trap l 0xA2 0 0
  | some k =>
    let cores := k.openCores c
    if cores.isEmpty then .trap l 0xA2 0 0
    else waitOrder l true fun _ =>
      if cores.all (fun x => unpopulated k (k.lcOf x)) then .park l (.order (.populated (k.lcOf (cores.headD 0))))
      else
        sendReq b l (.cluster c) none 3 (l.newReq (.migrate { pc } [] start 0 none) .plain 0 (.cluster c)) fun _ l =>
          .jump (l.onTh fun t => { t with st := .migrating }) l.th.pc

/-- MIGRATE (R128, R236): to the own cluster it has no other effect, but later accesses still follow it, so it waits for earlier ones as
condition 6 of R236 orders every MIGRATE (assumption 86). -/
def execMigrate (x : Ext) (s : State) : Host.Outcome State Fault Refusal :=
  instrX s x [x.a] [] fun b l =>
    let a := l.g x.a + x.lit.getD (simm x.imm)
    if l.th.wsize != 16 || l.th.tsize != 0 then .trap l 0xA2 0 0
    else match migHome b l a with
      | .stop o => o
      | .cluster l c =>
        if c == l.myCluster then waitOrder l true fun _ => .done l
        else migrateTo b l c (wbits a 9 7) (l.th.pc + BitVec.ofNat 64 (4 * Ext.len x))

/-- MIGRATION_PLACE (R130): the arriving thread takes the lowest free guest slot of the first core that has one; its reply sets out.
Returns on their way to the thread's registers follow it (assumption 23). Its tile window has base 0 beside size 0 (R107), and its
FAULTINFO, which the message does not carry, is 0 (assumption 87). -/
def execMigrationPlace (req : Nat) (s : State) : Host.Outcome State Fault Refusal :=
  event s fun b l =>
    match l.req? req with
    | none => l
    | some r =>
      match r.kind, r.dest with
      | .migrate t0 _ start _ none, .cluster c =>
        let t := l.dev.thread r.tid
        match l.dev.kernel? t.ctx t.knum with
        | none => l
        | some k =>
          let cores := k.openCores c
          let order := ((List.range 8).map fun i => c * 8 + (start + i) % 8).filter fun x => cores.contains x && !unpopulated k (k.lcOf x)
          match order.findSome? (fun x => (l.dev.freeSlot x 56 7).map fun sl => x * 64 + sl) with
          | none => l
          | some tid =>
            match l.reach r with
            | none => l
            | some l =>
              let regs := l.dev.windowRegs r.tid 16
              let u := k.number (tid / 64) { st := .guest, wbase := 1904 + 16 * (tid % 64 - 56), wsize := 16, pc := t0.pc, absent := t.absent, preds := t.preds, k0 := BitVec.allOnes 128, k1 := BitVec.allOnes 128, k2 := BitVec.allOnes 128, k3 := BitVec.allOnes 128, status := t.status, fpmode := t.fpmode, rng := t.rng, lthread := t.lthread, ctx := t.ctx, knum := t.knum, owner := t.owner, jobseed := t.jobseed, landing := true }
              let l := l.map fun d => (d.zeroWindow (tid / 64) u.wbase 16).setThread tid { u with absent := u.absent ||| 0xFFFE }
              let l := l.reply b r none 1 fun q => { q with kind := .migrate { u with absent := t.absent } regs start 0 (some tid), out := BitVec.ofNat 64 tid }
              l.map fun d => { d with reqs := d.reqs.map fun q => if q.tid == r.tid && q.id != req then { q with tid } else q }
      | _, _ => l

/-- The registers that a migration flit carries (R129). -/
def flitRegs (n : Nat) : List Nat :=
  match n with
  | 0 => [1, 2]
  | 1 => [3, 4, 5, 6, 7, 8, 9]
  | _ => [10, 11, 12, 13, 14, 15]

/-- MIGRATION_FLIT_LAND (R129, R130): flit 0 makes the guest READY, or HALTED where the kernel is halting (R111); each flit brings its
registers. -/
def execMigrationFlitLand (req : Nat) (s : State) : Host.Outcome State Fault Refusal :=
  event s fun _ l =>
    match l.req? req with
    | none => l
    | some r =>
      match r.kind with
      | .migrate t regs start n (some tid) =>
        if 3 ≤ n then l
        else
          let u := l.dev.thread tid
          let halting := match l.dev.kernel? u.ctx u.knum with
            | some k => k.st == 3 || k.st == 6
            | none => true
          let l := if n == 0 && u.st == .guest then l.onThread tid fun u => { u with st := if halting then .halted false else .ready } else l
          let l := if (l.dev.thread tid).live then l.map fun d => (flitRegs n).foldl (fun d i => if t.absent.getLsbD i then d else d.setG tid i (regs.getD (i - 1) 0)) d else l
          if n == 2 && r.out2 = 1 then l.dropReq req
          else l.onReq req fun q => { q with kind := .migrate t regs start (n + 1) (some tid) }
      | _ => l

/-- Messages with the JOIN of a thread that are still on their way to its old slot are for its new one (R268). -/
def Live.redirectJoin (l : Live) (old new : Nat) : Live :=
  l.map fun d => { d with reqs := d.reqs.map fun q => match q.kind with
    | .joinMsg target join => if target == old then { q with kind := .joinMsg new join } else q
    | _ => q }

/-- A migration that has been placed is accepted (R129, R268): the origin slot becomes FREE with its window zeroed, and the join message sets
out; the request stays while flits are still to land. A thread whose own JOIN is still on its way here is sent it when it comes. -/
def acceptMigration (b : Boot) (l : Live) (r : Req) (landed tid : Nat) : Live :=
  let t := l.dev.thread r.tid
  let l := if t.landing then l.redirectJoin r.tid tid else l
  let l := l.map fun d => (d.zeroWindow (r.tid / 64) t.wbase t.wsize).endThread r.tid
  let l := if 3 ≤ landed then l.dropReq r.id else l.onReq r.id fun q => { q with out2 := 1, stage := .replied }
  if t.landing then l else sendJoin b l r.src r.ctx tid t.join

/-- MIGRATION_ACCEPT (R129, R268): the acceptance reply reaches the origin. -/
def execMigrationAccept (req : Nat) (s : State) : Host.Outcome State Fault Refusal :=
  event s fun b l =>
    match l.req? req with
    | none => l
    | some r =>
      match r.kind, l.reachBack r with
      | .migrate _ _ _ n (some tid), some l => if r.reported || r.out2 = 1 then l else acceptMigration b l r n tid
      | _, _ => l

/-- Whether the wake event of a parked thread has occurred (R110). -/
def wakeMet (d : Dev) (tid : Nat) (p : Park) : Bool :=
  let t := d.thread tid
  match p with
  | .presence r => !t.lacks r
  | .relay n dir => decide ((d.msgs.filter fun m => m.ctx == d.ctxOf tid && m.path.head? == some (n, dir)).length < 8)
  | .tlb => false
  | .granule _ _ => shas d.wakes tid
  | .phaser _ _ _ _ => shas d.wakes tid
  | .order .accesses => !d.pendingAccess tid
  | .order .all => !d.pendingAccess tid && d.redOut tid == 0
  | .order .landed => !t.landing
  | .order .place => decide (d.relOut tid < 8)
  | .order .reds => decide (d.redOut tid < 255)
  | .order (.overlap q) => !d.reqs.any fun r => r.id == q && !r.performed
  | .order (.populated lc) => match d.kernel? t.ctx t.knum with
    | some k => !unpopulated k lc
    | none => true
  | .job h => !d.jobs.any fun e => e.2.handle == h && e.2.ctx == t.ctx && e.2.knum == t.knum && !e.2.ended
  | .jobSpace q lclu => (1000 ≤ q || (d.copyRoom q (tid / 64) && d.copyTurn q (tid / 64))) && d.recordRoom t.ctx t.knum lclu

/-- A parked thread becomes READY, and its instruction re-executes from its start (R109). -/
def wakeThread (tid : Nat) (l : Live) : Live :=
  (l.onThread tid fun t => { t with st := .ready }).map fun d => { d with wakes := serase d.wakes tid }

/-- A reply on its way will park the thread that waits for it. -/
def Live.parkComing (l : Live) (tid : Nat) : Bool := l.dev.reqs.any fun r => r.tid == tid && r.park.isSome && (l.awaits r).isSome

/-- THREAD_WAKE (R110): a parked thread whose wake event has occurred becomes READY; a wake that reaches any other slot is discarded. -/
def execThreadWake (tid : Nat) (s : State) : Host.Outcome State Fault Refusal :=
  event s fun _ l =>
    match (l.dev.thread tid).st with
    | .parked p => if wakeMet l.dev tid p then wakeThread tid l else l
    | _ => if l.parkComing tid then l else l.map fun d => { d with wakes := serase d.wakes tid }

end Sys2Proof.Machine
end

