-- ==== Sys2Proof/Machine/Access.lean ====
section
/-!
DEFINITION. Single-word accesses: what they do at their home, the paths, ordering classes, and how they go out and come back
(10_memory.md).
-/

namespace Sys2Proof.Machine

/-- Bytes of an access's operand format. -/
def fmtBytes (code : Nat) : Nat := fmtBits code / 8

/-- Bytes that an access covers (R220, R224, R225, R227). -/
def MemOp.size : MemOp → Nat
  | .load n _ => n
  | .load128 => 16
  | .store n _ => n
  | .amo _ fmt _ _ => fmtBytes fmt
  | .red _ fmt _ => fmtBytes fmt
  | .gran k fmt _ => if 4 ≤ k then 1 else fmtBytes fmt

/-- An access needs an address that is a multiple of this (R224, R225, R227). -/
def MemOp.align : MemOp → Nat
  | .gran k fmt _ => if 4 ≤ k then 1 else fmtBytes fmt
  | op => op.size

/-- An access returns a value to a register. -/
def MemOp.returns : MemOp → Bool
  | .load _ _ => true
  | .load128 => true
  | .amo _ _ _ _ => true
  | .gran k _ _ => k == 0 || k == 1 || k == 6
  | _ => false

/-- An access counts as a write in translation (R382, R225). -/
def MemOp.writes : MemOp → Bool
  | .load _ _ => false
  | .load128 => false
  | .gran k _ _ => !(k == 0 || k == 6)
  | _ => true

/-- The Strongroom cause of an access (R352). -/
def MemOp.sealedCause : MemOp → Nat
  | .load _ _ => 0x60
  | .load128 => 0x60
  | .gran k _ _ => if k == 0 || k == 1 || k == 6 then 0x60 else 0x61
  | _ => 0x61

/-- The new value of an atomic and its flags (R227); the member is named by its minor. -/
def amoNew (k fmt old b c : Nat) : Nat × Flags :=
  let w := fmtBits fmt
  let lessS := decide (sext old w < sext b w)
  match k with
  | 0 => ((old + b) % 2 ^ w, 0)
  | 1 => (old &&& b, 0)
  | 2 => (old ||| b, 0)
  | 3 => (old ^^^ b, 0)
  | 4 => (if lessS then old else b, 0)
  | 5 => (if lessS then b else old, 0)
  | 6 => (Nat.min old b, 0)
  | 7 => (Nat.max old b, 0)
  | 8 => (b, 0)
  | 9 => (if old = b then c else old, 0)
  | _ =>
    let s := exactSum .rne [valOf fmt old, valOf fmt b]
    let r := roundFp (fpFmt fmt) false .rne 0 s.1
    (r.1, s.2 ||| r.2)

/-- What an access does at its home: the part after it, the words it returns, its flags, its failure, and for a granule instruction that
met the wrong state whether it was registered (R216). -/
structure AtHome where
  l : Live
  out : Word := 0
  out2 : Word := 0
  flags : Flags := 0
  fail : Option (Nat × Nat × Bool) := none
  wait : Option Bool := none

/-- The home that keeps the wait registrations of a granule: a bank of a cluster, or a DRAM channel (R213, R216). -/
def granuleHome (g : Nat) : Nat := if chanOf g < 2000 then chanOf g else 10000 + bitsAt g 25 18 * 64 + bitsAt g 5 0

/-- Wait registrations a home holds (R216). -/
def granulePlaces (g : Nat) : Nat := if chanOf g < 2000 then 64 else 16

/-- The home of a granule sends the wake of a registered thread: a relay message, but within the home's own cluster (R39, R216, R435). -/
def Live.sendWake (b : Boot) (l : Live) (g tid : Nat) : Live :=
  match (paHome b (g * 16)).filter fun h => h != .bank (tid / 512) with
  | none => l.map fun d => { d with wakes := sinsert d.wakes tid }
  | some h =>
    let ctx := (l.dev.thread tid).ctx
    let r := l.addReq fun id => { id, kind := .wake tid, tid := noThread, ctx, pc := 0, va := 0, cls := .plain, stage := .going, src := tid / 512, dest := h.dest }
    r.2.send b ctx r.1 false h.dest (h.via b) (.cluster (tid / 512)) none 1

/-- The threads registered on granules that a test selects are sent their wakes, and their registrations go (R216, R394). -/
def Live.wakeGranules (b : Boot) (l : Live) (p : Nat → Bool) : Live :=
  (l.dev.grWaits.filter fun w => p w.1).foldl (fun l w => l.sendWake b w.1 w.2) (l.map fun d => { d with grWaits := d.grWaits.filter fun w => !p w.1 })

/-- A granule's state changes: every registered thread is sent its wake, and its registration goes (R216). -/
def Live.changeGranule (b : Boot) (l : Live) (g : Nat) (full : Bool) : Live :=
  if l.mem.isFull g == full then l else (l.setFull g full).wakeGranules b (· == g)

/-- A granule instruction meets the wrong state: it is registered, or refused when the table is full (R216). -/
def Live.registerWait (l : Live) (g tid : Nat) : AtHome :=
  let l := l.map fun d => { d with wakes := serase d.wakes tid }
  let used := (l.dev.grWaits.filter fun w => granuleHome w.1 == granuleHome g).length
  if granulePlaces g ≤ used then { l, wait := some false }
  else { l := l.map fun d => { d with grWaits := d.grWaits ++ [(g, tid)] }, wait := some true }

/-- A granule instruction at its home (R215, R225). -/
def granuleAct (b : Boot) (l : Live) (k fmt : Nat) (v : Word) (tid pa : Nat) : AtHome :=
  let g := pa / 16
  let n := fmtBytes fmt
  let full := l.mem.isFull g
  match k with
  | 0 => if full then { l, out := extendFmt fmt (l.mem.read pa n) } else l.registerWait g tid
  | 1 => if full then { l := l.changeGranule b g false, out := extendFmt fmt (l.mem.read pa n) } else l.registerWait g tid
  | 2 => if full then l.registerWait g tid else { l := (l.store pa n v.toNat).changeGranule b g true }
  | 3 => { l := (l.store pa n v.toNat).changeGranule b g true }
  | 4 => { l := l.changeGranule b g false }
  | 5 => { l := l.changeGranule b g true }
  | _ => { l, out := if full then 1 else 0 }

/-- A single-word access at its home, as one step (R217, R219, R224 to R230). -/
def memAct (b : Boot) (l : Live) (op : MemOp) (ctx tid pa : Nat) : AtHome :=
  if l.mem.anyPoison pa (Nat.max 1 op.size) then { l, fail := some (0x45, 0, false) }
  else
    let l := l.chargeBytes b ctx pa op.size
    match op with
    | .load n signed => { l, out := if signed then BitVec.ofInt 64 (sext (l.mem.read pa n) (8 * n)) else BitVec.ofNat 64 (l.mem.read pa n) }
    | .load128 => { l, out := BitVec.ofNat 64 (l.mem.read pa 8), out2 := BitVec.ofNat 64 (l.mem.read (pa + 8) 8) }
    | .store n v => { l := l.store pa n v.toNat }
    | .amo k fmt x y =>
      let w := fmtBits fmt
      let old := l.mem.read pa (fmtBytes fmt)
      let r := amoNew k fmt old (x.toNat % 2 ^ w) (y.toNat % 2 ^ w)
      { l := l.store pa (fmtBytes fmt) r.1, out := if k == 10 then BitVec.ofNat 64 old else extendFmt fmt old, flags := r.2 }
    | .red k fmt x =>
      let w := fmtBits fmt
      let r := amoNew k fmt (l.mem.read pa (fmtBytes fmt)) (x.toNat % 2 ^ w) 0
      { l := l.store pa (fmtBytes fmt) r.1, flags := r.2 }
    | .gran k fmt x => granuleAct b l k fmt x tid pa

/-- The line of the read-only buffer that holds an address, for a context (R218). -/
def roFind (l : Live) (cluster ctx pa : Nat) : Option (BitVec 1024) :=
  ((l.dev.cluster cluster).robuf.find? fun e => e.1 == ctx && e.2.1 == pa / 128).map fun e => e.2.2

/-- Puts a line first in the read-only buffer; the least recently used leaves (R218). -/
def roInstall (l : Live) (cluster ctx pa : Nat) (line : BitVec 1024) : Live :=
  l.onCluster cluster fun c =>
    { c with robuf := ((ctx, pa / 128, line) :: c.robuf.filter fun e => e.1 != ctx || e.2.1 != pa / 128).take 2048 }

/-- A line removed from the read-only buffer (R226). -/
def roDrop (l : Live) (cluster ctx pa : Nat) : Live :=
  l.onCluster cluster fun c => { c with robuf := c.robuf.filter fun e => e.1 != ctx || e.2.1 != pa / 128 }

/-- A read at its home fills the buffer with the line (R218); one with a poisoned granule is not kept, and an older copy that another read has brought goes, so
that no later read is given an older value than this one (R245). -/
def roFill (l : Live) (cluster ctx pa : Nat) : Live :=
  if l.mem.anyPoison (pa / 128 * 128) 128 then roDrop l cluster ctx pa
  else roInstall l cluster ctx pa (BitVec.ofNat 1024 (l.mem.read (pa / 128 * 128) 128))

/-- The value of a load from a line. -/
def roValue (op : MemOp) (line : BitVec 1024) (pa : Nat) : Word × Word :=
  let at_ := fun (o n : Nat) => bitsAt line.toNat (8 * (o + n) - 1) (8 * o)
  let o := pa % 128
  match op with
  | .load n true => (BitVec.ofInt 64 (sext (at_ o n) (8 * n)), 0)
  | .load128 => (BitVec.ofNat 64 (at_ o 8), BitVec.ofNat 64 (at_ (o + 8) 8))
  | op => (BitVec.ofNat 64 (at_ o op.size), 0)

/-- A path 0x1 read at its home: the line is read and fills the buffer of the reader's cluster (R218). -/
def roAct (b : Boot) (l : Live) (op : MemOp) (ctx cluster pa : Nat) : AtHome :=
  if l.mem.anyPoison pa op.size then { l, fail := some (0x45, 0, false) }
  else
    let base := pa / 128 * 128
    let line := BitVec.ofNat 1024 (l.mem.read base 128)
    let v := roValue op line pa
    let l := l.chargeBytes b ctx base 128
    { l := roFill l cluster ctx pa, out := v.1, out2 := v.2 }

/-- A request's operation at its home: path 0x1 reads go through the buffer; path 0x3 accesses are checked against the windows of the
sender's context (R214). -/
def reqAct (b : Boot) (l : Live) (r : Req) (op : MemOp) (pa : Nat) : AtHome :=
  if wbits r.va 63 60 == 1 then roAct b l op r.ctx r.src pa
  else if wbits r.va 63 60 == 3 && !l.ctxWindow r.ctx (bitsAt pa 29 22) (bitsAt pa 21 0) then { l, fail := some (0x44, 0, false) }
  else memAct b l op r.ctx r.tid pa

/-- The four granules of a block whose MAC check fails become poisoned (R338). -/
def Live.poisonBlock (l : Live) (pa : Nat) : Live := (List.range 4).foldl (fun l i => l.write (.poison (pa / 64 * 4 + i) true)) l

/-- A read of a protected context fails its MAC check where its data is not forwarded early (R338, R340). -/
def macStops (l : Live) (ctx pa : Nat) (macFail : Bool) : Bool :=
  macFail && chanOf (pa / 16) < 2000 && (l.dev.ctx ctx).prot && !(l.dev.ctx ctx).efwd

/-- Writes what a memory instruction returns. -/
def Live.memWrite (l : Live) (tid ctx : Nat) (op : MemOp) (dst : Nat) (out out2 : Word) (flags : Flags) : Live :=
  let l := if op.returns then l.land tid ctx dst out else l
  let l := match op with
    | .load128 => l.land tid ctx (dst + 1) out2
    | _ => l
  if (l.dev.thread tid).live then l.onThread tid fun t => { t with status := t.status ||| flags.setWidth 64 } else l

/-- An access of a thread, as issued. -/
structure Acc where
  a : Word
  op : MemOp
  cls : Cls
  dst : Nat
  /-- it may migrate the thread (R223) -/
  auto : Bool

/-- The bytes of two accesses overlap, compared as issued (R236). -/
def overlaps (a : Word) (n : Nat) (c : Word) (m : Nat) : Bool := a.toNat < c.toNat + m && c.toNat < a.toNat + n

/-- The waits of an access's class before it issues (R220). -/
def classWait (l : Live) (i : Acc) (k : Unit → Out) : Out :=
  let tid := l.dev.cur
  let place := fun (k : Unit → Out) => if 8 ≤ l.dev.relOut tid then .park l (.order .place) else k ()
  match i.cls with
  | .plain => waitOrder l false k
  | .release => waitOrder l false fun _ => place k
  | .red => if 255 ≤ l.dev.redOut tid then .park l (.order .reds) else k ()
  | .relaxed => place fun _ =>
      match l.dev.reqs.find? fun r => r.tid == tid && (r.cls == .relaxed || r.cls == .release) && !r.performed && (match r.kind with
        | .mem op _ => overlaps r.va op.size i.a i.op.size
        | _ => false) with
      | some r => .park l (.order (.overlap r.id))
      | none => k ()

/-- The instruction has issued: a plain one waits; another completes, with its destinations' presence bits cleared (R220, R221). -/
def issued (l : Live) (i : Acc) (id : Nat) : Out :=
  match i.cls with
  | .plain => .wait l (.request id)
  | _ =>
    let l := if i.op.returns then l.map fun d => d.clearPresent d.cur i.dst else l
    .done (match i.op with
      | .load128 => l.map fun d => d.clearPresent d.cur (i.dst + 1)
      | _ => l)

/-- What an access performed at issue comes to. -/
def performedNow (i : Acc) (pa : Nat) (r : AtHome) : Out :=
  match r.fail, r.wait with
  | some (c, d, _), _ => .trap r.l c d i.a
  | none, some reg => .park r.l (.granule (pa / 16) reg)
  | none, none => .done (r.l.memWrite r.l.dev.cur r.l.myCtx i.op i.dst r.out r.out2 r.flags)

/-- Sends an access to its home (R211, R219, R220): a plain one to a bank of the thread's own cluster is performed at once (assumption 8). -/
def goHome (b : Boot) (l : Live) (i : Acc) (home : Home) (pa : Nat) : Out :=
  let own := home == .bank l.myCluster
  classWait l i fun _ =>
    let dest := home.dest
    let mk := fun id => { l.newReq (.mem i.op i.dst) i.cls i.a dest id with parts := [{ pa, n := i.op.size }] }
    if own && i.cls == .plain then performedNow i pa (reqAct b l (mk 0) i.op pa)
    else if own then
      let r := l.addReq fun id => { mk id with stage := .home }
      issued r.2 i r.1
    else
      sendReq b l dest (home.via b) 1 mk fun id l => issued l i id

/-- A path 0x1 read (R218): a hit completes at once. -/
def readOnly (b : Boot) (l : Live) (i : Acc) (home : Home) (pa : Nat) : Out :=
  match roFind l l.myCluster l.myCtx pa with
  | some line => classWait l i fun _ =>
      let v := roValue i.op line pa
      .done ((roInstall l l.myCluster l.myCtx pa line).memWrite l.dev.cur l.myCtx i.op i.dst v.1 v.2 0)
  | none => goHome b l i home pa

/-- A plain 64-bit access to the physical aperture (R386). -/
def aperture (b : Boot) (l : Live) (i : Acc) : Out :=
  let pa := wbits i.a 51 0
  if wbits i.a 55 52 != 0 then .trap l 0x43 0 i.a
  else if (paHome b pa).isNone then .trap l 0x5F 0 i.a
  else classWait l i fun _ => performedNow i pa (memAct b l i.op l.myCtx l.dev.cur pa)

/-- An access on path 0xE (R210, R386). -/
def deviceAccess (b : Boot) (l : Live) (i : Acc) : Out :=
  if !l.privileged then .trap l 0x02 0 i.a
  else
    let plain := match i.op with
      | .load 8 _ => i.cls == .plain
      | .store 8 _ => i.cls == .plain
      | _ => false
    if !plain then .trap l 0x41 0 i.a
    else if wbits i.a 59 56 == 1 then aperture b l i
    else classWait l i fun _ =>
      match i.op with
      | .store _ v => match l.writeDevice b (wbits i.a 59 0) (v.setWidth 64) with
        | some l => .done l
        | none => .trap l 0x43 0 i.a
      | _ => match l.readDevice b (wbits i.a 59 0) with
        | some v => .done (l.memWrite l.dev.cur l.myCtx i.op i.dst v 0 0)
        | none => .trap l 0x43 0 i.a

/-- A translated access (R383, R384). -/
def translated (b : Boot) (l : Live) (i : Acc) (k : Live → Home → Nat → Out) : Out :=
  let va := wbits i.a 47 0
  let kind := if i.op.writes then 1 else 0
  match l.translate b l.myCore va kind i.op.sealedCause with
  | .miss l => parkTlb l va kind
  | .fail l c => .trap l c 0 i.a
  | .pa l pa _ => match paHome b pa with
    | some h => k l h pa
    | none => .trap l 0x40 0 i.a

/-- Auto-migration (R131, R223): steps 2 to 6 of MIGRATE to the access's own address come first; an access whose home is the thread's own
cluster goes on here. -/
def autoMigrate (b : Boot) (l : Live) (i : Acc) (k : Live → Out) : Out :=
  let t := l.th
  if !(i.auto && t.status.getLsbD 21 && t.wsize == 16 && t.tsize == 0) then k l
  else match migHome b l i.a with
    | .stop o => o
    | .cluster l c => if c == l.myCluster then k l else migrateTo b l c (wbits i.a 9 7) t.pc

/-- An access by its path, with the checks of R209 to R214; alignment first (R224). -/
def access (b : Boot) (l : Live) (i : Acc) : Out :=
  let a := i.a
  let isLoad := match i.op with
    | .load _ _ => true
    | .load128 => true
    | _ => false
  if a.toNat % i.op.align != 0 then .trap l 0x42 0 a
  else match wbits a 63 60 with
    | 0 => if reserved01 a then .trap l 0x40 0 a else autoMigrate b l i fun l => translated b l i fun l h pa => goHome b l i h pa
    | 1 =>
      if !isLoad then .trap l 0x41 0 a
      else if reserved01 a then .trap l 0x40 0 a
      else translated b l i fun l h pa => readOnly b l i h pa
    | 2 =>
      if wbits a 59 22 != 0 then .trap l 0x40 0 a
      else if !inWindow (l.dev.core l.myCore).cmwin (wbits a 21 0) then .trap l 0x44 0 a
      else goHome b l i (.bank l.myCluster) (clusterPa l.myCluster (wbits a 21 0))
    | 3 =>
      if wbits a 59 30 != 0 || !b.hasCluster (wbits a 29 22) then .trap l 0x40 0 a
      else autoMigrate b l i fun l => goHome b l i (.bank (wbits a 29 22)) (clusterPa (wbits a 29 22) (wbits a 21 0))
    | 6 => .trap l i.op.sealedCause 0 a
    | 14 => deviceAccess b l i
    | _ => .trap l 0x41 0 a

/-- The cluster that gives the route of a home's replies: of a DRAM controller, its home cluster (R435). -/
def replyHome (b : Boot) (pa : Nat) : Option Nat := (paHome b pa).bind (Home.via b)

/-- A single-word request is performed at its home (R219), and its reply sets out. -/
def memServe (b : Boot) (l : Live) (r : Req) (op : MemOp) (macFail : Bool) : Live :=
  match r.parts.head? with
  | none => l
  | some p =>
    let flits := if wbits r.va 63 60 == 1 then 3 else 1
    if macStops l r.ctx p.pa macFail then
      (l.poisonBlock p.pa).reply b r (replyHome b p.pa) 1 fun q => { q with fail := some (0xE0, 0, false) }
    else
      let h := reqAct b l r op p.pa
      match h.fail, h.wait with
      | some f, _ => h.l.reply b r (replyHome b p.pa) 1 fun q => { q with fail := some f }
      | none, some reg => h.l.reply b r (replyHome b p.pa) 1 fun q => { q with park := some (.granule (p.pa / 16) reg) }
      | none, none => h.l.reply b r (replyHome b p.pa) flits fun q => { q with out := h.out, out2 := h.out2, flags := h.flags }

/-- Joins the bytes of parts, first lowest. -/
def joinParts (ps : List Part) : Nat := ps.foldr (fun p acc => p.v % 2 ^ (8 * p.n) + 2 ^ (8 * p.n) * acc) 0

/-- Gives parts their bytes out of a number, first lowest. -/
def fillParts (v : Nat) : List Part → List Part
  | [] => []
  | p :: r => { p with v := v % 2 ^ (8 * p.n) } :: fillParts (v / 2 ^ (8 * p.n)) r

/-- A part of a request has failed (R296); the first failure is kept. -/
def Live.failPart (l : Live) (id i : Nat) (cause : Nat) : Live :=
  l.onReq id fun r => { r with fail := some (r.fail.getD (cause, 0, false)), parts := r.parts.mapIdx fun j p => if j == i then { p with done := true, bad := true } else p }

/-- A part of a request that covers several granules is performed (R219): a read takes its bytes, a write stores them. An engine's read
under WF waits while a granule of it is EMPTY, and under CLR empties it (R215, R299). A read on path 0x1 fills the buffer (R218). -/
def partServe (b : Boot) (l : Live) (r : Req) (i : Nat) (p : Part) (macFail : Bool) : Live :=
  let grs := (List.range ((p.pa + p.n - 1) / 16 + 1 - p.pa / 16)).map (p.pa / 16 + ·)
  let flags := match r.kind with
    | .piece job _ => match l.job? job with
      | some j => (j.wf && !p.write, j.clr && !p.write)
      | none => (false, false)
    | _ => (false, false)
  if l.mem.anyPoison p.pa p.n then l.failPart r.id i 0x45
  else if flags.1 && grs.any (fun g => !l.mem.isFull g) then l
  else if !p.write && macStops l r.ctx p.pa macFail then (l.poisonBlock p.pa).failPart r.id i 0xE0
  else
    let l := l.chargeBytes b r.ctx p.pa p.n
    let v := l.mem.read p.pa p.n
    let l := if p.write then l.store p.pa p.n p.v else l
    let l := if wbits r.va 63 60 == 1 then roFill l r.src r.ctx p.pa else l
    let l := if flags.2 then grs.foldl (fun l g => l.changeGranule b g false) l else l
    l.onReq r.id fun r => { r with parts := r.parts.mapIdx fun j q => if j == i then { q with done := true, v := if p.write then q.v else v } else q }

/-- The queue of a DRAM channel. -/
def Live.dramQueue (l : Live) (ch : Nat) : List (Nat × Nat) := tget l.dev.links.queues [] ch

/-- Writes the queue of a DRAM channel. -/
def Live.setDramQueue (l : Live) (ch : Nat) (q : List (Nat × Nat)) : Live :=
  l.map fun d => { d with links := { d.links with queues := tset d.links.queues [] ch q } }

/-- The context of a queued request. -/
def Live.queuedCtx (l : Live) (e : Nat × Nat) : Nat := (l.req? e.1).elim 0 Req.ctx

/-- Every byte that a copy item reads has come to the copy unit (R298). -/
def Req.readsDone (r : Req) : Bool := r.parts.all fun p => p.write || (p.done && p.leg == 0)

/-- The bytes that a write part of a copy item stores: those its reads brought, in order (R298). -/
def pieceValue (r : Req) (i : Nat) : Nat :=
  ((fillParts (joinParts (r.parts.filter fun p => !p.write)) (r.parts.filter Part.write))[i - (r.parts.filter fun p => !p.write).length]?).elim 0 Part.v

/-- A write part of a copy item, once its reads are done (R296, R298): nothing more is written when a read has failed. -/
def pieceServe (b : Boot) (l : Live) (r : Req) (i : Nat) (p : Part) (macFail : Bool) : Live :=
  if !p.write then partServe b l r i p macFail
  else if !r.readsDone then l
  else if r.parts.any (fun q => !q.write && q.bad) then l.onReq r.id fun r => { r with parts := r.parts.mapIdx fun j q => if j == i then { q with done := true } else q }
  else partServe b l r i (if r.parts.any fun q => !q.write then { p with v := pieceValue r i } else p) macFail

/-- The step of NSWAP or NROOT at the home of its root slot (R214, R375, R376): a 16-byte compare and swap, or a read. -/
def rootServe (b : Boot) (l : Live) (r : Req) (op : Nat) (name expected : BitVec 128) (p : Part) (macFail : Bool) : Live :=
  let home := replyHome b p.pa
  let fail := fun (l : Live) (c : Nat) => l.reply b r home 1 fun q => { q with fail := some (c, 0, false) }
  if wbits r.va 63 60 == 3 && !l.ctxWindow r.ctx (bitsAt p.pa 29 22) (bitsAt p.pa 21 0) then fail l 0x44
  else if l.mem.anyPoison p.pa 16 then fail l 0x45
  else if macStops l r.ctx p.pa macFail then fail (l.poisonBlock p.pa) 0xE0
  else
    let old : BitVec 128 := BitVec.ofNat 128 (l.mem.read p.pa 16)
    let l := l.chargeBytes b r.ctx p.pa 16
    let l := if op == 5 && old == expected then l.store p.pa 16 name.toNat else l
    l.reply b r home 1 fun q => { q with out := old.setWidth 64, out2 := (old >>> 64).setWidth 64 }

/-- Every part of a request has been performed or has failed; its last reply has come back. -/
def Live.closeParts (l : Live) (id : Nat) : Live :=
  l.onReq id fun r => if r.parts.all Part.done then { r with stage := .replied } else r

/-- A part may be served: for reductions, none of the same thread to the same home is before it (R230). -/
def inTurn (b : Boot) (l : Live) (r : Req) (p : Part) : Bool :=
  r.cls != .red || !l.dev.reqs.any fun q => q.tid == r.tid && q.cls == .red && decide (q.id < r.id) && !q.performed && (match q.parts.head? with
    | some x => paHome b x.pa == paHome b p.pa
    | none => false)

/-- Serves a part at its home. -/
def servePart (b : Boot) (l : Live) (r : Req) (i : Nat) (macFail : Bool) : Live :=
  match r.kind, r.parts[i]? with
  | .mem op _, some _ => memServe b l r op macFail
  | .attic op name _ x _ _ _, some p => rootServe b l r op name x p macFail
  | .piece _ _, some p => if p.done then l else (pieceServe b l r i p macFail).replyGroup b r.id p.grp
  | _, some p => if p.done then l else (partServe b l r i p macFail).closeParts r.id
  | _, none => l

/-- A part lies in a cluster-memory bank. -/
def inBank (b : Boot) (p : Part) : Bool :=
  match paHome b p.pa with
  | some (.bank _) => true
  | _ => false

/-- A bank of a cluster grants its core port (R213). -/
def Live.grantBank (l : Live) (cluster bank requester : Nat) : Live := l.onCluster cluster fun c => { c with bankPtr := tput c.bankPtr bank requester }

/-- The copy unit's access to its own cluster takes the core port of the bank (R213). -/
def unitGrant (b : Boot) (l : Live) (r : Req) (p : Part) : Live :=
  match r.kind, paHome b p.pa with
  | .piece _ _, some (.bank c) => if c == r.src then l.grantBank c (p.pa / 16 % 64) 8 else l
  | _, _ => l

/-- The controller's places that a context's requests hold or, on a circuit, have been given (R44). -/
def Live.placesHeld (l : Live) (ctx ch : Nat) : Nat :=
  ((l.dramQueue ch).filter fun e => l.queuedCtx e == ctx).length +
    (l.dev.reqs.map fun r => ((r.parts.zipIdx.filter fun p => r.ctx == ctx && p.1.cnum != 0 && (p.1.leg == 2 || p.1.leg == 3) && !p.1.done &&
      chanOf (p.1.pa / 16) == ch && !(l.dramQueue ch).contains (r.id, p.2))).length).sum

/-- A part of a copy item as its home finds it (R298): it needs no journey, it is at its home, or what carries it has just come. -/
def pieceHere (l : Live) (r : Req) (p : Part) : Option Live :=
  if p.grp = 0 || p.leg == 3 then some l
  else if p.leg == 2 && l.groupCame r.id p false then some (l.takeGroup r.id p false)
  else none

/-- HOME_REQUEST_ARRIVE (R219, R228): a request takes effect at its cluster-memory home, in arrival order. -/
def execHomeRequestArrive (req part : Nat) (macFail : Bool) (s : State) : Host.Outcome State Fault Refusal :=
  event s fun b l =>
    match l.req? req with
    | none => l
    | some r =>
      match r.parts[part]? with
      | none => l
      | some p =>
        if !inBank b p || !inTurn b l r p then l
        else match r.kind with
          | .piece _ _ => match pieceHere l r p with
            | some l => match l.req? req with
              | some r => match r.parts[part]? with
                | some p => (servePart b (unitGrant b l r p) r part macFail).replyGroup b req p.grp
                | none => l
              | none => l
            | none => l
          | _ => match l.reach r with
            | some l => servePart b (unitGrant b l r p) { r with stage := .home } part macFail
            | none => l

/-- A DRAM channel is fenced (R395, R412). -/
def Live.isFenced (l : Live) (ch : Nat) : Bool := if ch < 1000 then shas l.dev.links.fenced ch else shas l.dev.links.lpfenced (ch - 1000)

/-- A part of a copy item joins its controller's queue (R44, R298): the relay message that brought it is taken when all its parts have joined; one that came
on a circuit has had its place since it set out. -/
def joinPiece (b : Boot) (l : Live) (r : Req) (part : Nat) (p : Part) (ch : Nat) : Live :=
  let join := fun (l : Live) => if l.isFenced ch then servePart b l r part false else l.setDramQueue ch (l.dramQueue ch ++ [(r.id, part)])
  if p.cnum != 0 then
    match pieceHere l r p with
    | none => l
    | some l => match l.req? r.id with
      | some q => if (q.parts[part]?).elim true Part.done then l.replyGroup b r.id p.grp else join l
      | none => l
  else if p.leg == 3 then join l
  else match (if p.leg == 2 then l.atEndOf r.id p.grp false false else none) with
    | none => l
    | some m =>
      let l := join (l.onReq r.id fun q => { q with parts := q.parts.mapIdx fun j x => if j == part then { x with leg := 3 } else x })
      if (l.req? r.id).any fun q => (q.group p.grp).any fun x => x.leg == 2 then l else l.takeMsg m

/-- DRAM_REQUEST_ARRIVE (R44, R412): a request joins its context's queue at its controller while one of the 16 places is free; until then
it waits where it stands. A fenced controller fails it as poisoned (R395). -/
def execDramRequestArrive (req part : Nat) (s : State) : Host.Outcome State Fault Refusal :=
  event s fun b l =>
    match l.req? req with
    | none => l
    | some r =>
      match r.parts[part]? with
      | none => l
      | some p =>
        let ch := chanOf (p.pa / 16)
        let q := l.dramQueue ch
        if 2000 ≤ ch || p.done || q.contains (req, part) || (p.cnum == 0 && decide (16 ≤ l.placesHeld r.ctx ch)) || !inTurn b l r p then l
        else match r.kind with
          | .piece _ _ => joinPiece b l r part p ch
          | _ => match l.reach r with
            | none => l
            | some l =>
              if l.isFenced ch then servePart b l { r with stage := .home } part false
              else l.setDramQueue ch (q ++ [(req, part)])

/-- A DRAM controller serves a queued request. -/
def serveQueued (b : Boot) (l : Live) (ch : Nat) (e : Nat × Nat) (macFail : Bool) : Live :=
  let l := l.setDramQueue ch ((l.dramQueue ch).filter (· != e))
  match l.req? e.1 with
  | none => l
  | some r => servePart b l { r with stage := .home } e.2 macFail

/-- The first context after the round-robin pointer that has a request queued (R44). -/
def nextContext (ptr : Nat) (cs : List Nat) : Option Nat :=
  let sorted := cs.foldl sinsert []
  match sorted.find? (ptr < ·) with
  | some c => some c
  | none => sorted.head?

/-- Spare or round-robin service (R44, R412). -/
def serveSpare (b : Boot) (l : Live) (ch : Nat) (macFail : Bool) : Live :=
  let q := l.dramQueue ch
  match nextContext (tget l.dev.links.rr 0 ch) (q.map l.queuedCtx) with
  | none => l
  | some c =>
    match q.find? fun e => l.queuedCtx e == c with
    | none => l
    | some e => serveQueued b (l.map fun d => { d with links := { d.links with rr := tset d.links.rr 0 ch c } }) ch e macFail

/-- N, the access windows of a period, at a rate point (R43). -/
def windowsAt (rate : Nat) : Nat := if rate == 0 then 88 else if rate == 1 then 70 else 56

/-- The next absolute slot from one on in which an access window begins (R43). -/
def windowSlot (n win from_ : Nat) : Nat :=
  let o := 16 + 240 * win / n
  (from_ + 255 - o) / 256 * 256 + o

/-- HBM_ACCESS_WINDOW (R43, R44): the window serves its owner's oldest request, else gives spare service, in the slot of the period in which it begins; a
stalled or fenced controller serves nothing (R45, R395). -/
def execHbmAccessWindow (pc win : Nat) (macFail : Bool) (s : State) : Host.Outcome State Fault Refusal :=
  event s fun b l =>
    let n := windowsAt (wbits (l.hbmrate b) 17 16)
    let a := windowSlot n win (Nat.max l.dev.slots (tget l.dev.links.winNext 0 pc))
    if (l.dev.links.stallAt.any fun s => decide (s ≤ a)) || l.isFenced pc || n ≤ win then l
    else
      let l := (l.reachSlot b a).onLinks fun k => { k with winNext := tput k.winNext pc (a + 1) }
      let owner := tget l.dev.links.windows 0 (pc * 128 + win)
      match (if owner = 0 then none else (l.dramQueue pc).find? fun e => l.queuedCtx e == owner) with
      | some e => serveQueued b l pc e macFail
      | none => serveSpare b l pc macFail

/-- LPDDR_SERVE (R412): the controller serves the next context's oldest request. -/
def execLpddrServe (ch : Nat) (macFail : Bool) (s : State) : Host.Outcome State Fault Refusal :=
  event s fun b l => if l.isFenced (1000 + ch) then l else serveSpare b l (1000 + ch) macFail

/-- The end of a single-word request, its reply being back (R219, R220, R222, R229). -/
def finishMem (b : Boot) (l : Live) (r : Req) (op : MemOp) (dst : Nat) : Live :=
  let next := l.awaits r
  let l := l.dropReq r.id
  match r.cls, next with
  | .plain, none => l
  | .plain, some next =>
    match r.fail, r.park with
    | some (c, d, done), _ => l.trapFlight b r.tid c d r.va done
    | none, some p => l.parkFlight r.tid p
    | none, none => (l.memWrite r.tid r.ctx op dst r.out r.out2 r.flags).complete r.tid next
  | _, _ =>
    match r.fail with
    | some (c, d, done) => if (l.dev.thread r.tid).live then deferFault b r.tid c d r.pc r.va done l else l
    | none => l.memWrite r.tid r.ctx op dst r.out r.out2 r.flags

/-- The reply of a single-word request that a test selects ends it; one that has been reported failed is left to its report. -/
def takeReply (b : Boot) (l : Live) (req : Nat) (ok : MemOp → Cls → Bool) : Live :=
  match l.req? req with
  | none => l
  | some r =>
    match r.kind with
    | .mem op dst =>
      if !ok op r.cls || r.reported then l
      else match l.reachBack r with
        | some l => finishMem b l r op dst
        | none => l
    | _ => l

/-- The data of a read piece of a copy item, or the acknowledgement of a written one, has come back to the copy unit (R298). -/
def Live.pieceBack (l : Live) (r : Req) (write : Bool) : Live :=
  match r.parts.find? fun p => p.leg == 4 && p.write == write && l.groupCame r.id p true with
  | none => l
  | some p => l.takeGroup r.id p true

/-- STORE_ACK_ARRIVE (R219, R298): the acknowledgement of a store, a granule write or a piece that a copy item writes. -/
def execStoreAckArrive (req : Nat) (s : State) : Host.Outcome State Fault Refusal :=
  event s fun b l =>
    match l.req? req with
    | none => l
    | some r => match r.kind with
      | .piece _ _ => l.pieceBack r true
      | _ => takeReply b l req fun op cls => !op.returns && cls != .red

/-- RED_ACK_ARRIVE (R230): up to eight acknowledgements to one thread. -/
def execRedAckArrive (reqs : List Nat) (s : State) : Host.Outcome State Fault Refusal :=
  event s fun b l => (reqs.take 8).foldl (fun l req => takeReply b l req fun _ cls => cls == .red) l

/-- The wake message of a thread that has come to its NI. -/
def Live.wakeAt (l : Live) (tid : Nat) : Option Msg :=
  l.dev.msgs.find? fun m => l.arrived m && (match (l.req? m.req).map Req.kind with
    | some (.wake t) => t == tid
    | _ => false)

/-- GRANULE_WAKE (R216): the wake message reaches its thread, whose instruction re-executes; one that reaches any other slot is discarded. The reply that
parks the thread left the home before the wake, and comes first. -/
def execGranuleWake (tid : Nat) (s : State) : Host.Outcome State Fault Refusal :=
  event s fun _ l =>
    if l.parkComing tid then l
    else
      let m := l.wakeAt tid
      if m.isNone && !shas l.dev.wakes tid then l
      else
        let l := match m with
          | some m => (l.takeMsg m).dropReq m.req
          | none => l.map fun d => { d with wakes := serase d.wakes tid }
        match (l.dev.thread tid).st with
        | .parked (.granule _ _) => wakeThread tid l
        | _ => l

/-- GRANULE_RETRY_TIMEOUT (R216): a thread whose registration was refused wakes after one turn. -/
def execGranuleRetryTimeout (tid : Nat) (s : State) : Host.Outcome State Fault Refusal :=
  event s fun _ l => l.onThread tid fun t =>
    match t.st with
    | .parked (.granule _ false) => { t with st := .ready }
    | _ => t

end Sys2Proof.Machine
end

