-- ==== Sys2Proof/Machine/Crypto.lean ====
section
/-!
DEFINITION. The hash and the cipher that the spec names: SHA-256 (R365) and AES-256 in Galois/counter mode (R353, R354), on byte strings
held as lists of numbers below 256 (assumption 13).
-/

namespace Sys2Proof.Machine

/-- A 32-bit word of a hash. -/
abbrev W32 := BitVec 32

/-- The round constants of SHA-256. -/
def shaK : List W32 :=
  [0x428a2f98, 0x71374491, 0xb5c0fbcf, 0xe9b5dba5, 0x3956c25b, 0x59f111f1, 0x923f82a4, 0xab1c5ed5] ++
  [0xd807aa98, 0x12835b01, 0x243185be, 0x550c7dc3, 0x72be5d74, 0x80deb1fe, 0x9bdc06a7, 0xc19bf174] ++
  [0xe49b69c1, 0xefbe4786, 0x0fc19dc6, 0x240ca1cc, 0x2de92c6f, 0x4a7484aa, 0x5cb0a9dc, 0x76f988da] ++
  [0x983e5152, 0xa831c66d, 0xb00327c8, 0xbf597fc7, 0xc6e00bf3, 0xd5a79147, 0x06ca6351, 0x14292967] ++
  [0x27b70a85, 0x2e1b2138, 0x4d2c6dfc, 0x53380d13, 0x650a7354, 0x766a0abb, 0x81c2c92e, 0x92722c85] ++
  [0xa2bfe8a1, 0xa81a664b, 0xc24b8b70, 0xc76c51a3, 0xd192e819, 0xd6990624, 0xf40e3585, 0x106aa070] ++
  [0x19a4c116, 0x1e376c08, 0x2748774c, 0x34b0bcb5, 0x391c0cb3, 0x4ed8aa4a, 0x5b9cca4f, 0x682e6ff3] ++
  [0x748f82ee, 0x78a5636f, 0x84c87814, 0x8cc70208, 0x90befffa, 0xa4506ceb, 0xbef9a3f7, 0xc67178f2]

/-- The initial state of SHA-256. -/
def shaInit : List W32 := [0x6a09e667, 0xbb67ae85, 0x3c6ef372, 0xa54ff53a, 0x510e527f, 0x9b05688c, 0x1f83d9ab, 0x5be0cd19]

/-- A big-endian 32-bit word of a byte string. -/
def beWord (bs : List Nat) (i : Nat) : W32 :=
  BitVec.ofNat 32 (bs.getD (4 * i) 0 * 2 ^ 24 + bs.getD (4 * i + 1) 0 * 2 ^ 16 + bs.getD (4 * i + 2) 0 * 2 ^ 8 + bs.getD (4 * i + 3) 0)

/-- The n bytes of a number, most significant first. -/
def beBytes (v : Nat) (n : Nat) : List Nat := (List.range n).map fun i => v / 256 ^ (n - 1 - i) % 256

/-- The n bytes of a number, least significant first. -/
def leBytes (v : Nat) (n : Nat) : List Nat := (List.range n).map fun i => v / 256 ^ i % 256

/-- The number of a byte string, least significant first. -/
def ofLe (bs : List Nat) : Nat := bs.foldr (fun b acc => b % 256 + 256 * acc) 0

/-- The number of a byte string, most significant first. -/
def ofBe (bs : List Nat) : Nat := bs.foldl (fun acc b => acc * 256 + b % 256) 0

/-- The message schedule after its first sixteen words; the last sixteen are kept latest first. -/
def shaExtend : Nat → List W32 → List W32
  | 0, w => w
  | n + 1, w =>
    let at_ := fun i => w.getD i 0
    let x := at_ 14
    let y := at_ 1
    let s0 := x.rotateRight 7 ^^^ x.rotateRight 18 ^^^ (x >>> 3)
    let s1 := y.rotateRight 17 ^^^ y.rotateRight 19 ^^^ (y >>> 10)
    shaExtend n ((at_ 15 + s0 + at_ 6 + s1) :: w)

/-- One round of SHA-256 on the eight working words. -/
def shaRound (s : List W32) (kw : W32 × W32) : List W32 :=
  match s with
  | [a, b, c, d, e, f, g, h] =>
    let t1 := h + (e.rotateRight 6 ^^^ e.rotateRight 11 ^^^ e.rotateRight 25) + ((e &&& f) ^^^ (~~~e &&& g)) + kw.1 + kw.2
    let t2 := (a.rotateRight 2 ^^^ a.rotateRight 13 ^^^ a.rotateRight 22) + ((a &&& b) ^^^ (a &&& c) ^^^ (b &&& c))
    [t1 + t2, a, b, c, d + t1, e, f, g]
  | s => s

/-- One 64-byte block of SHA-256. -/
def shaBlock (s : List W32) (block : List Nat) : List W32 :=
  let w := (shaExtend 48 ((List.range 16).map (beWord block)).reverse).reverse
  List.zipWith (· + ·) s ((shaK.zip w).foldl shaRound s)

/-- The blocks of a padded message. -/
def shaBlocks : Nat → List W32 → List Nat → List W32
  | 0, s, _ => s
  | n + 1, s, bs => shaBlocks n (shaBlock s (bs.take 64)) (bs.drop 64)

/-- SHA-256 of a byte string: 32 bytes. -/
def sha256 (msg : List Nat) : List Nat :=
  let n := msg.length
  let pad := msg ++ [128] ++ List.replicate ((119 - n % 64) % 64) 0 ++ beBytes (8 * n) 8
  (shaBlocks (pad.length / 64) shaInit pad).flatMap fun w => beBytes w.toNat 4

/-- Doubling in the field of AES. -/
def aesDouble (x : Nat) : Nat := if x < 128 then 2 * x else (2 * x) % 256 ^^^ 0x1B

/-- The product in the field of AES. -/
def aesMul : Nat → Nat → Nat → Nat
  | 0, _, _ => 0
  | n + 1, x, y => (if y % 2 == 1 then x else 0) ^^^ aesMul n (aesDouble x) (y / 2)

/-- The power x^(2^n − 2) of the field of AES by squarings: the inverse for n = 8. -/
def aesInv : Nat → Nat → Nat → Nat
  | 0, _, acc => acc
  | n + 1, x, acc =>
    let x2 := aesMul 8 x x
    aesInv n x2 (aesMul 8 acc x2)

/-- The substitution of AES. -/
def aesSub (x : Nat) : Nat :=
  let i : BitVec 8 := BitVec.ofNat 8 (aesInv 7 x 1)
  (i ^^^ i.rotateLeft 1 ^^^ i.rotateLeft 2 ^^^ i.rotateLeft 3 ^^^ i.rotateLeft 4 ^^^ 0x63#8).toNat

/-- Exclusive or of byte strings. -/
def xorBytes (a b : List Nat) : List Nat := List.zipWith (· ^^^ ·) a b

/-- The key schedule of AES-256: words latest first, from word i on. -/
def aesExpand : Nat → Nat → Nat → List (List Nat) → List (List Nat)
  | 0, _, _, w => w
  | n + 1, i, rc, w =>
    let t := w.getD 0 []
    let t' := if i % 8 == 0 then xorBytes ((t.drop 1 ++ t.take 1).map aesSub) [rc, 0, 0, 0] else if i % 8 == 4 then t.map aesSub else t
    aesExpand n (i + 1) (if i % 8 == 0 then aesDouble rc else rc) (xorBytes (w.getD 7 []) t' :: w)

/-- The fifteen round keys of AES-256. -/
def aesKeys (key : List Nat) : List (List Nat) :=
  let w := (aesExpand 52 8 1 ((List.range 8).map fun i => (key.drop (4 * i)).take 4).reverse).reverse
  (List.range 15).map fun r => ((w.drop (4 * r)).take 4).flatten

/-- The row shift of AES. -/
def aesShift (s : List Nat) : List Nat := (List.range 16).map fun i => s.getD ((i + 4 * (i % 4)) % 16) 0

/-- The column mix of AES. -/
def aesMix (s : List Nat) : List Nat :=
  (List.range 16).map fun i =>
    let at_ := fun k => s.getD (i / 4 * 4 + (i + k) % 4) 0
    aesMul 8 (at_ 0) 2 ^^^ aesMul 8 (at_ 1) 3 ^^^ at_ 2 ^^^ at_ 3

/-- AES-256 of a 16-byte block with its round keys. -/
def aesBlock (ks : List (List Nat)) (block : List Nat) : List Nat :=
  let s := (((ks.drop 1).take 13)).foldl (fun s k => xorBytes (aesMix (aesShift (s.map aesSub))) k) (xorBytes block (ks.getD 0 []))
  xorBytes (aesShift (s.map aesSub)) (ks.getD 14 [])

/-- The product of Galois/counter mode: n bits of x from the top, with y. -/
def ghashMul : Nat → BitVec 128 → BitVec 128 → BitVec 128
  | 0, _, _ => 0
  | n + 1, x, y =>
    (if x.getLsbD 127 then y else 0) ^^^
      ghashMul n (x <<< 1) (if y.getLsbD 0 then (y >>> 1) ^^^ 0xE1000000000000000000000000000000#128 else y >>> 1)

/-- The hash of n 16-byte blocks. -/
def ghash (h : BitVec 128) : Nat → List Nat → BitVec 128 → BitVec 128
  | 0, _, acc => acc
  | n + 1, bs, acc => ghash h n (bs.drop 16) (ghashMul 128 (acc ^^^ BitVec.ofNat 128 (ofBe (bs.take 16))) h)

/-- A byte string filled with zeros to a multiple of 16. -/
def pad16 (bs : List Nat) : List Nat := bs ++ List.replicate ((16 - bs.length % 16) % 16) 0

/-- The key stream of n blocks from a counter. -/
def gcmStream (ks : List (List Nat)) (iv : List Nat) (n : Nat) : List Nat :=
  (List.range n).flatMap fun i => aesBlock ks (iv ++ beBytes (i + 2) 4)

/-- The tag of Galois/counter mode. -/
def gcmTag (ks : List (List Nat)) (iv aad ct : List Nat) : List Nat :=
  let h := BitVec.ofNat 128 (ofBe (aesBlock ks (List.replicate 16 0)))
  let bs := pad16 aad ++ pad16 ct ++ beBytes (8 * aad.length) 8 ++ beBytes (8 * ct.length) 8
  xorBytes (beBytes (ghash h (bs.length / 16) bs 0).toNat 16) (aesBlock ks (iv ++ [0, 0, 0, 1]))

/-- Opens a sealed byte string with a 12-byte IV: none where the tag does not match. -/
def gcmOpen (key iv aad ct tag : List Nat) : Option (List Nat) :=
  let ks := aesKeys key
  if gcmTag ks iv aad ct = tag then some (xorBytes ct (gcmStream ks iv ((ct.length + 15) / 16))) else none

end Sys2Proof.Machine
end

