-- ==== Sys2Proof/Machine/TileOps.lean ====
section
/-!
DEFINITION. Tile registers, descriptors, lanes, and when tile reads and writes take effect (R156 to R166).
-/

namespace Sys2Proof.Machine

/-- FMT of a descriptor (R158). -/
def dFmt (d : Word) : Nat := wbits d 3 0
/-- SCL of a descriptor (R158). -/
def dScl (d : Word) : Bool := d.getLsbD 9
/-- CBK of a descriptor (R158). -/
def dCbk (d : Word) : Bool := d.getLsbD 10
/-- ROWS of a descriptor (R158). -/
def dRows (d : Word) : Nat := wbits d 18 13
/-- COLS of a descriptor (R158). -/
def dCols (d : Word) : Nat := wbits d 29 19
/-- ECOL of a descriptor (R158). -/
def dEcol (d : Word) : Nat := wbits d 39 30

/-- The reset descriptor (R158): binary32, 32 rows of 128 elements. -/
def descReset : Word := 0x04040009

/-- A descriptor (R158). -/
def mkDesc (fmt rows cols ecol : Nat) (scl cbk : Bool) : Word :=
  BitVec.ofNat 64 (fmt + scl.toNat * 2 ^ 9 + cbk.toNat * 2 ^ 10 + rows * 2 ^ 13 + cols * 2 ^ 19 + ecol * 2 ^ 30)

/-- Bytes of a row of so many elements of a format (R156, R167). -/
def rowBytes (fmt cols : Nat) : Nat := (cols * fmtBits fmt + 7) / 8

/-- A descriptor is consistent (R159). -/
def descOk (d : Word) : Bool :=
  decide (dCols d * fmtBits (dFmt d) ≤ 4096) && (dFmt d != 14 || dCols d % 2 == 0) &&
    (!dScl d || dFmt d == 12 || dFmt d == 13 || dFmt d == 14) && (!dCbk d || dFmt d == 14)

/-- Every field of a descriptor lies within its range, and its reserved bits are 0 (R158, R160). -/
def descInRange (d : Word) : Bool :=
  wbits d 63 40 == 0 && wbits d 12 11 == 0 && wbits d 8 4 == 0 && decide (1 ≤ dRows d) && decide (dRows d ≤ 32) &&
    decide (1 ≤ dCols d) && decide (dCols d ≤ 1024)

/-- The tile register of the core that a tile index names (R107). -/
def Live.tileReg (l : Live) (n : Nat) : Nat := (l.th.tbase + n) % 16

/-- Key of a tile register's descriptor and codebook. -/
def tileKey (core t : Nat) : Nat := core * 16 + t
/-- Key of a row of a tile register's data or scales. -/
def tileRowKey (core t row : Nat) : Nat := (core * 16 + t) * 32 + row

/-- A word of a tile area as it has landed: 0 data, 1 scales, 2 codebook, 3 descriptor. -/
def Dev.tileArea (d : Dev) (area key : Nat) : BitVec 4096 :=
  match area with
  | 0 => tget d.tiles 0 key
  | 1 => (tget d.scales 0 key).setWidth 4096
  | 2 => (tget d.books 0 key).setWidth 4096
  | _ => (tget d.descs descReset key).setWidth 4096

/-- The tile register of a word of a tile area: core × 16 + register. -/
def tileKeyOf (area key : Nat) : Nat := if area ≤ 1 then key / 32 else key

/-- The core of a word of a tile area. -/
def areaCore (area key : Nat) : Nat := if area ≤ 1 then key / 512 else key / 16

/-- What a word of a tile area held before a change is kept while a held instruction of its core may still read it (R166). -/
def Dev.notePast (d : Dev) (area key : Nat) : Dev :=
  let c := areaCore area key
  let r := d.core c
  if r.held.isEmpty then d else { d with cores := tput d.cores c { r with past := r.past ++ [(r.cycle, area, key, d.tileArea area key)] } }

/-- Writes a word of a tile area. -/
def Dev.putTileArea (d : Dev) (area key : Nat) (v : BitVec 4096) : Dev :=
  match area with
  | 0 => { d with tiles := tset d.tiles 0 key v }
  | 1 => { d with scales := tset d.scales 0 key (v.setWidth 256) }
  | 2 => { d with books := tset d.books 0 key (v.setWidth 256) }
  | _ => { d with descs := tset d.descs descReset key (v.setWidth 64) }

/-- A write to a word of a tile area takes effect. -/
def Dev.setTileArea (d : Dev) (area key : Nat) (v : BitVec 4096) : Dev := (d.notePast area key).putTileArea area key v

/-- A write over a word, element by element (R166). -/
def TileWrite.onto (w : TileWrite) (old : BitVec 4096) : BitVec 4096 := (old &&& ~~~w.mask) ||| (w.val &&& w.mask)

/-- Puts a write into the order of completion: after those due no later (R166). -/
def insertDue (w : TileWrite) : List TileWrite → List TileWrite
  | [] => [w]
  | x :: r => if w.due < x.due then w :: x :: r else x :: insertDue w r

/-- Lands the tile writes of a core that a test selects, in the order of completion. -/
def Live.landTiles (l : Live) (core : Nat) (p : TileWrite → Bool) : Live :=
  let ws := ((l.dev.core core).tileWrites.filter p).foldl (fun acc w => insertDue w acc) []
  if ws.isEmpty then l
  else
    let l := l.map fun d => ws.foldl (fun d w => d.setTileArea w.area w.key (w.onto (d.tileArea w.area w.key))) d
    l.onCore core fun c => { c with tileWrites := c.tileWrites.filter fun w => !p w }

/-- Lands the writes whose instructions have completed, and those of the issuing thread (R166). -/
def Live.syncTiles (l : Live) : Live :=
  let now := (l.dev.core l.myCore).cycle
  l.landTiles l.myCore fun w => decide (w.due ≤ now) || w.slot == l.mySlot

/-- Reads a word of a tile area at one instant between issue and completion (R166): over what has landed, some of the other threads' writes
that complete by then. -/
def Live.readArea (l : Live) (area key fin : Nat) : Nat × Live :=
  let base := l.dev.tileArea area key
  match (((l.dev.core l.myCore).tileWrites.filter fun w => w.area == area && w.key == key && decide (w.due ≤ fin)).foldl (fun acc w => insertDue w acc) []) with
  | [] => (base.toNat, l)
  | ws =>
    let c := l.choose (ws.length + 1)
    (((ws.take c.1).foldl (fun v w => w.onto v) base).toNat, c.2)

/-- Records a write that lands at a cycle. -/
def Live.lateArea (l : Live) (area key : Nat) (mask val : Nat) (due : Nat) : Live :=
  l.onCore l.myCore fun c =>
    { c with tileWrites := c.tileWrites ++ [⟨due, l.mySlot, area, key, BitVec.ofNat 4096 mask, BitVec.ofNat 4096 val⟩] }

/-- A tile operand: its register and the descriptor read at issue. -/
structure TileOp where
  reg : Nat
  desc : Word
deriving DecidableEq, Repr

/-- Reads the descriptor of a tile operand at issue (R160, R166). -/
def Live.tileOp (l : Live) (n : BitVec 7) : TileOp × Live :=
  let t := l.tileReg n.toNat
  let r := readLate l true t (tget l.dev.descs descReset (tileKey l.myCore t))
  (⟨t, r.1⟩, r.2)

/-- Reads the descriptors of tile operands in order. -/
def Live.tileOps (l : Live) : List (BitVec 7) → List TileOp × Live
  | [] => ([], l)
  | n :: r =>
    let o := l.tileOp n
    let os := o.2.tileOps r
    (o.1 :: os.1, os.2)

/-- Writes a descriptor: visible to other threads from the completion on (R160). -/
def Live.setDesc (l : Live) (t : Nat) (v : Word) (latency : Nat) : Live :=
  let k := tileKey l.myCore t
  let l := noteLate l true t (tget l.dev.descs descReset k) latency
  l.map fun d => { d with descs := tset d.descs descReset k v }

/-- The checks of R164 on tile operands with the formats they must have; none for any format. -/
def checkTiles (l : Live) (x : Ext) (ops : List (BitVec 7 × Option Nat)) (k : List TileOp → Live → Out) : Out :=
  let l := l.syncTiles
  let r := l.tileOps (ops.map Prod.fst)
  let os := r.1
  if !os.all fun o => descOk o.desc then .trap l 0x21 0 0
  else if os.any fun o => decide (dRows o.desc ≤ x.row0.toNat + x.rcnt.toNat) then .trap l 0x23 0 0
  else if (os.zip (ops.map Prod.snd)).any (fun p => match p.2 with
      | some f => dFmt p.1.desc != f
      | none => false) then .trap l 0x22 0 0
  else k os r.2

/-- Lane count of a format (R162): CB4 counts as 256. -/
def lanesOf (fmt : Nat) : Nat :=
  match fmtBits fmt with
  | 32 => 64
  | 16 => 128
  | 8 => 256
  | 4 => 256
  | _ => 0

/-- The mask bit that governs a lane (R163). -/
def governs (k : BitVec 128) (lanes j : Nat) : Bool := if lanes ≤ 128 then k.getLsbD j else k.getLsbD (j / 2)

/-- Condition 2 of R163 for an operand. -/
def TileOp.has (o : TileOp) (j : Nat) : Bool := decide (dEcol o.desc + j < dCols o.desc)

/-- A lane is active (R163). -/
def laneActive (l : Live) (x : Ext) (lanes : Nat) (os : List TileOp) (j : Nat) : Bool :=
  decide (j < lanes) && os.all (fun o => o.has j) && (!x.men || governs (l.th.k x.km.toNat) lanes j)

/-- Element c of a row's bytes in elements of w bits (R156). -/
def elemAt (row w c : Nat) : Nat := row / 2 ^ (c * w) % 2 ^ w

/-- Lane j of an operand in a row it has. -/
def TileOp.lane (o : TileOp) (row : Nat) (j : Nat) : Nat := elemAt row (fmtBits (dFmt o.desc)) (dEcol o.desc + j)

/-- The rows of a row range. -/
def rowRange (x : Ext) : List Nat := (List.range (x.rcnt.toNat + 1)).map (x.row0.toNat + ·)

/-- Reads rows of an operand (R164, R166). -/
def Live.readRows (l : Live) (area : Nat) (o : TileOp) (fin : Nat) : List Nat → List Nat × Live
  | [] => ([], l)
  | r :: rest =>
    let v := l.readArea area (tileRowKey l.myCore o.reg r) fin
    let vs := v.2.readRows area o fin rest
    (v.1 :: vs.1, vs.2)

/-- Reads the rows of several operands: for each operand its rows. -/
def Live.readAll (l : Live) (fin : Nat) (rows : List Nat) : List TileOp → List (List Nat) × Live
  | [] => ([], l)
  | o :: os =>
    let v := l.readRows 0 o fin rows
    let vs := v.2.readAll fin rows os
    (v.1 :: vs.1, vs.2)

/-- What the lanes of an instruction produce so far: a mask and value for the row being written, the generator, the flags. -/
structure Lanes where
  mask : Nat := 0
  val : Nat := 0
  rng : Word
  flags : Flags := 0

/-- Adds an element of w bits at place c. -/
def Lanes.put (s : Lanes) (w c v : Nat) : Lanes :=
  { s with mask := s.mask ||| ((2 ^ w - 1) * 2 ^ (c * w)), val := s.val + v % 2 ^ w * 2 ^ (c * w) }

/-- The lanes of one row in ascending order: f gives a lane's element, flags and generator, or nothing for a lane that writes nothing. -/
def laneLoop (w ecol : Nat) (f : Nat → Word → Option (Nat × Flags × Word)) (n : Nat) (s : Lanes) : Lanes :=
  (List.range n).foldl (fun s j =>
    match f j s.rng with
    | none => s
    | some (v, fl, rng) => { s.put w (ecol + j) v with rng, flags := s.flags ||| fl }) s

/-- Issue cycle at which an instruction of this latency completes. -/
def Live.finish (l : Live) (latency : Nat) : Nat := (l.dev.core l.myCore).cycle + latency

/-- Rows in ascending order: the write of each, and the generator and flags after all (R94). -/
def rowLoop (l : Live) (d : TileOp) (due : Nat) (f : Nat → Lanes → Lanes) (rows : List Nat) (s : Lanes) : Live × Lanes :=
  match rows with
  | [] => (l, s)
  | r :: rest =>
    let s' := f r { s with mask := 0, val := 0 }
    let l := if s'.mask = 0 then l else l.lateArea 0 (tileRowKey l.myCore d.reg r) s'.mask s'.val due
    rowLoop l d due f rest s'

/-- The end of a vector instruction: its flags and the generator reach the thread (R89, R93). -/
def vecDone (l : Live) (s : Lanes) (im : Flags) : Out :=
  .done ((l.onTh fun t => { t with rng := s.rng }).setFlags (s.flags ||| im))

/-- A lane-wise instruction: D and its sources, their formats, the latency, and a function of the sources' elements (R163, R173). -/
def vecMap (s : State) (x : Ext) (srcs : List (BitVec 7 × Nat)) (base : Nat) (mode : Live → Mode × Flags)
    (f : Mode → Word → List Nat → Nat × Flags × Word) : Host.Outcome State Fault Refusal :=
  instrX s x [] (x.d :: srcs.map Prod.fst) fun _ l =>
    checkTiles l x ((x.d, some x.dfmt.toNat) :: srcs.map fun p => (p.1, some p.2)) fun os l =>
      match os with
      | [] => .done l
      | d :: as =>
        let fin := l.finish (base + x.rcnt.toNat + 1)
        let lanes := (srcs.map fun p => lanesOf p.2).foldl Nat.min (lanesOf x.dfmt.toNat)
        let m := mode l
        let w := fmtBits x.dfmt.toNat
        let rs := l.readAll fin (rowRange x) as
        let row := fun (r : Nat) (acc : Lanes) =>
          laneLoop w (dEcol d.desc) (fun j rng =>
            if laneActive l x lanes os j then some (f m.1 rng ((as.zip rs.1).map fun p => p.1.lane (p.2.getD (r - x.row0.toNat) 0) j)) else none) lanes acc
        let out := rowLoop rs.2 d fin row (rowRange x) { rng := l.th.rng }
        vecDone out.1 out.2 m.2

end Sys2Proof.Machine
end

