-- ==== Sys2Proof/Machine/TileMem.lean ====
section
/-!
DEFINITION. Meanings of TLD, TLDV, TST and TST.aon (R167 to R172): images, their accesses granule by granule, and the steps of each.
-/

namespace Sys2Proof.Machine

/-- The granules that n bytes from an offset cover: the offset and the bytes within each (R168). -/
def granulesOf (off n : Nat) : List (Nat × Nat) :=
  if n = 0 then []
  else (List.range ((off + n - 1) / 16 + 1 - off / 16)).map fun i =>
    let g := 16 * (off / 16 + i)
    let lo := Nat.max off g
    (lo, Nat.min (off + n) (g + 16) - lo)

/-- Rounds up to a multiple of 16. -/
def up16 (n : Nat) : Nat := (n + 15) / 16 * 16

/-- Scale bytes of a row (R167). -/
def scaleBytes (d : Word) : Nat := (dCols d + 31) / 32

/-- RB of an image (R167). -/
def imageRow (d : Word) : Nat := rowBytes (dFmt d) (dCols d)

/-- Offset of the scales (R167). -/
def scalesAt (d : Word) : Nat := up16 (64 + dRows d * imageRow d)

/-- Offset of the codebook (R167). -/
def bookAt (d : Word) : Nat := if dScl d then up16 (scalesAt d + dRows d * scaleBytes d) else scalesAt d

/-- The word that an image holds of a descriptor: ECOL and the reserved bits are 0 (R167). -/
def idescOf (d : Word) : Word := mkDesc (dFmt d) (dRows d) (dCols d) 0 (dScl d) (dCbk d)

/-- An IDESC is well formed and holds so many rows (R167, R169). -/
def idescOk (d : Word) (last : Nat) : Bool := descInRange d && dEcol d == 0 && descOk d && decide (last < dRows d)

/-- The areas of a row range: offset, bytes, area (0 data, 1 scales, 2 codebook) (R169, R170). -/
def imageAreas (d : Word) (row0 n : Nat) : List (Nat × Nat × Nat) :=
  (64 + row0 * imageRow d, n * imageRow d, 0) ::
    ((if dScl d then [(scalesAt d + row0 * scaleBytes d, n * scaleBytes d, 1)] else []) ++ (if dCbk d then [(bookAt d, 32, 2)] else []))

/-- Where one granule of a tile or weight access lies (R168, R209 to R211, R214). -/
def granuleAt (b : Boot) (l : Live) (core kind cause : Nat) (a : Word) : Xlat :=
  if wbits a 63 60 == 2 then
    if wbits a 59 22 != 0 then .fail l 0x40
    else if !inWindow (l.dev.core core).cmwin (wbits a 21 0) then .fail l 0x44
    else .pa l (clusterPa (core / 8) (wbits a 21 0)) 0
  else if reserved01 a then .fail l 0x40
  else l.translate b core (wbits a 47 0) kind cause

/-- The accesses of an instruction that covers several granules. -/
inductive Located where
  | all (l : Live) (parts : List Part)
  | miss (l : Live) (va : Nat)
  /-- those before the first that fails, and its cause -/
  | stop (l : Live) (parts : List Part) (cause : Nat)

/-- Finds the granules of an access in order. A path 0x1 read that the read-only buffer holds is done, and its line is the one used last (R218). -/
def locate (b : Boot) (l : Live) (core ctx kind cause : Nat) (a : Word) : List (Nat × Nat) → List Part → Located
  | [], acc => .all l acc
  | (off, n) :: rest, acc =>
    let v := a + BitVec.ofNat 64 off
    match granuleAt b l core kind cause v with
    | .fail l c => .stop l acc c
    | .miss l => .miss l (wbits v 47 0)
    | .pa l pa _ =>
      let hit := if wbits a 63 60 == 1 then roFind l (core / 8) ctx pa else none
      match hit with
      | some line => locate b (roInstall l (core / 8) ctx pa line) core ctx kind cause a rest
          (acc ++ [{ pa, n, done := true, v := bitsAt line.toNat (8 * (pa % 128 + n) - 1) (8 * (pa % 128)) }])
      | none => locate b l core ctx kind cause a rest (acc ++ [{ pa, n, write := kind == 1 }])

/-- Parks a thread of the part with reason TLB and posts its miss (R383). -/
def parkMiss (l : Live) (tid va kind : Nat) : Live :=
  (l.parkFlight tid .tlb).postMiss (tid / 64) { kind, va := va % 2 ^ 48, slot := tid % 64, job := 0, jid := 0, defers := 0, due := none, arrived := false }

/-- The rows of n rows of w bytes in a number. -/
def rowsIn (v w n : Nat) : List Nat := (List.range n).map fun i => bitsAt v (8 * w * (i + 1) - 1) (8 * w * i) % 2 ^ (8 * w)

/-- The tile register of a thread that a tile index names (R107). -/
def Dev.tileRegOf (d : Dev) (tid n : Nat) : Nat := ((d.thread tid).tbase + n) % 16

/-- Writes the low n bytes of a word of a tile area; the rest stays. -/
def Live.putArea (l : Live) (area key n v : Nat) : Live :=
  l.map fun d => d.setTileArea area key ((d.tileArea area key &&& ~~~(BitVec.ofNat 4096 (2 ^ (8 * n) - 1))) ||| BitVec.ofNat 4096 (v % 2 ^ (8 * n)))

/-- Writes the areas of a loaded image into a tile, and its descriptor (R169). -/
def loadTile (l : Live) (tid : Nat) (x : Ext) (d : Word) (ps : List Part) : Live :=
  let core := tid / 64
  let now := (l.dev.core core).cycle
  let l := l.landTiles core fun w => decide (w.due ≤ now) || w.slot == tid % 64
  let t := l.dev.tileRegOf tid x.d.toNat
  let n := x.rcnt.toNat + 1
  let row0 := x.row0.toNat
  let v := joinParts ps
  let l := ((rowsIn v (imageRow d) n).zip (List.range n)).foldl
    (fun l e => l.putArea 0 (tileRowKey core t (row0 + e.2)) (imageRow d) e.1) l
  let v := v / 2 ^ (8 * n * imageRow d)
  let l := if dScl d then ((rowsIn v (scaleBytes d) n).zip (List.range n)).foldl
    (fun l e => l.putArea 1 (tileRowKey core t (row0 + e.2)) (scaleBytes d) e.1) l else l
  let v := if dScl d then v / 2 ^ (8 * n * scaleBytes d) else v
  let l := if dCbk d then l.putArea 2 (tileKey core t) 32 v else l
  l.map fun q => { q with descs := tset q.descs descReset (tileKey core t) d }

/-- The bytes that a tile store writes after VERSION: IDESC, rows, scales, codebook (R170). -/
def storeBytes (l : Live) (tid : Nat) (x : Ext) (d : Word) : Nat :=
  let core := tid / 64
  let t := l.dev.tileRegOf tid x.b.toNat
  let n := x.rcnt.toNat + 1
  let row := fun (area w i : Nat) => (l.dev.tileArea area (tileRowKey core t (x.row0.toNat + i))).toNat % 2 ^ (8 * w)
  let rows := fun (area w : Nat) => ((List.range n).foldr (fun i acc => row area w i + 2 ^ (8 * w) * acc) 0)
  let book := if dCbk d then (l.dev.tileArea 2 (tileKey core t)).toNat % 2 ^ 256 else 0
  let scl := if dScl d then rows 1 (scaleBytes d) + 2 ^ (8 * n * scaleBytes d) * book else book
  (idescOf d).toNat + 2 ^ 64 * (rows 0 (imageRow d) + 2 ^ (8 * n * imageRow d) * scl)

/-- The granules of a row range of an image in order. -/
def areaGranules (x : Ext) (d : Word) : List (Nat × Nat) :=
  (imageAreas d x.row0.toNat (x.rcnt.toNat + 1)).flatMap fun e => granulesOf e.1 e.2.1

/-- The granules a tile store writes after VERSION. -/
def storeGranules (x : Ext) (d : Word) : List (Nat × Nat) := (8, 8) :: areaGranules x d

/-- The accesses of the next step of a tile instruction (R169 to R171); a miss parks it, to start again. -/
def tileNext (b : Boot) (l : Live) (r : Req) (i : Instr) (step : Nat) (version : Word) (attempt kind : Nat) (offs : List (Nat × Nat))
    (keep : List Part) (bytes : Live → Nat) : Live :=
  match locate b l (r.tid / 64) r.ctx kind 0x62 r.va offs [] with
  | .miss l va => parkMiss (l.dropReq r.id) r.tid va kind
  | .all l ps => l.onReq r.id fun q => { q with kind := .tile i step version attempt, stage := .home, parts := keep ++ (if kind == 1 then fillParts (bytes l) ps else ps) }
  | .stop l ps c =>
    if kind == 1 && !ps.isEmpty then
      l.onReq r.id fun q => { q with kind := .tile i step version attempt, stage := .home, parts := fillParts (bytes l) ps, fail := some (c, 0, false) }
    else (l.dropReq r.id).trapFlight b r.tid c 0 r.va false

/-- TST.aon finds every access of its later steps before its first write (R170, R233): a miss parks it with nothing written. What stands in the way of a later
granule is kept behind the accesses found, as a part that has failed with the cause. -/
def aonBegin (b : Boot) (l : Live) (r : Req) (i : Instr) (x : Ext) (version attempt : Nat) : Live :=
  match locate b l (r.tid / 64) r.ctx 1 0x62 r.va [(0, 8)] [] with
  | .miss l va => parkMiss (l.dropReq r.id) r.tid va 1
  | .stop l _ c => (l.dropReq r.id).trapFlight b r.tid c 0 r.va false
  | .all l vs =>
    let go := fun (l : Live) (held : List Part) =>
      l.onReq r.id fun q => { q with kind := .tile i 1 (BitVec.ofNat 64 version) attempt, stage := .home, held, parts := fillParts ((version + 1) % 2 ^ 64) vs }
    match locate b l (r.tid / 64) r.ctx 1 0x62 r.va (storeGranules x r.out) [] with
    | .miss l va => parkMiss (l.dropReq r.id) r.tid va 1
    | .all l ps => go l (vs ++ ps)
    | .stop l ps c => go l (vs ++ ps ++ [{ pa := 0, n := c, bad := true }])

/-- A write step of TST.aon after the first, with accesses found before it. -/
def aonNext (b : Boot) (l : Live) (r : Req) (i : Instr) (step : Nat) (version : Word) (attempt : Nat) (held : List Part) (bytes : Nat) : Live :=
  let ps := held.filter fun p => !p.bad
  match held.find? Part.bad with
  | some p =>
    if ps.isEmpty then (l.dropReq r.id).trapFlight b r.tid p.n 0 r.va false
    else l.onReq r.id fun q => { q with kind := .tile i step version attempt, stage := .home, parts := fillParts bytes ps, fail := some (p.n, 0, false) }
  | none => l.onReq r.id fun q => { q with kind := .tile i step version attempt, stage := .home, parts := fillParts bytes ps }

/-- A tile instruction completes. -/
def tileDone (l : Live) (r : Req) : Live :=
  match l.awaits r with
  | some next => (l.dropReq r.id).complete r.tid next
  | none => l.dropReq r.id

/-- An attempt of TLDV has ended without success (R171): after the 64th VF is set. -/
def tldvAgain (l : Live) (r : Req) (i : Instr) (attempt : Nat) : Live :=
  if 64 ≤ attempt then
    tileDone (l.onThread r.tid fun t => { t with status := t.status ||| (0x100000 : Word) }) r
  else if l.halting r.tid then (l.dropReq r.id).haltFlight r.tid
  else
    let cyc := (l.dev.cluster (r.tid / 512)).cycle
    (l.onReq r.id fun q => { q with kind := .tile i 4 0 attempt, stage := .replied, parts := [], out2 := BitVec.ofNat 64 (cyc + 32 * attempt) }).onThread r.tid
      fun t => { t with retries := attempt }

/-- All accesses of a step of a tile instruction have been performed: what follows (R169 to R171). -/
def tileStep (b : Boot) (l : Live) (r : Req) : Live :=
  match r.fail with
  | some (c, d, p) => (l.dropReq r.id).trapFlight b r.tid c d r.va p
  | none =>
    match r.kind with
    | .tile i step version attempt =>
      let first := (r.parts.head?).elim 0 Part.v
      match i, step with
      | .tld x, 0 =>
        let d : Word := BitVec.ofNat 64 (first / 2 ^ 64)
        if !idescOk d (x.row0.toNat + x.rcnt.toNat) then (l.dropReq r.id).trapFlight b r.tid 0x24 0 r.va false
        else tileNext b l r i 1 d attempt 0 (areaGranules x d) [] fun _ => 0
      | .tld x, _ => tileDone (loadTile l r.tid x version r.parts) r
      | .tldv _, 0 =>
        if first % 2 = 0 then tileNext b l r i 1 (BitVec.ofNat 64 first) attempt 0 [(8, 8)] [] fun _ => 0
        else tldvAgain l r i attempt
      | .tldv x, 1 =>
        let d : Word := BitVec.ofNat 64 first
        if !idescOk d (x.row0.toNat + x.rcnt.toNat) then (l.dropReq r.id).trapFlight b r.tid 0x24 0 r.va false
        else tileNext b (l.onReq r.id fun q => { q with out := d }) r i 2 version attempt 0 (areaGranules x d) [] fun _ => 0
      | .tldv _, 2 => tileNext b l r i 3 version attempt 0 [(0, 8)] r.parts fun _ => 0
      | .tldv x, 3 =>
        if (r.parts.getLast?).elim 0 Part.v = version.toNat then tileDone (loadTile l r.tid x r.out r.parts.dropLast) r
        else tldvAgain l r i attempt
      | .tstAon x, 0 =>
        if first % 2 = 1 then (l.dropReq r.id).trapFlight b r.tid 0x25 0 r.va false
        else aonBegin b l r i x first attempt
      | .tstAon x, 1 => aonNext b l r i 2 version attempt (r.held.drop 1) (storeBytes l r.tid x r.out)
      | .tstAon _, 2 => aonNext b l r i 3 version attempt (r.held.take 1) ((version.toNat + 2) % 2 ^ 64)
      | _, _ => tileDone l r
    | _ => l

/-- Every access of a request lies in the banks of its own cluster. -/
def Req.ownParts (b : Boot) (r : Req) : Bool := r.parts.all fun p => p.done || paHome b p.pa == some (.bank (r.tid / 512))

/-- Performs the accesses of a request of several granules, first to last. -/
def serveAll (b : Boot) (l : Live) (id : Nat) : Live :=
  match l.req? id with
  | none => l
  | some r => ((List.range r.parts.length).foldl (fun l i => match l.req? id with
      | some r => servePart b l r i false
      | none => l) l).closeParts id

/-- Carries a tile instruction on as far as it goes in this step: its accesses within its own cluster are performed together unless the
schedule says one by one (assumption 9). -/
def runTile (b : Boot) (tid : Nat) : Nat → Live → Live
  | 0, l => l
  | n + 1, l =>
    match l.dev.reqs.find? (fun r => r.tid == tid && (match r.kind with
      | .tile _ step _ _ => step != 4
      | _ => false)) with
    | none => l
    | some r =>
      if r.parts.all Part.done then runTile b tid n (tileStep b l r)
      else if !l.dev.split && r.ownParts b then runTile b tid n (serveAll b l r.id)
      else l

/-- Lands the tile writes of a thread's core that it must see (R166). -/
def syncFor (l : Live) (tid : Nat) : Live :=
  let now := (l.dev.core (tid / 64)).cycle
  l.landTiles (tid / 64) fun w => decide (w.due ≤ now) || w.slot == tid % 64

/-- The checks of R168 on an image address, then the wait of a plain access. -/
def imageAccess (l : Live) (a : Word) (load : Bool) (k : Unit → Out) : Out :=
  if a.toNat % 64 != 0 then .trap l 0x42 0 a
  else match wbits a 63 60 with
    | 0 => waitOrder l false k
    | 1 => if load then waitOrder l false k else .trap l 0x41 0 a
    | 2 => waitOrder l false k
    | 6 => .trap l 0x62 0 a
    | 14 => .trap l (if l.privileged then 0x41 else 0x02) 0 a
    | _ => .trap l 0x41 0 a

/-- The first accesses of a tile instruction, and its wait. -/
def tileIssue (b : Boot) (l : Live) (i : Instr) (a desc : Word) (kind : Nat) (offs : List (Nat × Nat)) (bytes : Nat) : Out :=
  let go := fun (l : Live) (ps : List Part) (fail : Option (Nat × Nat × Bool)) =>
    let r := l.addReq fun id => { l.newReq (.tile i 0 0 1) .plain a (.cluster l.myCluster) id with
      stage := .home, out := desc, parts := if kind == 1 then fillParts bytes ps else ps, fail }
    Out.wait r.2 (.request r.1)
  match locate b l l.myCore l.myCtx kind 0x62 a offs [] with
  | .miss l va => parkTlb l va kind
  | .all l ps => go l ps none
  | .stop l ps c => if kind == 1 && !ps.isEmpty then go l ps (some (c, 0, false)) else .trap l c 0 a

/-- A tile instruction: its issue, and as much of its accesses as this step performs. -/
def instrTile (s : State) (x : Ext) (ts : List (BitVec 7)) (body : Boot → Live → Out) : Host.Outcome State Fault Refusal :=
  onLive s fun b l =>
    let is := [x.a.toNat]
    let l := finish b (Ext.len x) (checkWindows l is (ts.map BitVec.toNat) fun _ =>
      if (l.th.p x.pg.toNat != x.pn) then checkPresent l is fun _ => body b l else .done l)
    runTile b l.dev.cur 8 l

/-- The image address (R168). -/
def imageAddr (l : Live) (x : Ext) : Word := l.g x.a + x.lit.getD (simm x.imm)

/-- TLD (R169). DESIGN CHOICE (assumption 99): of the image's 64-byte header it reads the granule of bytes 0 to 15, which holds VERSION and IDESC; R169 does not say
whether it reads the reserved bytes after them, so poison there raises nothing. -/
def execTld (x : Ext) (s : State) : Host.Outcome State Fault Refusal :=
  instrTile s x [x.d] fun b l =>
    let a := imageAddr l x
    imageAccess l a true fun _ => tileIssue b l (.tld x) a 0 0 [(0, 16)] 0

/-- TLDV (R171). -/
def execTldv (x : Ext) (s : State) : Host.Outcome State Fault Refusal :=
  instrTile s x [x.d] fun b l =>
    let a := imageAddr l x
    imageAccess l a true fun _ => tileIssue b l (.tldv x) a 0 0 [(0, 8)] 0

/-- TST (R170): a failure leaves the writes before it performed. -/
def execTst (x : Ext) (s : State) : Host.Outcome State Fault Refusal :=
  instrTile s x [x.b] fun b l =>
    let a := imageAddr l x
    checkTiles l x [(x.b, none)] fun os l =>
      let d := (os.head?).elim 0 TileOp.desc
      imageAccess l a false fun _ => tileIssue b l (.tst x) a d 1 (storeGranules x d) (storeBytes l l.dev.cur x d)

/-- TST.aon (R170): reads VERSION first. -/
def execTstAon (x : Ext) (s : State) : Host.Outcome State Fault Refusal :=
  instrTile s x [x.b] fun b l =>
    let a := imageAddr l x
    checkTiles l x [(x.b, none)] fun os l =>
      let d := (os.head?).elim 0 TileOp.desc
      imageAccess l a false fun _ => tileIssue b l (.tstAon x) a d 0 [(0, 8)] 0

/-- TLDV_RETRY (R171): the next attempt begins once its delay has passed. -/
def execTldvRetry (req : Nat) (s : State) : Host.Outcome State Fault Refusal :=
  event s fun b l =>
    match l.req? req with
    | none => l
    | some r =>
      match r.kind, l.awaits r with
      | .tile i 4 _ attempt, some _ =>
        if (l.dev.cluster (r.tid / 512)).cycle < r.out2.toNat then l
        else
          let l := l.onThread r.tid fun t => { t with retries := 0 }
          runTile b r.tid 8 (tileNext b l r i 0 0 (attempt + 1) 0 [(0, 8)] [] fun _ => 0)
      | .tile _ 4 _ _, none => l.dropReq req
      | _, _ => l

/-- The accesses of a tile instruction's step have come back. -/
def takeTile (b : Boot) (l : Live) (req : Nat) : Live :=
  match l.req? req with
  | none => l
  | some r =>
    match r.kind with
    | .tile _ step _ _ => if step != 4 && r.parts.all Part.done && !r.reported then runTile b r.tid 8 (syncFor l r.tid) else l
    | _ => l

end Sys2Proof.Machine
end

