-- ==== Sys2Proof/Machine/Vector.lean ====
section
/-!
DEFINITION. Meanings of the vector instructions, the descriptor instructions and the tile moves (R160, R161, R173 to R187).
-/

namespace Sys2Proof.Machine

/-- The integer value of an element (R80). -/
def elemInt (code x : Nat) : Int := if code < 4 then sext x (fmtBits code) else Int.ofNat (x % 2 ^ fmtBits code)

/-- An integer as an element, wrapped (R80). -/
def intElem (code : Nat) (i : Int) : Nat := bitsOf i (fmtBits code)

/-- An element function without a generator. -/
def pureLane (f : List Nat → Nat × Flags) (_ : Mode) (rng : Word) (xs : List Nat) : Nat × Flags × Word :=
  let r := f xs
  (r.1, r.2, rng)

/-- Operand i of a lane. -/
def arg (xs : List Nat) (i : Nat) : Nat := xs.getD i 0

/-- A lane of VADD, VSUB, VMUL or VFMA (R173): exact values, one rounding; or integers fitted with SAT. -/
def arithLane (code : Nat) (sat : Bool) (fl : Mode → List Val → Val × Flags) (int : List Int → Int) (m : Mode) (rng : Word)
    (xs : List Nat) : Nat × Flags × Word :=
  if code < 8 then
    let r := fitInt code sat (int (xs.map (elemInt code)))
    (r.1, r.2, rng)
  else
    let v := fl m (xs.map (valOf code))
    let r := roundDraw code sat m rng v.1
    (r.1, v.2 ||| r.2.1, r.2.2)

/-- Value i of a lane. -/
def valArg (vs : List Val) (i : Nat) : Val := vs.getD i (.fin false 0 0 false)
/-- Integer i of a lane. -/
def intArg (vs : List Int) (i : Nat) : Int := vs.getD i 0

/-- The mode of an extended form, without rounding for integers. -/
def vecMode (x : Ext) (l : Live) : Mode × Flags := if x.dfmt.toNat < 8 then (.rne, 0) else modeFor l x

/-- VADD (R173). -/
def execVadd (x : Ext) (s : State) : Host.Outcome State Fault Refusal :=
  vecMap s x [(x.a, x.dfmt.toNat), (x.b, x.dfmt.toNat)] 5 (vecMode x)
    (arithLane x.dfmt.toNat x.sat (fun m v => exactSum m [valArg v 0, valArg v 1]) fun v => intArg v 0 + intArg v 1)

/-- VSUB (R173). -/
def execVsub (x : Ext) (s : State) : Host.Outcome State Fault Refusal :=
  vecMap s x [(x.a, x.dfmt.toNat), (x.b, x.dfmt.toNat)] 5 (vecMode x)
    (arithLane x.dfmt.toNat x.sat (fun m v => exactSum m [valArg v 0, (valArg v 1).negate]) fun v => intArg v 0 - intArg v 1)

/-- VMUL (R173). -/
def execVmul (x : Ext) (s : State) : Host.Outcome State Fault Refusal :=
  vecMap s x [(x.a, x.dfmt.toNat), (x.b, x.dfmt.toNat)] 5 (vecMode x)
    (arithLane x.dfmt.toNat x.sat (fun _ v => valMul (valArg v 0) (valArg v 1)) fun v => intArg v 0 * intArg v 1)

/-- VFMA (R173): the product is exact, one rounding. -/
def execVfma (x : Ext) (s : State) : Host.Outcome State Fault Refusal :=
  vecMap s x [(x.a, x.dfmt.toNat), (x.b, x.dfmt.toNat), (x.c, x.dfmt.toNat)] 5 (vecMode x)
    (arithLane x.dfmt.toNat x.sat (fun m v =>
      let p := valMul (valArg v 0) (valArg v 1)
      let r := exactSum m [p.1, valArg v 2]
      (r.1, p.2 ||| r.2)) fun v => intArg v 0 * intArg v 1 + intArg v 2)

/-- The lesser or greater of two elements (R83, R173). -/
def minMaxElem (code : Nat) (wantMax : Bool) (a b : Nat) : Nat × Flags :=
  if code < 8 then
    let less := decide (elemInt code a < elemInt code b)
    (if less == wantMax then b else a, 0)
  else minMaxFp (fpFmt code) wantMax a b

/-- VMIN (R173). -/
def execVmin (x : Ext) (s : State) : Host.Outcome State Fault Refusal :=
  vecMap s x [(x.a, x.dfmt.toNat), (x.b, x.dfmt.toNat)] 5 (fun _ => (.rne, 0)) (pureLane fun v => minMaxElem x.dfmt.toNat false (arg v 0) (arg v 1))

/-- VMAX (R173). -/
def execVmax (x : Ext) (s : State) : Host.Outcome State Fault Refusal :=
  vecMap s x [(x.a, x.dfmt.toNat), (x.b, x.dfmt.toNat)] 5 (fun _ => (.rne, 0)) (pureLane fun v => minMaxElem x.dfmt.toNat true (arg v 0) (arg v 1))

/-- |x| of an element (R174). -/
def absElem (code x : Nat) : Nat :=
  let w := fmtBits code
  if 8 ≤ code then x % 2 ^ (w - 1) else intElem code (Int.ofNat (elemInt code x).natAbs)

/-- −x of an element (R174). -/
def negElem (code x : Nat) : Nat :=
  let w := fmtBits code
  if 8 ≤ code then x ^^^ 2 ^ (w - 1) else intElem code (-(elemInt code x))

/-- VABS (R174). -/
def execVabs (x : Ext) (s : State) : Host.Outcome State Fault Refusal :=
  vecMap s x [(x.a, x.dfmt.toNat)] 5 (fun _ => (.rne, 0)) (pureLane fun v => (absElem x.dfmt.toNat (arg v 0), 0))

/-- VNEG (R174). -/
def execVneg (x : Ext) (s : State) : Host.Outcome State Fault Refusal :=
  vecMap s x [(x.a, x.dfmt.toNat)] 5 (fun _ => (.rne, 0)) (pureLane fun v => (negElem x.dfmt.toNat (arg v 0), 0))

/-- VAND (R175). -/
def execVand (x : Ext) (s : State) : Host.Outcome State Fault Refusal :=
  vecMap s x [(x.a, x.dfmt.toNat), (x.b, x.dfmt.toNat)] 5 (fun _ => (.rne, 0)) (pureLane fun v => (arg v 0 &&& arg v 1, 0))

/-- VOR (R175). -/
def execVor (x : Ext) (s : State) : Host.Outcome State Fault Refusal :=
  vecMap s x [(x.a, x.dfmt.toNat), (x.b, x.dfmt.toNat)] 5 (fun _ => (.rne, 0)) (pureLane fun v => (arg v 0 ||| arg v 1, 0))

/-- VXOR (R175). -/
def execVxor (x : Ext) (s : State) : Host.Outcome State Fault Refusal :=
  vecMap s x [(x.a, x.dfmt.toNat), (x.b, x.dfmt.toNat)] 5 (fun _ => (.rne, 0)) (pureLane fun v => (arg v 0 ^^^ arg v 1, 0))

/-- VSHL (R175): the count is the lane of B, unsigned, mod the lane width. -/
def execVshl (x : Ext) (s : State) : Host.Outcome State Fault Refusal :=
  let w := fmtBits x.dfmt.toNat
  vecMap s x [(x.a, x.dfmt.toNat), (x.b, x.dfmt.toNat)] 5 (fun _ => (.rne, 0)) (pureLane fun v => (arg v 0 * 2 ^ (arg v 1 % w) % 2 ^ w, 0))

/-- VSHR (R175): floor division, signed for .iN. -/
def execVshr (x : Ext) (s : State) : Host.Outcome State Fault Refusal :=
  let w := fmtBits x.dfmt.toNat
  vecMap s x [(x.a, x.dfmt.toNat), (x.b, x.dfmt.toNat)] 5 (fun _ => (.rne, 0))
    (pureLane fun v => (intElem x.dfmt.toNat (elemInt x.dfmt.toNat (arg v 0) / (2 ^ (arg v 1 % w) : Int)), 0))

/-- A condition of VCMP on two elements (R142, R143, R176). -/
def cmpElem (code cc a b : Nat) : Bool × Flags :=
  if code < 8 then (intCond cc (fmtBits code) a b, 0) else fpCond cc (valOf code a) (valOf code b)

/-- VCMP (R176): one row, into a mask register. -/
def execVcmp (x : Ext) (s : State) : Host.Outcome State Fault Refusal :=
  instrX s x [] [x.a, x.b] fun _ l =>
    let code := x.dfmt.toNat
    checkTiles l x [(x.a, some code), (x.b, some code)] fun os l =>
      let rs := l.readAll (l.finish 6) (rowRange x) os
      let lanes := lanesOf code
      let cc := (x.immZ.toNat % 16)
      let cond := fun (j : Nat) =>
        if laneActive l x lanes os j then
          cmpElem code cc (arg ((os.zip rs.1).map fun p => p.1.lane (p.2.getD 0 0) j) 0) (arg ((os.zip rs.1).map fun p => p.1.lane (p.2.getD 0 0) j) 1)
        else (false, 0)
      let cs := (List.range lanes).map cond
      let bit := fun (i : Nat) => if lanes ≤ 128 then (cs.getD i (false, 0)).1 else (cs.getD (2 * i) (false, 0)).1 && (cs.getD (2 * i + 1) (false, 0)).1
      let mask := (List.range 128).foldl (fun m i => if bit i then m ||| 2 ^ i else m) 0
      .done ((rs.2.onTh fun t => t.setK (x.d.toNat % 4) (BitVec.ofNat 128 mask)).setFlags (cs.foldl (fun f c => f ||| c.2) 0))

/-- VSEL (R177): the mask chooses between A and B and switches no lane off. -/
def execVsel (x : Ext) (s : State) : Host.Outcome State Fault Refusal :=
  instrX s x [] [x.d, x.a, x.b] fun _ l =>
    let code := x.dfmt.toNat
    checkTiles l x [(x.d, some code), (x.a, some code), (x.b, some code)] fun os l =>
      match os with
      | [d, a, b] =>
        let fin := l.finish (6 + x.rcnt.toNat)
        let lanes := lanesOf code
        let rs := l.readAll fin (rowRange x) [a, b]
        let row := fun (r : Nat) (acc : Lanes) =>
          laneLoop (fmtBits code) (dEcol d.desc) (fun j rng =>
            if os.all (fun o => o.has j) then
              let k := r - x.row0.toNat
              some (if governs (l.th.k x.km.toNat) lanes j then a.lane ((rs.1.getD 0 []).getD k 0) j else b.lane ((rs.1.getD 1 []).getD k 0) j, 0, rng)
            else none) lanes acc
        let out := rowLoop rs.2 d fin row (rowRange x) { rng := l.th.rng }
        vecDone out.1 out.2 0
      | _ => .done l

/-- A lane of VCVT (R147, R178): between equal formats the value is unchanged. -/
def cvtLane (sfmt dfmt : Nat) (sat : Bool) (m : Mode) (rng : Word) (xs : List Nat) : Nat × Flags × Word :=
  let v := valOf sfmt (arg xs 0)
  let r := roundDraw dfmt (sat && sfmt != dfmt) m rng v
  (r.1, flagIf v.signals flagNV ||| r.2.1, r.2.2)

/-- VCVT (R178). -/
def execVcvt (x : Ext) (s : State) : Host.Outcome State Fault Refusal :=
  vecMap s x [(x.a, x.sfmt.toNat)] 5 (fun l => modeFor l x) (cvtLane x.sfmt.toNat x.dfmt.toNat x.sat)

/-- ⌊log2⌋ of a non-zero finite magnitude. -/
def floorLog2 : Val → Int
  | .fin _ m e _ => Int.ofNat (bitLen m) - 1 + e
  | _ => 0

/-- The entries of a codebook (R85, R156). -/
def bookEntries (book : Nat) : List Nat := (List.range 16).map fun c => elemAt book 16 c

/-- The value 2^X. -/
def pow2 (i : Int) : Val := .fin false 1 i false

/-- emax of a quantised format (R100). -/
def emaxOf (fmt : Nat) (book : List Nat) : Int :=
  if fmt == 12 then 8
  else if fmt == 13 then 15
  else
    let big := (book.map (valOf 10)).foldl (fun acc v => if v.nonFinite || v.isZero then acc else if acc.lt v.abs then v.abs else acc) (Val.fin false 0 0 false)
    if big.isZero then 0 else floorLog2 big

/-- The index of a codebook entry nearest to x / s, and ST where it is clipped; NV when no entry is finite (R101). Distances are compared
exactly as |x − book[c] × s|. -/
def nearestEntry (book : List Nat) (s x : Val) : Nat × Flags :=
  let vs := (book.map (valOf 10)).mapIdx fun i v => (i, v)
  let fin := vs.filter fun e => !e.2.nonFinite
  let scaled := fin.map fun e => (e.1, (valMul e.2 s).1)
  let dist := fun (v : Val) => (exactSum .rne [x, v.negate]).1.abs
  match scaled with
  | [] => (0, flagNV)
  | e :: r =>
    let best := r.foldl (fun acc c => if (dist c.2).lt (dist acc.2) then c else acc) e
    let below := scaled.all fun c => x.lt c.2
    let above := scaled.all fun c => c.2.lt x
    (best.1, flagIf (below || above) flagST)

/-- What a block of VQNT gives: element codes, the scale byte, flags, the generator (R100 to R102). DESIGN CHOICE (assumption 97): a block that is not finite
raises IB alone; whether a signalling NaN in it raises NV beside it (R88), R102 does not say. -/
def quantBlock (sfmt dfmt : Nat) (scale : Option Nat) (book : List Nat) (m : Mode) (rng : Word) (xs : List Nat) :
    List Nat × Nat × Flags × Word :=
  let vs := xs.map (valOf sfmt)
  let supplied := scale.map (valOf 9)
  let badScale := match supplied with
    | some v => v.nonFinite || v.isZero || v.neg
    | none => false
  if vs.any Val.nonFinite || badScale then
    let rng := if m == .rsr && dfmt != 14 then xs.foldl (fun r _ => rngNext r) rng else rng
    (xs.map fun _ => 0, 0xFF, flagIf (vs.any Val.nonFinite) flagIB ||| flagIf badScale flagNV, rng)
  else
    let amax := vs.foldl (fun acc v => if acc.lt v.abs then v.abs else acc) (Val.fin false 0 0 false)
    let X : Int := if amax.isZero then -127 else max (-127) (min 127 (floorLog2 amax - emaxOf dfmt book))
    let sv := supplied.getD (pow2 X)
    let r := vs.foldl (fun (acc : List Nat × Flags × Word) v =>
      if dfmt == 14 then
        let n := nearestEntry book sv v
        (acc.1 ++ [n.1], acc.2.1 ||| n.2, acc.2.2)
      else
        let q := (valDiv v sv).1
        let e := roundDraw dfmt true m acc.2.2 q
        (acc.1 ++ [e.1], acc.2.1 ||| e.2.1, e.2.2)) ([], (0 : Flags), rng)
    (r.1, (X + 127).toNat, r.2.1, r.2.2)

/-- The block of a row of VQNT, and what it adds: elements, and its scale byte (R179). -/
def quantRow (x : Ext) (d a : TileOp) (scale : Option Nat) (book : List Nat) (m : Mode) (lanes row : Nat) (acc : Lanes × Nat × Nat) : Lanes × Nat × Nat :=
  (List.range (lanes / 32)).foldl (fun (acc : Lanes × Nat × Nat) b =>
    let js := ((List.range 32).map (32 * b + ·)).filter fun j => d.has j && a.has j
    if js.isEmpty then acc
    else
      let q := quantBlock x.sfmt.toNat x.dfmt.toNat scale book m acc.1.rng (js.map fun j => a.lane row j)
      let w := fmtBits x.dfmt.toNat
      let ls := (js.zip q.1).foldl (fun (s : Lanes) p => s.put w (dEcol d.desc + p.1) p.2) acc.1
      let c := dEcol d.desc / 32 + b
      let ls := { ls with rng := q.2.2.2, flags := ls.flags ||| q.2.2.1 }
      if scale.isSome then (ls, acc.2) else (ls, acc.2.1 ||| 255 * 2 ^ (8 * c), acc.2.2 + q.2.1 * 2 ^ (8 * c))) acc

/-- VQNT (R179). DESIGN CHOICE (assumption 100): where ECOL is misaligned and the SCL or CBK condition fails as well, the trap is that of the latter (0x21); R179
does not say which wins. -/
def execVqnt (x : Ext) (s : State) : Host.Outcome State Fault Refusal :=
  instrX s x [x.b] [x.d, x.a] fun _ l =>
    checkTiles l x [(x.d, some x.dfmt.toNat), (x.a, some x.sfmt.toNat)] fun os l =>
      match os with
      | [d, a] =>
        let scale := if x.b = 0 then none else some ((l.g x.b).toNat % 2 ^ 32)
        if (if scale.isNone then !dScl d.desc else dScl d.desc) || (x.dfmt == 14 && !dCbk d.desc) then .trap l 0x21 0 0
        else if dEcol a.desc % 32 != 0 || dEcol d.desc % 32 != 0 then .trap l 0x23 0 0
        else
          let fin := l.finish (5 + 2 * (x.rcnt.toNat + 1))
          let bk := l.readArea 2 (tileKey l.myCore d.reg) fin
          let rs := bk.2.readRows 0 a fin (rowRange x)
          let m := modeFor l x
          let r := (rowRange x).foldl (fun (acc : Live × Lanes) row =>
            let q := quantRow x d a scale (bookEntries bk.1) m.1 (lanesOf x.sfmt.toNat) (rs.1.getD (row - x.row0.toNat) 0) ({ acc.2 with mask := 0, val := 0 }, 0, 0)
            let k := tileRowKey l.myCore d.reg row
            let l1 := if q.1.mask = 0 then acc.1 else acc.1.lateArea 0 k q.1.mask q.1.val fin
            (if q.2.1 = 0 then l1 else l1.lateArea 1 k q.2.1 q.2.2 fin, q.1)) (rs.2, { rng := l.th.rng })
          vecDone r.1 r.2 m.2
      | _ => .done l

/-- A dequantised element (R85, R103): the exact value times 2^X, rounded to nearest even; a scale of 0xFF gives the canonical NaN. A
signalling NaN sets NV (R88). -/
def dequant (sfmt dfmt : Nat) (book : List Nat) (scale : Option Nat) (e : Nat) : Nat × Flags :=
  let v := if sfmt == 14 then valOf 10 (book.getD e 0) else valOf sfmt e
  if scale == some 0xFF then ((fpFmt dfmt).nan, flagIf v.signals flagNV)
  else
    let p := (valMul v (pow2 (match scale with
      | some c => Int.ofNat c - 127
      | none => 0))).1
    let r := roundFp (fpFmt dfmt) false .rne 0 p
    (r.1, flagIf v.signals flagNV ||| r.2)

/-- VDQ (R180). -/
def execVdq (x : Ext) (s : State) : Host.Outcome State Fault Refusal :=
  instrX s x [] [x.d, x.a] fun _ l =>
    checkTiles l x [(x.d, some x.dfmt.toNat), (x.a, some x.sfmt.toNat)] fun os l =>
      match os with
      | [d, a] =>
        if x.sfmt == 14 && !dCbk a.desc then .trap l 0x21 0 0
        else if dEcol a.desc % 32 != 0 then .trap l 0x23 0 0
        else
          let fin := l.finish (5 + 2 * (x.rcnt.toNat + 1))
          let bk := l.readArea 2 (tileKey l.myCore a.reg) fin
          let book := bookEntries bk.1
          let rs := bk.2.readRows 0 a fin (rowRange x)
          let sc := rs.2.readRows 1 a fin (rowRange x)
          let row := fun (r : Nat) (acc : Lanes) =>
            laneLoop (fmtBits x.dfmt.toNat) (dEcol d.desc) (fun j rng =>
              if laneActive l x (lanesOf x.dfmt.toNat) os j then
                let k := r - x.row0.toNat
                let scale := if dScl a.desc then some (elemAt (sc.1.getD k 0) 8 ((dEcol a.desc + j) / 32)) else none
                let v := dequant x.sfmt.toNat x.dfmt.toNat book scale (a.lane (rs.1.getD k 0) j)
                some (v.1, v.2, rng)
              else none) (lanesOf x.dfmt.toNat) acc
          let out := rowLoop sc.2 d fin row (rowRange x) { rng := l.th.rng }
          vecDone out.1 out.2 0
      | _ => .done l

/-- Fraction bits of the function results of R181 before they are rounded. -/
def fnBits : Nat := 110

/-- The next bits of a logarithm: z in units of 2^−256 lies in [1, 2). -/
def log2Bits : Nat → Nat → Nat → Nat
  | 0, _, acc => acc
  | n + 1, z, acc =>
    let q := z * z / 2 ^ 256
    if 2 ^ 257 ≤ q then log2Bits n (q / 2) (2 * acc + 1) else log2Bits n q (2 * acc)

/-- log2 of a positive finite value (R181): exact for a power of two, else cut far below every rounding position. -/
def valLog2 (m : Nat) (e : Int) : Val :=
  let k := bitLen m - 1
  let E : Int := Int.ofNat k + e
  if m == 2 ^ k then .fin (E < 0) E.natAbs 0 false
  else
    let frac := log2Bits fnBits (m * 2 ^ 256 / 2 ^ k) 0
    let n : Int := E * Int.ofNat (2 ^ fnBits) + Int.ofNat frac
    if n < 0 then .fin true (n.natAbs - 1) (-Int.ofNat fnBits) true else .fin false n.toNat (-Int.ofNat fnBits) true

/-- 2 to the fraction given by the bits of f below 2^n, highest first, in units of 2^−256: root is 2^(2^−i) for the bit at hand. -/
def exp2Bits : Nat → Nat → Nat → Nat → Nat
  | 0, _, _, acc => acc
  | n + 1, f, root, acc =>
    let next := isqrt (root * 2 ^ 256)
    exp2Bits n f next (if f.testBit n then acc * next / 2 ^ 256 else acc)

/-- 2^x of a finite value (R181): exact for an integer, else cut far below every rounding position. -/
def valExp2 (neg : Bool) (m : Nat) (e : Int) : Val :=
  if m == 0 then .fin false 1 0 false
  else if 40 ≤ Int.ofNat (bitLen m) + e then .fin false 1 (if neg then -(2 ^ 40) else 2 ^ 40) false
  else
    let scaled : Int := scaleTo neg m e (if e < 0 then e else 0)
    let unit : Int := if e < 0 then Int.ofNat (2 ^ e.natAbs) else 1
    let n := scaled / unit
    let fr := (scaled % unit).toNat
    if fr == 0 then .fin false 1 n false
    else
      let f := fr * 2 ^ fnBits / unit.toNat
      if f == 0 then .fin false (2 ^ 256) (n - 256) true
      else if f + 1 == 2 ^ fnBits && n == -1 then .fin false (2 ^ 257 - 1) (n - 256) true
      else .fin false (exp2Bits fnBits f (2 ^ 257) (2 ^ 256)) (n - 256) true

/-- 1/√x of a positive finite value (R181). -/
def valRsq (m : Nat) (e : Int) : Val :=
  let odd := e % 2 != 0
  let m := if odd then 2 * m else m
  let e := if odd then e - 1 else e
  let k := 160 + bitLen m
  let y := isqrt (2 ^ (2 * k) / m)
  .fin false y (-Int.ofNat k - e / 2) (y * y * m != 2 ^ (2 * k))

/-- The functions of R181 on a value: exact or cut, with the table's flags. 0 VEXP2, 1 VLOG2, 2 VRCP, 3 VRSQ. -/
def fnValue (k : Nat) (v : Val) : Val × Flags :=
  match v with
  | .nan sg => (.nan false, flagIf sg flagNV)
  | .inf neg =>
    match k with
    | 0 => (if neg then .fin false 0 0 false else .inf false, 0)
    | 1 => if neg then (.nan false, flagNV) else (.inf false, 0)
    | 2 => (.fin neg 0 0 false, 0)
    | _ => if neg then (.nan false, flagNV) else (.fin false 0 0 false, 0)
  | .fin neg m e _ =>
    if m == 0 then
      match k with
      | 0 => (.fin false 1 0 false, 0)
      | 1 => (.inf true, flagDZ)
      | _ => (.inf neg, flagDZ)
    else
      match k with
      | 0 => (valExp2 neg m e, 0)
      | 1 => if neg then (.nan false, flagNV) else (valLog2 m e, 0)
      | 2 => ((valDiv (.fin false 1 0 false) v).1, 0)
      | _ => if neg then (.nan false, flagNV) else (valRsq m e, 0)

/-- A lane of VEXP2, VLOG2, VRCP or VRSQ (R181): to nearest even in the 16-bit formats, one of the two bracketing values in binary32
(assumption 14). -/
def fnLane (k code : Nat) (xs : List Nat) : Nat × Flags :=
  let x := arg xs 0
  let v := fnValue k (valOf code x)
  let mode : Mode := if code != 9 then .rne else if Config.bracketUp k (BitVec.ofNat 32 x) then .rup else .rdn
  let r := roundFp (fpFmt code) false mode 0 v.1
  (r.1, v.2 ||| r.2)

/-- A function instruction: two unit cycles a row (R165). -/
def fnBody (s : State) (x : Ext) (k : Nat) : Host.Outcome State Fault Refusal :=
  vecMap s x [(x.a, x.dfmt.toNat)] (10 + x.rcnt.toNat) (fun _ => (.rne, 0)) (pureLane (fnLane k x.dfmt.toNat))

/-- VEXP2 (R181). -/
def execVexp2 (x : Ext) (s : State) : Host.Outcome State Fault Refusal := fnBody s x 0
/-- VLOG2 (R181). -/
def execVlog2 (x : Ext) (s : State) : Host.Outcome State Fault Refusal := fnBody s x 1
/-- VRCP (R181). -/
def execVrcp (x : Ext) (s : State) : Host.Outcome State Fault Refusal := fnBody s x 2
/-- VRSQ (R181). -/
def execVrsq (x : Ext) (s : State) : Host.Outcome State Fault Refusal := fnBody s x 3

/-- A node of a reduction tree or chain: floating-point nodes are encodings, integer nodes exact (R99, R182). -/
abbrev Node := Option (Nat ⊕ Int)

/-- Combines two present nodes. -/
abbrev Combine := Nat ⊕ Int → Nat ⊕ Int → Word → (Nat ⊕ Int) × Flags × Word

/-- One level of the tree (R99). -/
def treeLevel (f : Combine) : List Node → Word → List Node × Flags × Word
  | a :: b :: r, rng =>
    match a, b with
    | some u, some v =>
      let c := f u v rng
      let rest := treeLevel f r c.2.2
      (some c.1 :: rest.1, c.2.1 ||| rest.2.1, rest.2.2)
    | a, b =>
      let rest := treeLevel f r rng
      (a.or b :: rest.1, rest.2.1, rest.2.2)
  | l, rng => (l, 0, rng)

/-- The tree of so many levels (R99). -/
def treeReduce (f : Combine) : Nat → List Node → Flags → Word → Node × Flags × Word
  | 0, ns, fl, rng => (ns.headD none, fl, rng)
  | n + 1, ns, fl, rng =>
    let r := treeLevel f ns rng
    treeReduce f n r.1 (fl ||| r.2.1) r.2.2

/-- A leaf. -/
def leafNode (code e : Nat) : Nat ⊕ Int := if code < 8 then .inr (elemInt code e) else .inl e

/-- The sum of two nodes (R99). -/
def sumNodes (code : Nat) (m : Mode) : Combine := fun a b rng =>
  match a, b with
  | .inl x, .inl y =>
    let s := exactSum m [valOf code x, valOf code y]
    let r := roundDraw code false m rng s.1
    (.inl r.1, s.2 ||| r.2.1, r.2.2)
  | .inr x, .inr y => (.inr (x + y), 0, rng)
  | a, _ => (a, 0, rng)

/-- The lesser or greater of two nodes (R99). -/
def pickNodes (code : Nat) (wantMax : Bool) : Combine := fun a b rng =>
  match a, b with
  | .inl x, .inl y =>
    let r := minMaxFp (fpFmt code) wantMax x y
    (.inl r.1, r.2, rng)
  | .inr x, .inr y => (.inr (if wantMax then (if x < y then y else x) else (if x < y then x else y)), 0, rng)
  | a, _ => (a, 0, rng)

/-- An element from a node: integers wrapped (R182). -/
def nodeElem (code : Nat) : Nat ⊕ Int → Nat
  | .inl x => x
  | .inr i => intElem code i

/-- A row reduction (R182): the root goes to element ECOL of D, whatever the mask holds; D's COLS limits no lane. -/
def reduceBody (s : State) (x : Ext) (sum : Bool) (mode : Live → Mode × Flags) (f : Mode → Combine) : Host.Outcome State Fault Refusal :=
  instrX s x [] [x.d, x.a] fun _ l =>
    let code := x.dfmt.toNat
    checkTiles l x [(x.d, some code), (x.a, some code)] fun os l =>
      match os with
      | [d, a] =>
        if dCols d.desc ≤ dEcol d.desc then .trap l 0x23 0 0
        else
          let fin := l.finish (9 + x.rcnt.toNat)
          let lanes := lanesOf code
          let m := mode l
          let rs := l.readRows 0 a fin (rowRange x)
          let row := fun (r : Nat) (acc : Lanes) =>
            let leaves := (List.range lanes).map fun j =>
              if laneActive l x lanes [a] j then some (leafNode code (a.lane (rs.1.getD (r - x.row0.toNat) 0) j)) else none
            let t := treeReduce (f m.1) 8 leaves 0 acc.rng
            let root := match t.1 with
              | some n => (nodeElem code n, t.2.1)
              | none => if code < 8 || sum then (0, t.2.1) else ((fpFmt code).nan, t.2.1 ||| flagNV)
            { acc.put (fmtBits code) (dEcol d.desc) root.1 with rng := t.2.2, flags := acc.flags ||| root.2 }
          let out := rowLoop rs.2 d fin row (rowRange x) { rng := l.th.rng }
          vecDone out.1 out.2 m.2
      | _ => .done l

/-- VREDSUM (R182). -/
def execVredsum (x : Ext) (s : State) : Host.Outcome State Fault Refusal := reduceBody s x true (vecMode x) (sumNodes x.dfmt.toNat)
/-- VREDMAX (R182). -/
def execVredmax (x : Ext) (s : State) : Host.Outcome State Fault Refusal :=
  reduceBody s x false (fun _ => (.rne, 0)) fun _ => pickNodes x.dfmt.toNat true
/-- VREDMIN (R182). -/
def execVredmin (x : Ext) (s : State) : Host.Outcome State Fault Refusal :=
  reduceBody s x false (fun _ => (.rne, 0)) fun _ => pickNodes x.dfmt.toNat false

/-- VSCAN (R183, R99): a chain over the active lanes; integers wrap. -/
def execVscan (x : Ext) (s : State) : Host.Outcome State Fault Refusal :=
  instrX s x [] [x.d, x.a] fun _ l =>
    let code := x.dfmt.toNat
    checkTiles l x [(x.d, some code), (x.a, some code)] fun os l =>
      match os with
      | [d, a] =>
        let fin := l.finish (5 + 2 * (x.rcnt.toNat + 1))
        let lanes := lanesOf code
        let m := vecMode x l
        let rs := l.readRows 0 a fin (rowRange x)
        let row := fun (r : Nat) (acc : Lanes) =>
          ((List.range lanes).foldl (fun (st : Lanes × Option Nat) j =>
            if !laneActive l x lanes os j then st
            else
              let e := a.lane (rs.1.getD (r - x.row0.toNat) 0) j
              let v : Nat × Flags × Word :=
                if code < 8 then (intElem code (elemInt code (st.2.getD 0) + elemInt code e), 0, st.1.rng)
                else match st.2 with
                  | none =>
                    let q := valOf code e
                    let o := roundDraw code false m.1 st.1.rng q
                    (o.1, flagIf q.signals flagNV ||| o.2.1, o.2.2)
                  | some p =>
                    let q := exactSum m.1 [valOf code p, valOf code e]
                    let o := roundDraw code false m.1 st.1.rng q.1
                    (o.1, q.2 ||| o.2.1, o.2.2)
              ({ st.1.put (fmtBits code) (dEcol d.desc + j) v.1 with rng := v.2.2, flags := st.1.flags ||| v.2.1 }, some v.1)) (acc, none)).1
        let out := rowLoop rs.2 d fin row (rowRange x) { rng := l.th.rng }
        vecDone out.1 out.2 m.2
      | _ => .done l

/-- VBCST (R186): from a g register, or from a lane of A in each row; D's active lanes are judged against D alone. -/
def execVbcst (x : Ext) (s : State) : Host.Outcome State Fault Refusal :=
  let fromT := x.immZ.getLsbD 18
  instrX s x (if fromT then [] else [x.a]) (if fromT then [x.d, x.a] else [x.d]) fun _ l =>
    let code := x.dfmt.toNat
    checkTiles l x ((x.d, some code) :: if fromT then [(x.a, some code)] else []) fun os l =>
      match os with
      | [] => .done l
      | d :: rest =>
        let fin := l.finish (6 + x.rcnt.toNat)
        let lanes := lanesOf code
        let lane := wbits x.immZ 7 0
        let rs := l.readAll fin (rowRange x) rest
        let value := fun (r : Nat) =>
          match rest with
          | a :: _ => if decide (lane < lanes) && a.has lane then a.lane ((rs.1.getD 0 []).getD (r - x.row0.toNat) 0) lane else 0
          | [] => (l.g x.a).toNat % 2 ^ fmtBits code
        let row := fun (r : Nat) (acc : Lanes) =>
          laneLoop (fmtBits code) (dEcol d.desc) (fun j rng => if laneActive l x lanes [d] j then some (value r, 0, rng) else none) lanes acc
        let out := rowLoop rs.2 d fin row (rowRange x) { rng := l.th.rng }
        vecDone out.1 out.2 0

/-- VPERM (R187): lane i of A in the same row, where i is the lane of B. -/
def execVperm (x : Ext) (s : State) : Host.Outcome State Fault Refusal :=
  instrX s x [] [x.d, x.a, x.b] fun _ l =>
    let code := x.dfmt.toNat
    checkTiles l x [(x.d, some code), (x.a, some code), (x.b, some 4)] fun os l =>
      match os with
      | [d, a, b] =>
        let fin := l.finish (5 + 2 * (x.rcnt.toNat + 1))
        let lanes := lanesOf code
        let rs := l.readAll fin (rowRange x) [a, b]
        let row := fun (r : Nat) (acc : Lanes) =>
          let k := r - x.row0.toNat
          laneLoop (fmtBits code) (dEcol d.desc) (fun j rng =>
            if laneActive l x lanes os j then
              let i := b.lane ((rs.1.getD 1 []).getD k 0) j
              some (if decide (i < lanes) && a.has i then a.lane ((rs.1.getD 0 []).getD k 0) i else 0, 0, rng)
            else none) lanes acc
        let out := rowLoop rs.2 d fin row (rowRange x) { rng := l.th.rng }
        vecDone out.1 out.2 0
      | _ => .done l

/-- VGATHER (R187): element i mod COLS of row i div COLS of A, where i is the lane of B. -/
def execVgather (x : Ext) (s : State) : Host.Outcome State Fault Refusal :=
  instrX s x [] [x.d, x.a, x.b] fun _ l =>
    let code := x.dfmt.toNat
    checkTiles l x [(x.d, some code), (x.a, some code), (x.b, some 5)] fun os l =>
      match os with
      | [d, a, b] =>
        let fin := l.finish (5 + 2 * (x.rcnt.toNat + 1))
        let lanes := lanesOf code
        let cols := dCols a.desc
        let all := l.readRows 0 a fin (List.range (dRows a.desc))
        let rs := all.2.readRows 0 b fin (rowRange x)
        let row := fun (r : Nat) (acc : Lanes) =>
          laneLoop (fmtBits code) (dEcol d.desc) (fun j rng =>
            if laneActive l x lanes os j then
              let i := b.lane (rs.1.getD (r - x.row0.toNat) 0) j
              some (if dRows a.desc * cols ≤ i then 0 else elemAt (all.1.getD (i / cols) 0) (fmtBits code) (i % cols), 0, rng)
            else none) lanes acc
        let out := rowLoop rs.2 d fin row (rowRange x) { rng := l.th.rng }
        vecDone out.1 out.2 0
      | _ => .done l

/-- TMOV (R184): elements as they are; a mask needs a format with lanes. -/
def execTmov (x : Ext) (s : State) : Host.Outcome State Fault Refusal :=
  instrX s x [] [x.d, x.a] fun _ l =>
    checkTiles l x [(x.d, none), (x.a, none)] fun os l =>
      match os with
      | [d, a] =>
        let code := dFmt d.desc
        let lanes := if code == 14 then 0 else lanesOf code
        if dFmt a.desc != code || (x.men && lanes == 0) then .trap l 0x22 0 0
        else
          let fin := l.finish (5 + 2 * (x.rcnt.toNat + 1))
          let n := Nat.min (dCols a.desc - dEcol a.desc) (dCols d.desc - dEcol d.desc)
          let rs := l.readRows 0 a fin (rowRange x)
          let row := fun (r : Nat) (acc : Lanes) =>
            laneLoop (fmtBits code) (dEcol d.desc) (fun j rng =>
              if !x.men || governs (l.th.k x.km.toNat) lanes (j % lanes) then some (a.lane (rs.1.getD (r - x.row0.toNat) 0) j, 0, rng) else none) n acc
          let out := rowLoop rs.2 d fin row (rowRange x) { rng := l.th.rng }
          vecDone out.1 out.2 0
      | _ => .done l

/-- TTR (R185): transposes a whole tile; D's descriptor follows. -/
def execTtr (x : Ext) (s : State) : Host.Outcome State Fault Refusal :=
  instrX s x [] [x.d, x.a] fun _ l =>
    checkTiles l x [(x.d, none), (x.a, some x.dfmt.toNat)] fun os l =>
      match os with
      | [d, a] =>
        if 32 < dCols a.desc then .trap l 0x23 0 0
        else
          let fin := l.finish 38
          let w := fmtBits x.dfmt.toNat
          let rows := dRows a.desc
          let cols := dCols a.desc
          let rs := l.readRows 0 a fin (List.range rows)
          let row := fun (c : Nat) (acc : Lanes) => laneLoop w 0 (fun r rng => some (elemAt (rs.1.getD r 0) w c, 0, rng)) rows acc
          let out := rowLoop rs.2 d fin row (List.range cols) { rng := l.th.rng }
          vecDone (out.1.lateArea 3 (tileKey l.myCore d.reg) (2 ^ 64 - 1) (mkDesc x.dfmt.toNat cols rows 0 false false).toNat fin) out.2 0
      | _ => .done l

/-- A field of a descriptor by FLD (R160): its lowest bit and width. -/
def descField (fld : Nat) : Nat × Nat :=
  match fld with
  | 0 => (0, 64)
  | 1 => (0, 4)
  | 2 => (13, 6)
  | 3 => (19, 11)
  | 4 => (30, 10)
  | 5 => (9, 1)
  | _ => (10, 1)

/-- A value lies in a field's range (R160). -/
def fieldInRange (fld : Nat) (v : Word) : Bool :=
  match fld with
  | 0 => descInRange v
  | 1 => v.toNat < 16
  | 2 => 1 ≤ v.toNat && v.toNat ≤ 32
  | 3 => 1 ≤ v.toNat && v.toNat ≤ 1024
  | 4 => v.toNat < 1024
  | _ => v.toNat < 2

/-- MTD (R160): a value out of range traps and changes nothing. -/
def mtdBody (s : State) (len : Nat) (t : BitVec 4) (d : BitVec 7) (fld : BitVec 4) (off : Word) : Host.Outcome State Fault Refusal :=
  onLive s fun b l => finish b len (checkWindows l [d.toNat] [t.toNat] fun _ => checkPresent l [d.toNat] fun _ =>
    let v := l.g d + off
    if !fieldInRange fld.toNat v then .trap l 0x21 0 0
    else
      let r := l.tileReg t.toNat
      let f := descField fld.toNat
      .done (l.setDesc r (setBits (tget l.dev.descs descReset (tileKey l.myCore r)) f.1 f.2 v.toNat) 6))

/-- MTD (R160). -/
def execMtd (t : BitVec 4) (d : BitVec 7) (fld : BitVec 4) (imm : BitVec 9) (s : State) : Host.Outcome State Fault Refusal :=
  mtdBody s 1 t d fld (simm imm)

/-- MTD with a literal (R160, R60). -/
def execMtdLit (t : BitVec 4) (d : BitVec 7) (fld : BitVec 4) (lit : Word) (s : State) : Host.Outcome State Fault Refusal :=
  mtdBody s 3 t d fld lit

/-- MFD (R160). -/
def execMfd (t : BitVec 4) (d : BitVec 7) (fld : BitVec 4) (s : State) : Host.Outcome State Fault Refusal :=
  onLive s fun b l => finish b 1 (checkWindows l [d.toNat] [t.toNat] fun _ => checkPresent l [d.toNat] fun _ =>
    let o := l.tileOp (t.setWidth 7)
    let f := descField fld.toNat
    .done (o.2.setG d (BitVec.ofNat 64 (wbits o.1.desc (f.1 + f.2 - 1) f.1))))

/-- TZERO (R161): the chosen areas become zero bytes at completion. -/
def execTzero (t : BitVec 4) (fld : BitVec 4) (s : State) : Host.Outcome State Fault Refusal :=
  onLive s fun b l => finish b 1 (checkWindows l [] [t.toNat] fun _ =>
    let l := l.syncTiles
    let r := l.tileReg t.toNat
    let due := l.finish 38
    let rows := List.range 32
    let l := if fld.getLsbD 0 then rows.foldl (fun l i => l.lateArea 0 (tileRowKey l.myCore r i) (2 ^ 4096 - 1) 0 due) l else l
    let l := if fld.getLsbD 1 then rows.foldl (fun l i => l.lateArea 1 (tileRowKey l.myCore r i) (2 ^ 256 - 1) 0 due) l else l
    .done (if fld.getLsbD 2 then l.lateArea 2 (tileKey l.myCore r) (2 ^ 256 - 1) 0 due else l))

end Sys2Proof.Machine
end

