-- ==== Sys2Proof/Machine/Gang.lean ====
section
/-!
DEFINITION. Meanings of the matrix engine's instructions and of the events of its gangs (09_gang.md), and of the sealed weight load
(19_strongroom.md).
-/

namespace Sys2Proof.Machine

/-- A core's slice. -/
def Dev.slice (d : Dev) (core : Nat) : Slice := tget d.slices {} core

/-- Changes a core's slice. -/
def Live.onSlice (l : Live) (core : Nat) (f : Slice → Slice) : Live :=
  l.map fun d => { d with slices := tset d.slices {} core (f (d.slice core)) }

/-- A weight bank of a core: 0 wb0, 1 wb1. -/
def Dev.bank (d : Dev) (core n : Nat) : Bank := tget d.banks {} (core * 2 + n)

/-- Changes a weight bank. -/
def Live.setBank (l : Live) (core n : Nat) (v : Bank) : Live :=
  l.map fun d => { d with banks := tset d.banks {} (core * 2 + n) v }

/-- The active bank of a core. -/
def Dev.active (d : Dev) (core : Nat) : Nat := if (d.slice core).act then 1 else 0
/-- The shadow bank of a core. -/
def Dev.shadow (d : Dev) (core : Nat) : Nat := if (d.slice core).act then 0 else 1

/-- Key of an accumulator word. -/
def accKey (core a row col : Nat) : Nat := ((core * 4 + a) * 32 + row) * 8 + col

/-- A slice outside a gang: every field is zero (R193). -/
def Live.clearSlice (l : Live) (core : Nat) : Live :=
  l.map fun d => { d with slices := tdel d.slices core, banks := tclear d.banks (core * 2) 2, accs := tclear d.accs (accKey core 0 0 0) 1024 }

/-- MFLAGS as STATUS flags. -/
def ofMflags (m : BitVec 4) : Flags :=
  flagIf (m.getLsbD 3) flagNV ||| flagIf (m.getLsbD 2) flagOF ||| flagIf (m.getLsbD 1) flagUF ||| flagIf (m.getLsbD 0) flagNX

/-- STATUS flags as MFLAGS. -/
def toMflags (f : Flags) : BitVec 4 :=
  BitVec.ofBool (f &&& flagNV != 0) ++ BitVec.ofBool (f &&& flagOF != 0) ++ BitVec.ofBool (f &&& flagUF != 0) ++ BitVec.ofBool (f &&& flagNX != 0)

/-- Flags reach the STATUS of a thread. -/
def Live.flagThread (l : Live) (tid : Nat) (f : Flags) : Live := l.onThread tid fun t => { t with status := t.status ||| f.setWidth 64 }

/-- The waiting thread of a barrier completes. -/
def Live.completeGang (l : Live) (tid : Nat) : Live :=
  match (l.dev.thread tid).flight with
  | .gang next => l.complete tid next
  | _ => l

/-- Changes a gang. -/
def Live.onGang (l : Live) (head : Nat) (f : Gang → Gang) : Live :=
  match tfind l.dev.gangs head with
  | none => l
  | some g => l.map fun d => { d with gangs := tput d.gangs head (f g) }

/-- Every waiting instance raises a trap, with the detail and the address for each position (R191): the records are those of gang members (R414). -/
def trapArrivals (b : Boot) (l : Live) (head : Nat) (g : Gang) (cause : Nat) (detail : Nat → Nat) (addr : Nat → Word) : Live :=
  g.arrivals.foldl (fun l a => l.trapFrom b 2 a.tid cause (detail a.pos) (addr a.pos) false) (l.clearBarrier head)

/-- Every waiting instance completes. -/
def completeArrivals (l : Live) (head : Nat) (g : Gang) : Live :=
  g.arrivals.foldl (fun l a => l.completeGang a.tid) (l.onGang head fun g => { g with arrivals := [] })

/-- The lowest position of a list that a test selects. -/
def lowest (ps : List Nat) (bad : Nat → Bool) : Option Nat := (ps.filter bad).foldl (fun m p => some (match m with
  | none => p
  | some q => Nat.min q p)) none

/-- The clocks of a gang's clusters are locked (R19). -/
def Live.lockClocks (l : Live) (cores : List Nat) : Live :=
  let cs := distinct (cores.map (· / 8))
  cs.foldl Live.retune (cs.foldl (fun l c => l.onCluster c fun r => { r with lock := true }) l)

/-- The lock is released, but of clusters that another gang still locks (R19); each cluster returns to its own set-point. -/
def Live.unlockClocks (l : Live) (cores : List Nat) : Live :=
  let held := (l.dev.gangs.filter fun e => e.2.st == 2).flatMap fun e => (gangCores e.1 e.2.n).map (· / 8)
  let cs := distinct (cores.map (· / 8))
  cs.foldl Live.retune (cs.foldl (fun l c => l.onCluster c fun r => { r with lock := held.contains c }) l)

/-- MLEAVE in one member (R197). -/
def leaveOne (l : Live) (tid : Nat) : Live :=
  let core := tid / 64
  ((l.flagThread tid (ofMflags (l.dev.slice core).mflags)).clearSlice core).completeGang tid

/-- Accumulator rows as an MMA that begins now reads them: what has landed, then the rows of MMAs that have begun (R195). -/
def Dev.accNow (d : Dev) (g : Gang) (k : Nat) : BitVec 32 :=
  (g.mmas.filter Mma.begun).foldl (fun v m => (tfind m.res k).getD v) (tget d.accs 0 k)

/-- The value of an element times its block scale (R85, R86, R97), with flags. -/
def scaledVal (fmt : Nat) (book : List Nat) (scale : Option Nat) (e : Nat) : Val × Flags :=
  let v := if fmt == 14 then valOf 10 (book.getD e 0) else valOf fmt e
  match scale with
  | none => (v, 0)
  | some 0xFF => (.nan false, flagIf v.signals flagNV)
  | some c => valMul v (pow2 (Int.ofNat c - 127))

/-- A row of activations: the values of its first n elements (R200). -/
def actRow (s n : Nat) (scl : Bool) (book : List Nat) (data scales : Nat) : List (Val × Flags) :=
  (List.range n).map fun k => scaledVal s book (if scl then some (elemAt scales 8 (k / 32)) else none) (elemAt data (fmtBits s) k)

/-- A column of a bank's slot: the values of its first n elements (R193, R200). -/
def weightCol (w : Bank) (slot j n : Nat) : List (Val × Flags) :=
  let data := (tget w.data 0 (slot * 8 + j)).toNat
  let scales := (tget w.scales 0 (slot * 8 + j)).toNat
  (List.range n).map fun k =>
    scaledVal w.wf (bookEntries w.book.toNat) (if w.scl then some (elemAt scales 8 (k / 32)) else none) (elemAt data (fmtBits w.wf) k)

/-- One K step of one accumulator element (R96, R97, R200). -/
def mmaElem (acc : BitVec 32) (xs ws : List (Val × Flags)) : BitVec 32 × Flags :=
  let ps := List.zipWith (fun a w => let p := valMul a.1 w.1; (p.1, a.2 ||| w.2 ||| p.2)) xs ws
  let s := exactSum .rne (valOf 9 acc.toNat :: ps.map Prod.fst)
  let r := roundFp fmt32 false .rne 0 s.1
  (BitVec.ofNat 32 r.1, ps.foldl (fun f p => f ||| p.2) (s.2 ||| r.2))

/-- The rows that one member writes for an MMA: words by the key of accs, and the flags of each row (R200). -/
def mmaMember (l : Live) (g : Gang) (core acc slot n : Nat) (rows : List (Nat × List (Val × Flags))) : Table (BitVec 32) × Table (BitVec 4) :=
  let w := l.dev.bank core (l.dev.active core)
  let cols := (List.range 8).map fun j => (j, weightCol w slot j n)
  rows.foldl (fun t r => cols.foldl (fun t c =>
    let k := accKey core acc r.1 c.1
    let e := mmaElem (l.dev.accNow g k) r.2 c.2
    (tput t.1 k e.1, tput t.2 (core * 32 + r.1) (tget t.2 0 (core * 32 + r.1) ||| toMflags e.2))) t) ([], [])

/-- An activation format and a bank's format make a legal pair (R194). -/
def pairLegal (s wf ke : Nat) : Bool :=
  [10, 11, 12, 13, 14].contains s && [10, 11, 12, 13, 14].contains wf && decide (fmtBits wf ≤ fmtBits s) && ((s == 11) == (wf == 11)) &&
    256 * 2 ^ ke * fmtBits s == 4096

/-- A member's bank and slot serve an MMA (R200). -/
def bankServes (d : Dev) (core s slot : Nat) : Bool :=
  let w := d.bank core (d.active core)
  w.st == 2 && pairLegal s w.wf w.ke && w.valid.getLsbD slot

/-- MMAs of a gang that have begun and are not fully written, at most (R203). -/
def begunLimit : Nat := 70

/-- An MMA begins: the head's rows are read, after writes to its tile that were issued before, and every member's result is found (R195,
R200, R204). Each instance executes for 6 cycles more. -/
def mmaBegin (l : Live) (head : Nat) : Live :=
  match tfind l.dev.gangs head with
  | none => l
  | some g =>
    match g.mmas.find? fun m => !m.begun with
    | none => l
    | some m =>
      if begunLimit ≤ (g.mmas.filter Mma.begun).length then l
      else match m.instr with
      | .mma x =>
        let t := ((g.threads.find? fun p => p.1 == 0).elim 0 fun p => l.dev.tileRegOf p.2 x.a.toNat)
        let l := l.landTiles head fun w => (if w.area == 2 then w.key else w.key / 32) == tileKey head t
        let desc := tget l.dev.descs descReset (tileKey head t)
        let s := x.sfmt.toNat
        let n := dCols desc
        let book := bookEntries (l.dev.tileArea 2 (tileKey head t)).toNat
        let rows := (rowRange x).map fun r =>
          (r, actRow s n (dScl desc) book (l.dev.tileArea 0 (tileRowKey head t r)).toNat (l.dev.tileArea 1 (tileRowKey head t r)).toNat)
        let slot := x.b.toNat
        let acc := x.d.toNat
        let outs := (gangCores head g.n).map fun c => (c, mmaMember l g c acc slot n rows)
        let insts := g.threads.map fun p => (p.2, (l.dev.core (p.2 / 64)).cycle + 6, (l.dev.thread p.2).pc)
        let m' := { m with begun := true, res := outs.foldl (fun t o => o.2.1.foldl (fun t e => tput t e.1 e.2) t) [],
                           flags := outs.foldl (fun t o => o.2.2.foldl (fun t e => tput t e.1 e.2) t) [], insts }
        let l := l.onGang head fun g => { g with mmas := g.mmas.map fun y => if !y.begun then m' else y }
        let l := (gangCores head g.n).foldl (fun l c =>
          if (l.dev.bank c (l.dev.active c)).epi then l.onSlice c fun z => { z with tags := z.tags ||| (1#4 <<< acc) } else l) l
        let reg := if s == 10 || s == 11 then 1 else if s == 14 then 3 else 2
        let l := l.charge (l.dev.ctx g.ctx).owner reg (rows.length * 8 * n * g.n)
        insts.foldl (fun l p => (l.completeGang p.1).onThread p.1 fun t => { t with busy := Nat.max t.busy p.2.1 }) l
      | _ => l

/-- The first MMA that has begun writes its rows and flags (R195, R200). -/
def mmaComplete (l : Live) (head : Nat) : Live :=
  match tfind l.dev.gangs head with
  | none => l
  | some g =>
    match g.mmas with
    | [] => l
    | m :: rest =>
      if !m.begun then l
      else
        let l := l.map fun d => { d with accs := m.res.foldl (fun t e => tset t 0 e.1 e.2) d.accs }
        let l := m.flags.foldl (fun l e => l.onSlice (e.1 / 32) fun z => { z with mflags := z.mflags ||| e.2 }) l
        l.onGang head fun g => { g with mmas := rest }

/-- The epilogue: the immediate, or the literal (R60, R201). -/
def epiWord (x : Ext) : Word := x.lit.getD (x.imm.setWidth 64)
/-- Fields of an epilogue (R201). -/
def epi (x : Ext) (i : Nat) : Bool := (epiWord x).getLsbD i
/-- ACT (R201). -/
def epiAct (x : Ext) : Nat := (epiWord x).toNat % 8
/-- EPT (R201). -/
def epiTile (x : Ext) : Nat := (epiWord x).toNat / 128 % 16
/-- The epilogue is the identity (R360). -/
def epiIdentity (x : Ext) : Bool := !epi x 3 && !epi x 4 && !epi x 5 && epiAct x == 0

/-- A member's weights or accumulator refuse an MDRAIN without an epilogue (R201, R360). -/
def drainRefused (d : Dev) (core : Nat) (x : Ext) : Bool :=
  epiIdentity x && ((d.bank core (d.active core)).epi || (d.slice core).tags.getLsbD x.a.toNat)

/-- One element through the epilogue (R201): the encoding, the flags, the generator. -/
def drainElem (x : Ext) (mode : Mode) (acc : Nat) (s b d : Nat) (rng : Word) : Nat × Flags × Word :=
  let v : Val × Flags := (valOf 9 acc, 0)
  let v := if epi x 3 then (let p := valMul v.1 (valOf 9 s); (p.1, v.2 ||| p.2)) else v
  let v := if epi x 4 then (let p := exactSum mode [v.1, valOf 9 b]; (p.1, v.2 ||| p.2)) else v
  let v := if epi x 5 then (let p := exactSum mode [v.1, valOf x.dfmt.toNat d]; (p.1, v.2 ||| p.2)) else v
  let v := if epiAct x == 1 && !v.1.isNan && (v.1.neg || v.1.isZero) then (Val.fin false 0 0 false, v.2) else v
  let r := roundDraw x.dfmt.toNat x.sat mode rng v.1
  (r.1, v.2 ||| r.2.1, r.2.2)

/-- MDRAIN in one member, with the descriptors it read at issue (R201). -/
def drainOne (l : Live) (tid : Nat) (x : Ext) (dd de : Word) : Live :=
  let core := tid / 64
  let l := syncFor l tid
  let t := l.dev.thread tid
  let rd := l.dev.tileRegOf tid x.d.toNat
  let re := l.dev.tileRegOf tid (epiTile x)
  let a := x.a.toNat
  let m := resolveMode x.rm.toNat t.fpmode.toNat
  let w := fmtBits x.dfmt.toNat
  let erow := fun (r : Nat) => (l.dev.tileArea 0 (tileRowKey core re r)).toNat
  let row := fun (acc : Live × Lanes) (r : Nat) =>
    let key := tileRowKey core rd r
    let old := (acc.1.dev.tileArea 0 key).toNat
    let s := laneLoop w (dEcol dd) (fun j rng =>
      some (drainElem x m.1 (tget acc.1.dev.accs 0 (accKey core a r j)).toNat (elemAt (erow 0) 32 (dEcol de + j)) (elemAt (erow 1) 32 (dEcol de + j))
        (elemAt old w (dEcol dd + j)) rng)) 8 { acc.2 with mask := 0, val := 0 }
    let l := acc.1.map fun d => d.setTileArea 0 key ((BitVec.ofNat 4096 old &&& ~~~(BitVec.ofNat 4096 s.mask)) ||| BitVec.ofNat 4096 s.val)
    (if epi x 6 then l.map fun d => { d with accs := tclear d.accs (accKey core a r 0) 8 } else l, s)
  let out := (rowRange x).foldl row (l, { rng := t.rng })
  let l := out.1.flagThread tid (out.2.flags ||| m.2 ||| ofMflags (out.1.dev.slice core).mflags)
  let whole := epi x 6 && x.row0 == 0 && x.rcnt.toNat == 31
  let l := l.onSlice core fun z => { z with mflags := 0, tags := if whole then z.tags &&& ~~~(1#4 <<< a) else z.tags }
  (l.onThread tid fun t => { t with rng := out.2.rng }).completeGang tid

/-- MZERO in one member (R202, R360). -/
def zeroOne (l : Live) (tid acc : Nat) : Live :=
  let core := tid / 64
  let l := l.map fun d => { d with accs := tclear d.accs (accKey core acc 0 0) 256 }
  (l.onSlice core fun z => { z with tags := z.tags &&& ~~~(1#4 <<< acc) }).completeGang tid

/-- FIRST, COUNT, KE and SCL of a weight load's control word (R198). -/
def ctlFirst (v : Word) : Nat := wbits v 3 0
/-- COUNT (R198, R355). -/
def ctlCount (v : Word) : Nat := wbits v 8 4
/-- KE of WLD, KSLOT of WLDS (R198, R355). -/
def ctlKe (v : Word) : Nat := wbits v 10 9

/-- CB of a plain image (R198). -/
def colBytes (f ke : Nat) : Nat := 256 * 2 ^ ke * fmtBits f / 8

/-- Offset of the codebook of a plain image (R198). -/
def wldBook (f : Nat) (v : Word) : Nat :=
  up16 (ctlCount v * 8 * colBytes f (ctlKe v) + (if v.getLsbD 11 then ctlCount v * 8 * (256 * 2 ^ ctlKe v / 32) else 0))

/-- The granules of a plain image (R198). -/
def wldGranules (f : Nat) (v : Word) : List (Nat × Nat) :=
  let data := ctlCount v * 8 * colBytes f (ctlKe v)
  granulesOf 0 (data + (if v.getLsbD 11 then ctlCount v * 8 * (256 * 2 ^ ctlKe v / 32) else 0)) ++
    (if f == 14 then granulesOf (wldBook f v) 32 else [])

/-- A bank filled from the words of a plain image (R198). -/
def fillBank (k : Bank) (f : Nat) (v : Word) (ps : List Part) : Bank :=
  let cb := colBytes f (ctlKe v)
  let n := ctlCount v * 8
  let bytes := joinParts ps
  let sb := 256 * 2 ^ ctlKe v / 32
  let at_ := fun (off len : Nat) => bytes / 2 ^ (8 * off) % 2 ^ (8 * len)
  let scl := v.getLsbD 11
  let lead := n * cb + (if scl then n * sb else 0)
  { k with st := 2, valid := BitVec.ofNat 16 ((2 ^ ctlCount v - 1) * 2 ^ ctlFirst v),
           book := if f == 14 then BitVec.ofNat 256 (at_ lead 32) else 0
           data := (List.range n).foldl (fun t i => tset t 0 (ctlFirst v * 8 + i) (BitVec.ofNat 4096 (at_ (i * cb) cb))) []
           scales := if scl then (List.range n).foldl (fun t i => tset t 0 (ctlFirst v * 8 + i) (BitVec.ofNat 256 (at_ (n * cb + i * sb) sb))) [] else [] }

/-- The address of the first part that failed, of parts that follow an address in granules. -/
def badAddr (a : Word) (ps : List Part) : Word := a + BitVec.ofNat 64 (16 * ps.findIdx Part.bad)

/-- The reads of a WLD are performed, or one has failed: READY or FAILED (R193, R198, R222). -/
def wldDone (b : Boot) (l : Live) (r : Req) : Live :=
  match r.kind with
  | .weights core bank (.wld x) _ _ =>
    let l := l.dropReq r.id
    match r.fail with
    | some (c, _, _) =>
      let a := badAddr r.va r.parts
      deferFault b r.tid c 0 r.pc a false (l.setBank core bank { st := 3, held := some (c, a) })
    | none => l.setBank core bank (fillBank (l.dev.bank core bank) x.dfmt.toNat r.out r.parts)
  | _ => l

/-- A released plain load in one member (R198). -/
def wldOne (b : Boot) (l : Live) (tid : Nat) (x : Ext) (ctl : Word) : Live :=
  match l.dev.reqs.find? fun r => r.tid == tid && r.unreleased with
  | none => l.completeGang tid
  | some r =>
    match r.kind with
    | .weights core bank _ _ _ =>
      let l := l.setBank core bank { st := 1, wf := x.dfmt.toNat, ke := ctlKe ctl, scl := ctl.getLsbD 11 }
      let l := (l.onReq r.id fun r => { r with stage := .home }).completeGang tid
      if !l.dev.split && r.ownParts b then
        let l := serveAll b l r.id
        match l.req? r.id with
        | some r => if r.parts.all Part.done then wldDone b l r else l
        | none => l
      else l
    | _ => l.completeGang tid

/-- The header of a sealed tensor, as 128 bytes least significant first (R353). -/
structure SealHeader where
  v : Nat

/-- n bytes of a header from byte i. -/
def SealHeader.field (h : SealHeader) (i n : Nat) : Nat := h.v / 2 ^ (8 * i) % 2 ^ (8 * n)
/-- FMT (R353). -/
def SealHeader.fmt (h : SealHeader) : Nat := h.field 8 1
/-- KEC (R353). -/
def SealHeader.kec (h : SealHeader) : Nat := h.field 9 1
/-- SCL (R353). -/
def SealHeader.scl (h : SealHeader) : Bool := h.field 10 1 % 2 == 1
/-- EPI (R353). -/
def SealHeader.epi (h : SealHeader) : Bool := h.field 10 1 / 2 % 2 == 1
/-- NSTEP (R353). -/
def SealHeader.nstep (h : SealHeader) : Nat := h.field 12 4
/-- NCB (R353). -/
def SealHeader.ncb (h : SealHeader) : Nat := h.field 16 2

/-- The fields of bytes 0 to 31 meet the limits of R353. -/
def SealHeader.fieldsOk (h : SealHeader) : Bool :=
  decide (10 ≤ h.fmt) && decide (h.fmt ≤ 14) && decide (h.kec ≤ 2) && decide (256 * 2 ^ h.kec * fmtBits h.fmt ≤ 4096) && decide (h.field 10 1 < 4) &&
    (!h.scl || decide (12 ≤ h.fmt)) && h.field 11 1 == 0 && decide (1 ≤ h.nstep) && decide (1 ≤ h.ncb) && decide (h.ncb * h.nstep ≤ 2 ^ 28) &&
    h.field 18 6 == 0

/-- Every field of a header meets the limits of R353. -/
def SealHeader.ok (h : SealHeader) : Bool := h.fieldsOk && (h.fmt == 14 || h.field 32 32 == 0) && h.field 64 48 == 0

/-- The 12-byte IV with a chunk number (R354). -/
def SealHeader.iv (h : SealHeader) (n : Nat) : List Nat := leBytes (h.field 24 8) 8 ++ leBytes n 4

/-- HTAG verifies under a key (R353). -/
def SealHeader.verifies (h : SealHeader) (key : BitVec 256) : Bool :=
  (gcmOpen (leBytes key.toNat 32) (h.iv 0xFFFFFFFF) (leBytes (h.field 0 112) 112) [] (leBytes (h.field 112 16) 16)).isSome

/-- The first failure of a header, of a column block and of a step range, as DETAIL (R356). -/
def headerFault (h : SealHeader) (key : BitVec 256) (ctl blk : Word) : Option Nat :=
  if !h.verifies key then some 1
  else if !h.ok then some 2
  else if h.ncb ≤ blk.toNat || h.nstep < wbits ctl 47 16 + ctlCount ctl then some 3
  else none

/-- Chunk number of column j of step k (R354). -/
def chunkNo (nstep blk k j : Nat) : Nat := (blk * nstep + k) * 8 + j

/-- The granules of a load's chunks, 35 for each in order (R354). -/
def chunkGranules (nstep blk step0 count : Nat) : List (Nat × Nat) :=
  (List.range (8 * count)).flatMap fun i => granulesOf (128 + 576 * chunkNo nstep blk (step0 + i / 8) (i % 8)) 560

/-- The checks of R356 on an address of path 0x6. -/
def sealedAddr (a : Word) : Option Nat :=
  if wbits a 63 60 != 6 then some 0x41 else if a.toNat % 64 != 0 then some 0x42 else if wbits a 59 48 != 0 then some 0x40 else none

/-- Finds the granules of a sealed access, as the weight-load channel or SRQ reads them (R351, R384). -/
def locateSealed (b : Boot) (l : Live) (core ctx : Nat) (a : Word) (offs : List (Nat × Nat)) : Located :=
  locate b l core ctx 5 0x66 (BitVec.ofNat 64 (wbits a 47 0)) offs []

/-- The bytes of located parts. -/
def readParts (l : Live) (ps : List Part) : Nat := joinParts (ps.map fun p => { p with v := l.mem.read p.pa p.n })

/-- The cause with which reading a header fails, if it does: poison, or a failed MAC check of its own is not among them (R217). -/
def partsPoisoned (l : Live) (ps : List Part) : Bool := ps.any fun p => l.mem.anyPoison p.pa p.n

/-- A released sealed load in one member (R356): its shadow bank is LOADING and SEALED. -/
def wldsOne (l : Live) (tid : Nat) (ctl blk : Word) : Live :=
  match l.dev.reqs.find? fun r => r.tid == tid && r.unreleased with
  | none => l.completeGang tid
  | some r =>
    match r.kind with
    | .chunks core bank _ _ _ _ _ _ _ _ =>
      let h : SealHeader := ⟨joinParts (r.parts.take 8)⟩
      let l := l.setBank core bank { st := 1, wf := h.fmt, ke := h.kec, scl := h.scl, sealed := true, epi := h.epi,
                                     book := BitVec.ofNat 256 (if h.fmt == 14 then h.field 32 32 else 0), desc := some (r.va, ctl, blk) }
      (l.onReq r.id fun r => { r with stage := .home }).completeGang tid
    | _ => l.completeGang tid

/-- The gang's shared check of R199: positions whose shadow is not READY. -/
def notReady (l : Live) (head : Nat) (p : Nat) : Bool :=
  let c := chainCore head p
  (l.dev.bank c (l.dev.shadow c)).st != 2

/-- A member of a broken gang leaves it alone; the record goes with the last (R192, R197). -/
def leaveBroken (l : Live) (head tid : Nat) : Live :=
  let l := (leaveOne l tid).onGang head fun g => { g with threads := g.threads.filter fun p => p.2 != tid }
  match tfind l.dev.gangs head with
  | some g => if g.threads.isEmpty then l.map fun d => { d with gangs := tdel d.gangs head } else l
  | none => l

/-- The gang has work that MLEAVE, MDRAIN or MZERO waits for (R197, R201, R202). -/
def gangBusy (l : Live) (head : Nat) (g : Gang) (i : Instr) : Bool :=
  match i with
  | .mleave _ => !g.mmas.isEmpty || l.dev.reqs.any fun r => match r.kind with
      | .weights c _ _ _ _ => (gangCores head g.n).contains c
      | .chunks c _ _ _ _ _ _ _ _ _ => (gangCores head g.n).contains c
      | _ => false
  | .mdrain x => g.mmas.any fun m => m.acc == x.a.toNat
  | .mzero x => g.mmas.any fun m => m.acc == x.d.toNat
  | _ => false

/-- The first failing check of an MMA at release: cause and lowest failing position (R200). -/
def mmaFault (l : Live) (head : Nat) (g : Gang) (x : Ext) : Option (Nat × Nat) :=
  let t := ((g.threads.find? fun p => p.1 == 0).elim 0 fun p => l.dev.tileRegOf p.2 x.a.toNat)
  let d := tget l.dev.descs descReset (tileKey head t)
  if !descOk d then some (0x21, 0)
  else if dRows d ≤ x.row0.toNat + x.rcnt.toNat then some (0x23, 0)
  else if dFmt d != x.sfmt.toNat then some (0x22, 0)
  else if x.sfmt == 14 && !dCbk d then some (0x21, 0)
  else (lowest (List.range g.n) fun p => !bankServes l.dev (chainCore head p) x.sfmt.toNat x.b.toNat).map fun p => (0x2B, p)

/-- The effect of a released gang instruction whose guards are all true. -/
def gangEffect (b : Boot) (l : Live) (head : Nat) (g : Gang) (i : Instr) : Live :=
  let each := fun (l : Live) (f : Live → Arrival → Live) => g.arrivals.foldl f (l.onGang head fun g => { g with arrivals := [] })
  match i with
  | .mgang _ =>
    let l := l.onGang head fun q => { q with st := 2, arrivals := [], threads := g.arrivals.map fun a => (a.pos, a.tid) }
    let l := (gangCores head g.n).foldl (fun l c => l.clearSlice c) l
    g.arrivals.foldl (fun l a => l.completeGang a.tid) (l.lockClocks (gangCores head g.n))
  | .mleave _ =>
    let l := g.arrivals.foldl (fun l a => leaveOne l a.tid) l
    (l.map fun d => { d with gangs := tdel d.gangs head }).unlockClocks (gangCores head g.n)
  | .wld x => each l fun l a => wldOne b l a.tid x (a.vals.getD 1 0)
  | .wlds _ => each l fun l a => wldsOne l a.tid (a.vals.getD 1 0) (a.vals.getD 2 0)
  | .wswap _ =>
    match lowest (List.range g.n) (notReady l head) with
    | some low =>
      let held := fun (p : Nat) => let c := chainCore head p
        let k := l.dev.bank c (l.dev.shadow c)
        if k.st == 3 then k.held else none
      trapArrivals b l head g 0x2B (fun p => low + 256 * (held p).elim 0 Prod.fst) fun p => (held p).elim 0 Prod.snd
    | none => each l fun l a => (l.onSlice (a.tid / 64) fun z => { z with act := !z.act }).completeGang a.tid
  | .mma x =>
    match mmaFault l head g x with
    | some (c, p) => trapArrivals b l head g c (fun _ => p) fun _ => 0
    | none => l.onGang head fun g => { g with arrivals := [], mmas := g.mmas ++ [{ instr := i, acc := x.d.toNat, row0 := x.row0.toNat, rcnt := x.rcnt.toNat }] }
  | .mdrain x =>
    match lowest (List.range g.n) fun p => drainRefused l.dev (chainCore head p) x with
    | some p => trapArrivals b l head g 0x6A (fun _ => p) fun _ => 0
    | none => each l fun l a => drainOne l a.tid x (a.vals.getD 0 0) (a.vals.getD 1 0)
  | .mzero x => each l fun l a => zeroOne l a.tid x.d.toNat
  | _ => l

/-- The barrier of a gang releases when every member has arrived (R191, R437). -/
def gangRelease (b : Boot) (l : Live) (head : Nat) : Live :=
  match tfind l.dev.gangs head with
  | none => l
  | some g =>
    if (g.st != 1 && g.st != 2) || g.arrivals.length < g.n then l
    else match g.arrivals.find? fun a => a.pos == 0 with
      | none => l
      | some a0 =>
        let ps := g.arrivals.map Arrival.pos
        let differs := fun (f : Arrival → Bool) (p : Nat) => g.arrivals.any fun a => a.pos == p && f a
        match lowest ps (differs fun a => a.instr != a0.instr) with
        | some p => trapArrivals b l head g 0x29 (fun _ => p) fun _ => 0
        | none =>
          if g.arrivals.all fun a => !a.guard then completeArrivals l head g
          else match lowest ps (differs fun a => a.guard != a0.guard) with
            | some p =>
              let l := l.clearBarrier head
              let l := (g.arrivals.filter fun a => !a.guard).foldl (fun l a => l.completeGang a.tid) l
              (g.arrivals.filter fun a => a.guard).foldl (fun l a => l.trapFlight b a.tid 0x29 p 0 false) l
            | none => if gangBusy l head g a0.instr then l else gangEffect b l head g a0.instr

/-- The work of a gang that follows its last arrival in the same step, unless the schedule keeps it for steps of its own (assumption 9). -/
def gangRun (b : Boot) (l : Live) (head : Nat) : Live :=
  if l.dev.split then l else mmaComplete (mmaBegin (gangRelease b l head) head) head

/-- An instance arrives at its barrier. -/
def arrive (l : Live) (head pos : Nat) (i : Instr) (guard : Bool) (vals : List Word) : Out :=
  let tid := l.dev.cur
  .wait (l.onGang head fun g => { g with arrivals := g.arrivals ++ [{ pos, tid, instr := i, guard, vals }] }) .gang

/-- The end of a gang-issued instruction's issue: one that trapped has told its barrier (R191); one that arrived may release it. -/
def gangFinish (b : Boot) (len kind : Nat) (l : Live) (body : Live → Out) : Live :=
  let tid := l.dev.cur
  let l := finish b len (body (l.onTh fun t => { t with toGang := kind }))
  let t := l.dev.thread tid
  let l := match t.st with
    | .parked _ => l
    | _ => l.onThread tid fun t => { t with toGang := 0 }
  if t.flight.atBarrier then
    match l.dev.gangFor tid true with
    | some (head, _) => gangRun b l head
    | none => l
  else l

/-- A gang-issued instruction but MGANG (R190, R191, R437): its windows, its gang, its guard; what it does before it arrives; and what it
does alone in a broken gang, where that is anything (R207). -/
def instrGang (s : State) (x : Ext) (i : Instr) (gs ts : List (BitVec 7)) (issue : Boot → Live → (Live → List Word → Out) → Out)
    (alone : Option (Live → Nat → Out)) : Host.Outcome State Fault Refusal :=
  onLive s fun b l => gangFinish b (Ext.len x) 2 l fun l =>
    let tid := l.dev.cur
    let is := gs.map BitVec.toNat
    checkWindows l is (ts.map BitVec.toNat) fun _ =>
      let guard := l.th.p x.pg.toNat != x.pn
      match l.dev.gangOf tid with
      | none => if guard then checkPresent l is fun _ => .trap l 0x26 0 0 else .done l
      | some (head, g) =>
        let pos := chainLin (tid / 64) - chainLin head
        if !guard then (if g.st == 3 then .done l else arrive l head pos i false [])
        else checkPresent l is fun _ =>
          if g.st == 3 && alone.isNone then .trap l 0x2C (g.lost.headD 0) 0
          else issue b l fun l vals =>
            if g.st == 3 then
              match alone with
              | some f => f l head
              | none => .done l
            else arrive l head pos i true vals

/-- MGANG (R189, R192, R196). -/
def execMgang (x : Ext) (s : State) : Host.Outcome State Fault Refusal :=
  onLive s fun b l => gangFinish b (Ext.len x) 1 l fun l =>
    checkWindows l [x.a.toNat] [] fun _ =>
      if l.th.p x.pg.toNat == x.pn then .done l
      else checkPresent l [x.a.toNat] fun _ =>
        let v := l.g x.a
        let n := wbits v 5 0
        let pos := wbits v 13 8
        let timeout := (x.lit.getD (x.imm.setWidth 64)).toNat
        let core := l.myCore
        let head := core / 192 * 192 + (chainLin core - pos) / 8 * 8 + (chainLin core - pos) % 8
        let cores := gangCores head n
        let members := l.myKernel.elim [] Kernel.cores
        match l.dev.gangOf l.dev.cur with
        | some (_, g) => if g.st == 3 then .trap l 0x2C (g.lost.headD 0) 0 else .trap l 0x28 0 0
        | none =>
          if v &&& 0xFFFFFFFFFFFFC0C0 != 0 || n == 0 || 48 < n || n ≤ pos then .trap l 0x28 0 0
          else if l.th.tsize == 0 || isGuestSlot l.mySlot then .trap l 0x28 0 0
          else if chainLin core < pos || chainLin head / 48 != (chainLin head + n - 1) / 48 || !cores.all members.contains then .trap l 0x28 0 0
          else if l.dev.gangs.any fun e => (e.1 != head || e.2.n != n || e.2.st != 1 || e.2.arrivals.any fun a => a.pos == pos) &&
              (if e.2.st == 3 then e.2.threads.any fun p => cores.contains (p.2 / 64) else (gangCores e.1 e.2.n).any cores.contains)
            then .trap l 0x28 0 0
          else
            let l := match tfind l.dev.gangs head with
              | some _ => l
              | none => l.map fun d => { d with gangs := tput d.gangs head { n, st := 1, ctx := l.th.ctx, knum := l.th.knum, timeout } }
            arrive l head pos (.mgang x) true [v]

/-- MLEAVE (R197). -/
def execMleave (x : Ext) (s : State) : Host.Outcome State Fault Refusal :=
  instrGang s x (.mleave x) [] [] (fun _ l k =>
    if (l.dev.gangOf l.dev.cur).any (fun e => e.2.st == 3) && l.dev.reqs.any fun r => r.tid == l.dev.cur && (match r.kind with
        | .weights _ _ _ _ _ => true
        | .chunks _ _ _ _ _ _ _ _ _ _ => true
        | _ => false) then .park l (.order .accesses) else k l []) (some fun l head => .done (leaveBroken l head l.dev.cur))

/-- A request for the reads of a weight load that has not been released. -/
def addLoad (l : Live) (kind : ReqKind) (a ctl : Word) (ps : List Part) : Live :=
  let l := l.map fun d => { d with reqs := d.reqs.filter fun r => !(r.tid == d.cur && r.unreleased) }
  (l.addReq fun id => { l.newReq kind .plain a (.cluster l.myCluster) id with out := ctl, parts := ps }).2

/-- WLD (R198): translates its whole range, waits, and arrives with its reads. -/
def execWld (x : Ext) (s : State) : Host.Outcome State Fault Refusal :=
  instrGang s x (.wld x) [x.d, x.a] [] (fun b l k =>
    let v := l.g x.d
    let a := l.g x.a + x.lit.getD (simm x.imm)
    let f := x.dfmt.toNat
    if wbits v 63 12 != 0 || ctlKe v == 3 || ctlCount v == 0 || 16 < ctlFirst v + ctlCount v || 16 < ctlCount v ||
        512 < colBytes f (ctlKe v) || (v.getLsbD 11 && f < 12) then .trap l 0x2A 0 0
    else if a.toNat % 64 != 0 then .trap l 0x42 0 a
    else
      let go := fun (_ : Unit) =>
        match locate b l l.myCore l.myCtx 0 0x63 a (wldGranules f v) [] with
        | .miss l va => parkTlb l va 0
        | .stop l _ c => .trap l c 0 a
        | .all l ps => waitOrder l false fun _ =>
            k (addLoad l (.weights l.myCore (l.dev.shadow l.myCore) (.wld x) (ctlFirst v) (ctlCount v)) a v ps) [a, v]
      match wbits a 63 60 with
      | 0 => go ()
      | 1 => go ()
      | 2 => go ()
      | 6 => .trap l 0x63 0 a
      | 14 => .trap l (if l.privileged then 0x41 else 0x02) 0 a
      | _ => .trap l 0x41 0 a) none

/-- WSWAP (R199): waits for its own weight loads. -/
def execWswap (x : Ext) (s : State) : Host.Outcome State Fault Refusal :=
  instrGang s x (.wswap x) [] [] (fun _ l k =>
    if (l.dev.bank l.myCore (l.dev.shadow l.myCore)).st == 1 then .park l (.order .accesses) else k l []) none

/-- MMA (R200): the A operand is subject to check 6 in every member. -/
def execMma (x : Ext) (s : State) : Host.Outcome State Fault Refusal :=
  instrGang s x (.mma x) [] [x.a] (fun _ l k => k l []) none

/-- MDRAIN (R201): checks its tiles at issue. -/
def execMdrain (x : Ext) (s : State) : Host.Outcome State Fault Refusal :=
  let uses := epi x 3 || epi x 4
  let body := fun (l : Live) (k : Live → List Word → Out) =>
    checkTiles l x [(x.d, some x.dfmt.toNat)] fun os l =>
      let dd := (os.head?).elim 0 TileOp.desc
      let r := l.tileOp (BitVec.ofNat 7 (epiTile x))
      if dCols dd < dEcol dd + 8 then .trap l 0x23 0 0
      else if !uses then k l [dd, 0]
      else if !descOk r.1.desc then .trap l 0x21 0 0
      else if dFmt r.1.desc != 9 then .trap l 0x22 0 0
      else if dRows r.1.desc < 2 || dCols r.1.desc < dEcol r.1.desc + 8 then .trap l 0x23 0 0
      else k r.2 [dd, r.1.desc]
  instrGang s x (.mdrain x) [] (x.d :: if uses then [BitVec.ofNat 7 (epiTile x)] else []) (fun _ l k => body l k)
    (some fun l head =>
      let dd := tget l.dev.descs descReset (tileKey l.myCore (l.tileReg x.d.toNat))
      let de := tget l.dev.descs descReset (tileKey l.myCore (l.tileReg (epiTile x)))
      if drainRefused l.dev l.myCore x then .trap l 0x6A (chainLin l.myCore - chainLin head) 0 else .done (drainOne l l.dev.cur x dd de))

/-- MZERO (R202). -/
def execMzero (x : Ext) (s : State) : Host.Outcome State Fault Refusal :=
  instrGang s x (.mzero x) [] [] (fun _ l k => k l []) (some fun l _ => .done (zeroOne l l.dev.cur x.d.toNat))

/-- The gang that a core belongs to (R203). -/
def Dev.gangAt (d : Dev) (core : Nat) : Option (Nat × Gang) :=
  d.gangs.find? fun e => if e.2.st == 1 then (gangCores e.1 e.2.n).contains core else e.2.threads.any fun p => p.2 / 64 == core

/-- The word MSTAT reads (R203). -/
def mstatWord (l : Live) : Word :=
  let core := l.myCore
  let z := l.dev.slice core
  let a := l.dev.bank core (l.dev.active core)
  let h := l.dev.bank core (l.dev.shadow core)
  let gang := match l.dev.gangAt core with
    | none => 0
    | some (head, g) => g.n * 2 ^ 56 + (chainLin core - chainLin head) * 2 ^ 48 + g.st * 2 ^ 44 + (g.mmas.filter Mma.begun).length
  BitVec.ofNat 64 (gang + (if z.act then 2 ^ 43 else 0) + h.st * 2 ^ 41 + a.wf * 2 ^ 37 + z.mflags.toNat * 2 ^ 32 + a.valid.toNat * 2 ^ 16 +
    (if a.sealed then 2 ^ 15 else 0) + (if h.sealed then 2 ^ 14 else 0) + z.rows * 2 ^ 8)

/-- MSTAT (R203). -/
def execMstat (x : Ext) (s : State) : Host.Outcome State Fault Refusal :=
  instrX s x [x.d] [] fun _ l => .done (l.setG x.d (mstatWord l))

/-- WLDS (R355, R356): the checks in order, then it arrives. -/
def execWlds (x : Ext) (s : State) : Host.Outcome State Fault Refusal :=
  instrGang s x (.wlds x) [x.d, x.a, x.b] [] (fun b l k =>
    let v := l.g x.d
    let a := l.g x.a + x.lit.getD (simm x.imm)
    if wbits v 63 48 != 0 || wbits v 15 11 != 0 || ctlCount v == 0 || 16 < ctlCount v || 16 < ctlFirst v + ctlCount v then .trap l 0x2A 0 0
    else match sealedAddr a with
      | some c => .trap l c 0 a
      | none =>
        match locateSealed b l l.myCore l.myCtx a (granulesOf 0 128) with
        | .miss l va => parkTlb l va 5
        | .stop l _ c => .trap l c 0 a
        | .all l hp =>
          match tfind (l.dev.ctx l.myCtx).keyW (ctlKe v) with
          | none => .trap l 0x67 0 a
          | some key =>
            let h : SealHeader := ⟨readParts l hp⟩
            if partsPoisoned l hp then .trap l 0x45 0 a
            else match headerFault h key v (l.g x.b) with
              | some d => .trap l 0x68 d a
              | none =>
                match locateSealed b l l.myCore l.myCtx a (chunkGranules h.nstep (l.g x.b).toNat (wbits v 47 16) (ctlCount v)) with
                | .miss l va => parkTlb l va 5
                | .stop l _ c => .trap l c 0 a
                | .all l ps => waitOrder l false fun _ =>
                    let hs := hp.map fun p => { p with done := true, v := l.mem.read p.pa p.n }
                    k (addLoad l (.chunks l.myCore (l.dev.shadow l.myCore) false (ctlKe v) (ctlFirst v) (ctlCount v) (wbits v 47 16) h.nstep (l.g x.b).toNat a) a v (hs ++ ps)) [a, v, l.g x.b]) none

/-- SRQ (R361): the plain fields of a header, as a plain load of bytes 0 to 31. -/
def execSrq (x : Ext) (s : State) : Host.Outcome State Fault Refusal :=
  instrX s x [x.d, x.a] [] fun b l =>
    let a := l.g x.a
    match sealedAddr a with
    | some c => .trap l c 0 a
    | none => waitOrder l false fun _ =>
        match locateSealed b l l.myCore l.myCtx a (granulesOf 0 32) with
        | .miss l va => parkTlb l va 5
        | .stop l _ c => .trap l c 0 a
        | .all l ps =>
          if partsPoisoned l ps then .trap l 0x45 0 a
          else
            let h : SealHeader := ⟨readParts l ps⟩
            let keys := (l.dev.ctx l.myCtx).keyW.foldl (fun m e => m + 2 ^ e.1) 0
            .done (l.setG x.d (BitVec.ofNat 64 (keys % 16 * 2 ^ 60 + (if h.epi then 2 ^ 59 else 0) + (if h.scl then 2 ^ 58 else 0) +
              h.kec % 4 * 2 ^ 56 + h.fmt % 16 * 2 ^ 52 + (if h.fieldsOk then 2 ^ 51 else 0) + h.ncb * 2 ^ 32 + h.nstep)))

/-- GANG_BARRIER_RELEASE (R191, R437). -/
def execGangBarrierRelease (head : Nat) (s : State) : Host.Outcome State Fault Refusal := event s fun b l => gangRelease b l head

/-- MGANG_TIMEOUT (R196): not all members have arrived; the record is discarded. -/
def execMgangTimeout (head : Nat) (s : State) : Host.Outcome State Fault Refusal :=
  event s fun b l =>
    match tfind l.dev.gangs head with
    | none => l
    | some g => if g.st == 1 && g.timeout != 0 && g.arrivals.length < g.n then trapArrivals b l head g 0x28 (fun _ => 1) fun _ => 0 else l

/-- MMA_BEGIN (R195). -/
def execMmaBegin (head : Nat) (s : State) : Host.Outcome State Fault Refusal := event s fun _ l => mmaBegin l head

/-- MMA_COMPLETE (R195). -/
def execMmaComplete (head : Nat) (s : State) : Host.Outcome State Fault Refusal := event s fun _ l => mmaComplete l head

/-- WLD_READS_DONE (R193, R198). -/
def execWldReadsDone (core : Nat) (s : State) : Host.Outcome State Fault Refusal :=
  event s fun b l =>
    match l.dev.reqs.find? fun r => !r.unreleased && r.parts.all Part.done && (match r.kind with
        | .weights c _ _ _ _ => c == core
        | _ => false) with
    | none => l
    | some r => wldDone b l r

/-- A bank's sealed load has failed: the bank is zeroed and FAILED; after a replay the gang threads trap (R357, R358). -/
def sealedBankFail (b : Boot) (l : Live) (core bank : Nat) (replay : Bool) (cause : Nat) (addr : Word) : Live :=
  let l := l.setBank core bank { st := 3, held := some (cause, addr) }
  if !replay then l
  else match l.dev.gangAt core with
    | none => l
    | some (head, g) =>
      let pos := chainLin core - chainLin head
      g.threads.foldl (fun l p => if (l.dev.thread p.2).st == .trapped then l else takeTrap b p.2 0x6B pos 0 0 (l.dev.thread p.2).pc addr 0 none l) l

/-- A sealed load has failed. -/
def sealedFail (b : Boot) (l : Live) (r : Req) (core bank : Nat) (replay : Bool) (cause : Nat) (addr : Word) : Live :=
  sealedBankFail b (l.dropReq r.id) core bank replay cause addr

/-- A read of a sealed load has failed: as a read of WLD, a deferred fault of the thread that issued it (R198, R222, R357). -/
def sealedReadFail (b : Boot) (l : Live) (r : Req) (core bank : Nat) (replay : Bool) (cause : Nat) (addr : Word) : Live :=
  let l := sealedFail b l r core bank replay cause addr
  if replay then l else deferFault b r.tid cause 0 r.pc addr false l

/-- WEIGHT_CHUNK_VERIFY (R357, R358): the channel decrypts the next chunk of a core's load and verifies its tag; the last makes the bank
READY, all slots at once. A header, of a replay, is verified with its first chunk. -/
def execWeightChunkVerify (core : Nat) (s : State) : Host.Outcome State Fault Refusal :=
  event s fun b l =>
    match l.dev.reqs.find? fun r => !r.unreleased && (match r.kind with
        | .chunks c _ _ _ _ _ _ _ _ _ => c == core
        | _ => false) with
    | none => l
    | some r =>
      match r.kind with
      | .chunks _ bank replay kslot first count step0 nstep blk base =>
        let c := r.out2.toNat
        let ps := (r.parts.drop (8 + 35 * c)).take 35
        let h : SealHeader := ⟨joinParts (r.parts.take 8)⟩
        let n := chunkNo nstep blk (step0 + c / 8) (c % 8)
        let addr := base + BitVec.ofNat 64 (128 + 576 * n)
        if !(ps.all Part.done && (r.parts.take 8).all Part.done) then l
        else if (r.parts.take 8).any Part.bad || ps.any Part.bad then sealedReadFail b l r core bank replay (r.fail.elim 0x45 fun f => f.1) (badAddr addr ps)
        else match tfind (l.dev.ctx r.ctx).keyW kslot with
          | none => sealedFail b l r core bank replay 0x69 addr
          | some key =>
            let bytes := joinParts ps
            match gcmOpen (leBytes key.toNat 32) (h.iv n) (leBytes (h.field 0 64) 64) (leBytes bytes 544) (leBytes (bytes / 2 ^ (8 * 544)) 16) with
            | none => sealedFail b l r core bank replay 0x69 addr
            | some pt =>
              let k := l.dev.bank core bank
              let i := first * 8 + c
              let v := ofLe pt
              let k := { k with data := tset k.data 0 i (BitVec.ofNat 4096 v), scales := tset k.scales 0 i (BitVec.ofNat 256 (v / 2 ^ 4096)) }
              if c + 1 < 8 * count then (l.setBank core bank k).onReq r.id fun r => { r with out2 := BitVec.ofNat 64 (c + 1) }
              else (l.dropReq r.id).setBank core bank { k with st := 2, valid := BitVec.ofNat 16 ((2 ^ count - 1) * 2 ^ first) }
      | _ => l

/-- The first rows of an MMA that one member has written, so many of them: words and flags (R195, R207). -/
def writeRows (l : Live) (m : Mma) (core n : Nat) : Live :=
  let written := fun (r : Nat) => decide (r < m.row0 + n)
  let l := l.map fun d => { d with accs := (m.res.filter fun e => e.1 / 1024 == core && written (e.1 / 8 % 32)).foldl (fun t e => tset t 0 e.1 e.2) d.accs }
  l.onSlice core fun z => { z with mflags := (m.flags.filter fun e => e.1 / 32 == core && written (e.1 % 32)).foldl (fun v e => v ||| e.2) z.mflags }

/-- What one member has written of the MMAs that have begun, so many rows of them in order; ROWS counts those of the MMA abandoned (R207). -/
def abandonIn (core : Nat) : List Mma → Nat → Live → Live
  | [], _, l => l
  | m :: rest, n, l =>
    let k := Nat.min n (m.rcnt + 1)
    let l := (writeRows l m core k).onSlice core fun z => { z with rows := k }
    if n ≤ m.rcnt then l else abandonIn core rest (n - (m.rcnt + 1)) l

/-- The begun MMAs of a gang stop after some of their rows (R207): a free choice says how many each core has written, of cores in the order of
their positions none more than one before it (R195). -/
def abandonMmas (l : Live) (g : Gang) (cores : List Nat) : Live :=
  let ms := g.mmas.filter Mma.begun
  (cores.foldl (fun (p : Live × Nat) c =>
    let n := p.1.choose (p.2 + 1)
    (abandonIn c ms n.1 n.2, n.1)) (l, (ms.map fun m => m.rcnt + 1).sum)).1

/-- An instance of an MMA that has begun and has not completed waits again, so that it traps where it stands (R195, R207). -/
def reopenInst (l : Live) (i : Nat × Nat × Word) : Live :=
  let t := l.dev.thread i.1
  if t.st == .ready && t.flight == .none && decide ((l.dev.core (i.1 / 64)).cycle < i.2.1) then
    l.onThread i.1 fun t => { t with flight := .gang t.pc, pc := i.2.2 }
  else l

/-- The least key of a BROKEN gang of a head that is free. -/
def brokenKey (d : Dev) (head : Nat) : Nat :=
  (((List.range (d.gangs.length + 1)).map fun i => head % 1536 + 1536 * (i + 1)).find? fun k => (tfind d.gangs k).isNone).getD head

/-- A gang's record when it is BROKEN, and the release of its clocks (R207); a record that no gang thread is left of goes. -/
def Live.breakRecord (l : Live) (head : Nat) (left : Gang) : Live :=
  let was := (tfind l.dev.gangs head).elim 0 Gang.st
  let l := l.map fun d =>
    let gs := tdel d.gangs head
    { d with gangs := if left.threads.isEmpty then gs else tput gs (if was == 3 then head else brokenKey d head) left }
  if was == 2 then l.unlockClocks (gangCores head left.n) else l

/-- A core of a chain that forms is lost: its own arrival goes, and the others wait on for their TIMEOUT (R192); the record goes with the last
arrival. -/
def loseArrival (l : Live) (head core : Nat) : Live :=
  l.map fun d => { d with gangs := d.gangs.filterMap fun e =>
    if e.1 != head then some e
    else
      let as := e.2.arrivals.filter fun a => a.tid / 64 != core
      if as.isEmpty then none else some (e.1, { e.2 with arrivals := as }) }

/-- A core of a gang is lost (R207, R358): the gang is BROKEN, a begun MMA stops after some of its rows, instances that wait or have begun trap,
surviving sealed banks are zeroed. -/
def breakGang (b : Boot) (l : Live) (head pos : Nat) : Live :=
  match tfind l.dev.gangs head with
  | none => l
  | some g =>
    let lost := chainCore head pos
    let alive := (gangCores head g.n).filter fun c => c != lost && g.threads.any fun p => p.2 / 64 == c
    let l := (g.mmas.flatMap Mma.insts).foldl reopenInst l
    let l := abandonMmas l g alive
    let l := alive.foldl (fun l c => [0, 1].foldl (fun l n => if (l.dev.bank c n).sealed then l.setBank c n {} else l) l) l
    let l := l.map fun d => { d with reqs := d.reqs.filter fun r => match r.kind with
      | .chunks c _ _ _ _ _ _ _ _ _ => c != lost && !alive.contains c
      | .weights c _ _ _ _ => c != lost
      | _ => true }
    let wait := g.threads.filter fun p => p.2 / 64 != lost && (l.dev.thread p.2).flight.atBarrier
    let left := { g with st := 3, arrivals := [], mmas := [], lost := g.lost ++ [pos], threads := g.threads.filter fun p => p.2 / 64 != lost }
    let l := ((l.clearBarrier head).breakRecord head left).clearSlice lost
    wait.foldl (fun l p => l.trapFrom b 2 p.2 0x2C pos 0 false) l

/-- A gang thread waits for the replay of a sealed bank of its gang (R358). -/
def Dev.replaying (d : Dev) (tid : Nat) : Bool :=
  match d.gangOf tid with
  | none => false
  | some (head, g) => d.reqs.any fun r => match r.kind with
    | .chunks c _ true _ _ _ _ _ _ _ => (gangCores head g.n).contains c
    | _ => false

end Sys2Proof.Machine
end

