-- ==== Sys2Proof/Machine/Attic.lean ====
section
/-!
DEFINITION. Meanings of the Attic instructions and of the steps of its engines (20_attic.md).
-/

namespace Sys2Proof.Machine

/-- HASH of a block under a domain's key (R362, R363). -/
def atticHash (dk : BitVec 256) (node : Bool) (block : BitVec 1024) : Nat :=
  ofBe (sha256 (leBytes dk.toNat 32 ++ [if node then 1 else 0] ++ leBytes block.toNat 128)) / 2 ^ 137

/-- A name (R362). -/
def mkName (hash ord : Nat) (node : Bool) : BitVec 128 := BitVec.ofNat 128 (hash * 512 + (if node then 256 else 0) + ord)

/-- KIND of a name (R362). -/
def nameKind (n : BitVec 128) : Bool := n.getLsbD 8

/-- The bucket of a name (R363, R377). -/
def bucketOf (b : Boot) (n : BitVec 128) : Nat := bitsAt n.toNat 72 41 % 2 ^ b.log2b

/-- The entry of a name in a domain at an engine (R364, R365). -/
def Live.entry? (l : Live) (stack adom : Nat) (n : BitVec 128) : Option NameEntry :=
  (l.dev.names.find? fun e => e.1 == stack && e.2.name == n && e.2.adom == adom).map Prod.snd

/-- Changes an entry. -/
def Live.onEntry (l : Live) (stack adom : Nat) (n : BitVec 128) (f : NameEntry → NameEntry) : Live :=
  l.map fun d => { d with names := d.names.map fun e => if e.1 == stack && e.2.name == n && e.2.adom == adom then (e.1, f e.2) else e }

/-- One more reference (R366). -/
def NameEntry.addRef (e : NameEntry) : NameEntry :=
  if e.sat then e
  else if e.dorm then { e with count := 1, dorm := false }
  else if e.count + 1 = 0xFFFFFFFF then { e with count := 0xFFFFFFFF, sat := true }
  else { e with count := e.count + 1 }

/-- One reference less (R366); age is the place among DORMANT entries. -/
def NameEntry.dropRef (e : NameEntry) (age : Nat) : NameEntry :=
  if e.sat || e.dorm then e
  else if e.count = 1 then { e with count := 0, dorm := true, age }
  else { e with count := e.count - 1 }

/-- The child names of a node's line (R367). -/
def childNames (block : BitVec 1024) : List (BitVec 128) :=
  ((List.range 8).map fun i => block.extractLsb' (128 * i) 128).filter (· != 0)

/-- The line of an entry. -/
def lineOf (l : Live) (e : NameEntry) : BitVec 1024 := BitVec.ofNat 1024 (l.mem.read e.pa 128)

/-- The ADOM of a request's context. -/
def Live.adomOf (l : Live) (ctx : Nat) : Nat := (l.dev.ctx ctx).adom

/-- A reference step sent by an engine to the engine of a name: NREF (9) or NREL (10); parent is the request it serves, or 0. -/
def sendChild (b : Boot) (l : Live) (ctx stack adom op parent : Nat) (n : BitVec 128) : Live :=
  l.sendOwn b ctx (192 + stack / 3) (.attic op n 0 (BitVec.ofNat 128 parent) (BitVec.ofNat 128 adom) 0 0) (engineDest (homeStack b n)) 1

/-- An entry is reclaimed (R366): its line returns to the pool, and a node releases its children. -/
def reclaimEntry (b : Boot) (l : Live) (stack : Nat) (e : NameEntry) : Live :=
  let l' := l.map fun d =>
    { d with names := d.names.filter fun x => !(x.1 == stack && x.2.name == e.name && x.2.adom == e.adom),
             domains := d.domains.map fun x => if x.1 == e.adom then (x.1, { x.2 with free := x.2.free.map fun p => if p.1 == stack then (p.1, sinsert p.2 e.pa) else p }) else x }
  if nameKind e.name then (childNames (lineOf l e)).foldl (fun l n => sendChild b l 0 stack e.adom 10 0 n) l' else l'

/-- Reclaims DORMANT entries that a test selects, oldest first, until enough room is found. -/
def reclaimUntil (b : Boot) (stack : Nat) (p : NameEntry → Bool) (enough : Live → Bool) : Nat → Live → Live
  | 0, l => l
  | n + 1, l =>
    if enough l then l
    else match (l.dev.names.filter fun e => e.1 == stack && e.2.dorm && p e.2).foldl (fun (m : Option NameEntry) e => match m with
        | none => some e.2
        | some x => if e.2.age < x.age then some e.2 else some x) none with
      | none => l
      | some e => reclaimUntil b stack p enough n (reclaimEntry b l stack e)

/-- The free lines of a domain on a stack (R364). -/
def Live.freeLines (l : Live) (adom stack : Nat) : List Nat :=
  match tfind l.dev.domains adom with
  | none => []
  | some d => (d.free.find? fun p => p.1 == stack).elim [] Prod.snd

/-- What a NAME finds at its engine (R368). -/
inductive Lookup where
  | hit (e : NameEntry)
  | free (ord : Nat)
  | exhausted
deriving DecidableEq, Repr

/-- The lookup of R368: contents decide. -/
def atticLookup (l : Live) (stack adom hash : Nat) (node : Bool) (block : BitVec 1024) : Lookup :=
  let same := (l.dev.names.filter fun e => e.1 == stack && e.2.adom == adom && e.2.name.toNat / 512 == hash && nameKind e.2.name == node).map Prod.snd
  match same.find? fun e => lineOf l e == block with
  | some e => .hit e
  | none =>
    match firstFrom (if hash = 0 && !node then 1 else 0) (if hash = 0 && !node then 255 else 256) fun o => same.all fun e => e.name.toNat % 256 != o with
    | some o => .free o
    | none => .exhausted

/-- The failure of a request at its engine, and its reply. -/
def atticFail (b : Boot) (l : Live) (r : Req) (cause detail : Nat) : Live :=
  l.reply b r none 1 fun q => { q with fail := some (cause, detail, false) }

/-- A request's success, with two words. -/
def atticOk (b : Boot) (l : Live) (r : Req) (lo hi : Word) (flits : Nat) : Live :=
  l.reply b r none flits fun q => { q with out := lo, out2 := hi }

/-- The low and high words of a name. -/
def lowWord (n : BitVec 128) : Word := n.setWidth 64
/-- The high word. -/
def highWord (n : BitVec 128) : Word := (n >>> 64).setWidth 64

/-- Allocates a name at its engine, or fails for want of room with DETAIL (R366, R368); what it has reclaimed stays reclaimed. -/
def atticAllocate (b : Boot) (l : Live) (r : Req) (stack adom hash ord height nleaf : Nat) (node : Bool) (block : BitVec 1024) :
    Except (Live × Nat) Live :=
  let n := mkName hash ord node
  let bucket := fun (e : NameEntry) => bucketOf b e.name == bucketOf b n
  let room := fun (l : Live) => decide ((l.dev.names.filter fun e => e.1 == stack && bucket e.2).length < 8)
  let l := reclaimUntil b stack bucket room 8 l
  if !room l then .error (l, 1)
  else
    let line := fun (l : Live) => !(l.freeLines adom stack).isEmpty
    let l := reclaimUntil b stack (fun e => e.adom == adom) line l.dev.names.length l
    let lines := l.freeLines adom stack
    if lines.isEmpty then .error (l, 2)
    else
      let c := l.choose lines.length
      let pa := lines.getD c.1 0
      let l := c.2.store pa 128 block.toNat
      let l := l.chargeBytes b r.ctx pa 128
      .ok (l.map fun d =>
        { d with names := d.names ++ [(stack, { name := n, pa, adom, sat := false, dorm := false, height, count := 1, nleaf })],
                 domains := d.domains.map fun x => if x.1 == adom then (x.1, { x.2 with free := x.2.free.map fun p => if p.1 == stack then (p.1, serase p.2 pa) else p }) else x })

/-- A NAME that allocates or fails at its engine (R368). -/
def nameAllocate (b : Boot) (l : Live) (r : Req) (stack adom hash ord height nleaf : Nat) (node : Bool) (block : BitVec 1024) : Live :=
  match atticAllocate b l r stack adom hash ord height nleaf node block with
  | .error f => atticFail b f.1 r 0x70 f.2
  | .ok l => let n := mkName hash ord node
    atticOk b l r (lowWord n) (highWord n) 1

/-- A NAME that hits an entry (R366, R368). -/
def nameHit (b : Boot) (l : Live) (r : Req) (stack adom : Nat) (e : NameEntry) : Live :=
  atticOk b (l.onEntry stack adom e.name NameEntry.addRef) r (lowWord e.name) (highWord e.name) 1

/-- The stack whose engine serves a NAME of a hash. -/
def hashStack (b : Boot) (hash : Nat) : Nat := homeStack b (mkName hash 0 false)

/-- The children that a NAME of a node has asked about. -/
def childReqs (l : Live) (req : Nat) : List Req := l.dev.reqs.filter fun r => match r.kind with
  | .attic 9 _ _ x _ _ _ => x.toNat == req
  | _ => false

/-- A request's kind is an Attic one. -/
def ReqKind.isAttic : ReqKind → Bool
  | .attic _ _ _ _ _ _ _ => true
  | _ => false

/-- Another request reached the engine's port before this one and has not been served (R369): requests take effect in the order in which they
arrive. -/
def Live.engineBehind (l : Live) (r : Req) : Bool :=
  match r.stage with
  | .going => (l.atEnd r.id false).elim true fun m => l.dev.msgs.any fun x =>
      !x.back && x.dest == m.dest && l.arrived x && (decide (x.ready < m.ready) || (x.ready == m.ready && decide (x.id < m.id))) &&
        (l.req? x.req).any fun q => q.kind.isAttic
  | _ => false

/-- An engine takes a request in its turn (R369). -/
def Live.reachEngine (l : Live) (r : Req) : Option Live := if l.engineBehind r then none else l.reach r

/-- ATTIC_NAME_REQUEST (R367, R368): a hit, an allocation, or the references on a node's children. -/
def execAtticNameRequest (req : Nat) (s : State) : Host.Outcome State Fault Refusal :=
  event s fun b l =>
    match l.req? req with
    | none => l
    | some r =>
      match r.kind with
      | .attic 0 _ block x _ step _ =>
        if step != 0 then l
        else match l.reachEngine r with
          | none => l
          | some l =>
            let r := { r with stage := .home }
            let adom := l.adomOf r.ctx
            let node := x == 1
            match tfind l.dev.domains adom with
            | none => atticFail b l r 0x79 0
            | some dom =>
              let hash := atticHash dom.dk node block
              let stack := hashStack b hash
              match atticLookup l stack adom hash node block with
              | .hit e => nameHit b l r stack adom e
              | .exhausted => atticFail b l r 0x6F 0
              | .free o =>
                let cs := if node then childNames block else []
                if cs.isEmpty then nameAllocate b l r stack adom hash o (if node then 1 else 0) (if node then 0 else 1) node block
                else
                  cs.foldl (fun l n => sendChild b l r.ctx stack adom 9 req n) (l.onReq req fun q => { q with kind := match r.kind with
                    | .attic _ n bl x y _ dst => .attic 0 n bl x y 1 dst
                    | k => k })
      | _ => l

/-- The references taken on children are released (R367), for a request that waits for it or for none. -/
def releaseTaken (b : Boot) (l : Live) (ctx stack adom req : Nat) (cs : List Req) : Live :=
  cs.foldl (fun l c => match c.kind, c.fail with
    | .attic _ n _ _ _ _ _, none => sendChild b l ctx stack adom 10 req n
    | _, _ => l) l

/-- The releases that a NAME which fails waits for are performed, or their messages are lost (R378). -/
def releasesDone (l : Live) (req : Nat) : Bool :=
  !l.dev.reqs.any fun r => match r.kind with
    | .attic 10 _ _ x _ _ _ => x.toNat == req
    | _ => false

/-- A node's NAME fails: the child references that it took are released first (R367, R378). -/
def nodeFail (b : Boot) (l : Live) (r : Req) (stack adom cause detail : Nat) (cs : List Req) : Live :=
  let l := releaseTaken b l r.ctx stack adom r.id cs
  if releasesDone l r.id then atticFail b l r cause detail
  else l.onReq r.id fun q => { q with kind := match q.kind with
    | .attic op n bl x _ _ dst => .attic op n bl x (BitVec.ofNat 128 (cause * 65536 + detail)) 2 dst
    | k => k }

/-- ATTIC_CHILD_REPLY (R367, R378): once every child has answered, the node's NAME completes or fails; one that fails answers once its references
are released. -/
def execAtticChildReply (req : Nat) (s : State) : Host.Outcome State Fault Refusal :=
  event s fun b l =>
    match l.req? req with
    | none => l
    | some r =>
      match r.kind with
      | .attic 0 _ _ _ y 2 _ => if releasesDone l req then atticFail b l r (y.toNat / 65536) (y.toNat % 65536) else l
      | .attic 0 _ block x _ 1 _ =>
        let l := (childReqs l req).foldl (fun l c => (l.reachBack c).getD l) l
        let cs := childReqs l req
        if cs.any fun c => c.stage != .replied then l
        else
          let l := l.map fun d => { d with reqs := d.reqs.filter fun q => !(cs.map Req.id).contains q.id }
          let adom := l.adomOf r.ctx
          match tfind l.dev.domains adom with
          | none => atticFail b l r 0x79 0
          | some dom =>
            let node := x == 1
            let hash := atticHash dom.dk node block
            let stack := hashStack b hash
            let height := 1 + cs.foldl (fun m c => Nat.max m (wbits c.out 28 26)) 0
            let nleaf := cs.foldl (fun m c => m + wbits c.out 21 0) 0
            match cs.find? fun c => c.fail.isSome with
            | some c =>
              let f := (c.fail.getD (0, 0, false)).1
              nodeFail b l r stack adom (if f == 0x6E then 0x71 else f) (if f == 0x6E then 1 else 0) cs
            | none =>
              if 7 < height then nodeFail b l r stack adom 0x71 2 cs
              else match atticLookup l stack adom hash node block with
                | .hit e => nameHit b (releaseTaken b l r.ctx stack adom 0 cs) r stack adom e
                | .exhausted => nodeFail b l r stack adom 0x6F 0 cs
                | .free o =>
                  match atticAllocate b l r stack adom hash o height nleaf node block with
                  | .error f => nodeFail b f.1 r stack adom 0x70 f.2 cs
                  | .ok l => let n := mkName hash o node
                    atticOk b l r (lowWord n) (highWord n) 1
      | _ => l

/-- The name that the reference step of a request concerns, and the request's domain. -/
def stepName (l : Live) (r : Req) (rel : Bool) : Option (BitVec 128 × Nat) :=
  match r.kind with
  | .attic 2 n _ _ _ _ _ => if rel then none else some (n, l.adomOf r.ctx)
  | .attic 3 n _ _ _ _ _ => if rel then some (n, l.adomOf r.ctx) else none
  | .attic 5 n _ _ _ 0 _ => if rel then none else some (n, l.adomOf r.ctx)
  | .attic 5 n _ x y 2 _ => if rel then some (if y == x then y else n, l.adomOf r.ctx) else none
  | .attic 5 n _ _ _ 3 _ => if rel then some (n, l.adomOf r.ctx) else none
  | .attic 6 n _ _ _ step _ => if rel || step % 2 == 0 then none else some (n, l.adomOf r.ctx)
  | .attic 8 n _ _ _ step _ => if rel == (step == 1) then some (n, l.adomOf r.ctx) else none
  | .attic 9 n _ _ y _ _ => if rel then none else some (n, y.toNat)
  | .attic 10 n _ _ y _ _ => if rel then some (n, y.toNat) else none
  | _ => none

/-- ATTIC_REF_REQUEST (R366, R374): one more reference. -/
def execAtticRefRequest (req : Nat) (s : State) : Host.Outcome State Fault Refusal :=
  event s fun b l =>
    match l.req? req with
    | none => l
    | some r =>
      match stepName l r false with
      | none => l
      | some (n, adom) =>
        match l.reachEngine r with
        | none => l
        | some l =>
          let r := { r with stage := .home }
          let stack := homeStack b n
          match l.entry? stack adom n with
          | none => atticFail b l r 0x6E 1
          | some e => atticOk b (l.onEntry stack adom n NameEntry.addRef) r (BitVec.ofNat 64 (e.height * 2 ^ 26 + e.nleaf)) 0 1

/-- ATTIC_REL_REQUEST (R366, R374): one reference less. -/
def execAtticRelRequest (req : Nat) (s : State) : Host.Outcome State Fault Refusal :=
  event s fun b l =>
    match l.req? req with
    | none => l
    | some r =>
      match stepName l r true with
      | none => l
      | some (n, adom) =>
        match l.reachEngine r with
        | none => l
        | some l =>
          let r := { r with stage := .home }
          let stack := homeStack b n
          let own := r.tid == noThread
          let fail := fun (l : Live) (c d : Nat) => if own then l.dropReq req else atticFail b l r c d
          match l.entry? stack adom n with
          | none => fail l 0x6E 1
          | some e =>
            if e.dorm then fail l 0x72 0
            else
              let age := l.newId
              let l := age.2.onEntry stack adom n fun e => e.dropRef age.1
              if own then l.dropReq req else atticOk b l r 0 0 1

/-- ATTIC_NLD_REQUEST (R373): reads 8 bytes of a named line. -/
def execAtticNldRequest (req : Nat) (s : State) : Host.Outcome State Fault Refusal :=
  event s fun b l =>
    match l.req? req with
    | none => l
    | some r =>
      match r.kind with
      | .attic 1 n _ x _ _ _ =>
        match l.reachEngine r with
        | none => l
        | some l =>
          let r := { r with stage := .home }
          match l.entry? (homeStack b n) (l.adomOf r.ctx) n with
          | none => atticFail b l r 0x6E 1
          | some e =>
            if e.dorm then atticFail b l r 0x6E 1
            else if l.mem.anyPoison (e.pa + x.toNat) 8 then atticFail b l r 0x45 0
            else atticOk b (l.chargeBytes b r.ctx e.pa 8) r (BitVec.ofNat 64 (l.mem.read (e.pa + x.toNat) 8)) 0 1
      | _ => l

/-- The word NSTAT returns (R377). -/
def nstatWord (e : Option NameEntry) : Word :=
  match e with
  | none => 0
  | some e => BitVec.ofNat 64 (e.count * 2 ^ 32 + 2 ^ 31 + (if e.dorm then 2 ^ 30 else 0) + (if e.sat then 2 ^ 29 else 0) + e.height * 2 ^ 26 + e.nleaf % 2 ^ 22)

/-- ATTIC_STAT_REQUEST (R377). -/
def execAtticStatRequest (req : Nat) (s : State) : Host.Outcome State Fault Refusal :=
  event s fun b l =>
    match l.req? req with
    | none => l
    | some r =>
      match r.kind with
      | .attic 4 n _ _ _ _ _ =>
        match l.reachEngine r with
        | none => l
        | some l => atticOk b l { r with stage := .home } (nstatWord (l.entry? (homeStack b n) (l.adomOf r.ctx) n)) 0 1
      | _ => l

/-- The line of a tree's leaf by its number (R367): none beyond the end. -/
def leafLine (b : Boot) (l : Live) (adom : Nat) : Nat → BitVec 128 → Nat → Except Nat NameEntry
  | 0, _, _ => .error 0x74
  | fuel + 1, n, i =>
    match l.entry? (homeStack b n) adom n with
    | none => .error 0x6E
    | some e =>
      if !nameKind n then (if i = 0 then .ok e else .error 0x74)
      else if l.mem.anyPoison e.pa 128 then .error 0x45
      else
        let count := fun (c : BitVec 128) => (l.entry? (homeStack b c) adom c).elim 0 NameEntry.nleaf
        let pick := (childNames (lineOf l e)).foldl (fun (acc : Nat × Option (BitVec 128 × Nat)) c => match acc.2 with
          | some _ => acc
          | none => if acc.1 < count c then (acc.1, some (c, acc.1)) else (acc.1 - count c, none)) (i, none)
        match pick.2 with
        | none => .error 0x74
        | some (c, j) => leafLine b l adom fuel c j

/-- ATTIC_LEAF_READ (R301): resolves a leaf of CPYN's tree and answers with its line. -/
def execAtticLeafRead (req : Nat) (s : State) : Host.Outcome State Fault Refusal :=
  event s fun b l =>
    match l.req? req with
    | none => l
    | some r =>
      match r.kind with
      | .attic 7 n _ _ y _ _ =>
        match l.reachEngine r with
        | none => l
        | some l =>
          let r := { r with stage := .home }
          match leafLine b l (l.adomOf r.ctx) 9 n y.toNat with
          | .error c => atticFail b l r c (if c == 0x6E then 1 else 0)
          | .ok e =>
            if l.mem.anyPoison e.pa 128 then atticFail b l r 0x45 0
            else
              let line := lineOf l e
              (l.chargeBytes b r.ctx e.pa 128).reply b r none 3 fun q => { q with kind := match q.kind with
                | .attic op n _ x y step dst => .attic op n line x y step dst
                | k => k }
      | _ => l

/-- ATTIC_RECLAIM (R366): the engine reclaims a DORMANT entry, by its place in the index. -/
def execAtticReclaim (stack entry : Nat) (s : State) : Host.Outcome State Fault Refusal :=
  event s fun b l =>
    match l.dev.names[entry]? with
    | none => l
    | some e => if e.1 == stack && e.2.dorm then reclaimEntry b l stack e.2 else l

/-- The next step of a thread's request goes to an engine. -/
def toEngine (b : Boot) (l : Live) (r : Req) (n : BitVec 128) (kind : ReqKind) : Live :=
  let dest := engineDest (homeStack b n)
  (l.onReq r.id fun q => { q with kind, dest, stage := .going, fail := none, parts := [] }).send b r.ctx r.id false (nodeEnd r.src) none dest none 1

/-- The next step of a thread's request goes to its root slot; one in the thread's own cluster is performed at once (assumption 8). -/
def toRoot (b : Boot) (l : Live) (r : Req) (pa : Nat) (kind : ReqKind) : Live :=
  match paHome b pa with
  | none => l
  | some h =>
    let l := l.onReq r.id fun q => { q with kind, dest := h.dest, stage := .going, fail := none, parts := [{ pa, n := 16 }] }
    if h == .bank r.src then
      match l.req? r.id, kind with
      | some q, .attic op n _ x _ _ _ => rootServe b l q op n x { pa, n := 16 } false
      | _, _ => l
    else l.send b r.ctx r.id false (nodeEnd r.src) none h.dest (match h with
      | .bank _ => none
      | _ => some (h.cluster b)) 1

/-- A word pair reaches the destination of an Attic instruction, which completes. -/
def atticDone (l : Live) (r : Req) (dst : Option Nat) (lo hi : Word) : Live :=
  match l.awaits r with
  | none => l.dropReq r.id
  | some next =>
    let l := l.dropReq r.id
    let l := match dst with
      | none => l
      | some d => (l.land r.tid r.ctx d lo).land r.tid r.ctx (d + 1) hi
    l.complete r.tid next

/-- An Attic instruction traps. -/
def atticTrap (b : Boot) (l : Live) (r : Req) (f : Nat × Nat × Bool) : Live :=
  match l.awaits r with
  | none => l.dropReq r.id
  | some _ => (l.dropReq r.id).trapFlight b r.tid f.1 f.2.1 r.va f.2.2

/-- What follows when the answer to an Attic instruction's step is back (R371 to R377). The root slot's address is held in block. -/
def atticNext (b : Boot) (l : Live) (r : Req) : Live :=
  match r.kind with
  | .attic 5 n pa e y step dst =>
    match step, r.fail with
    | 0, some f => atticTrap b l r f
    | 0, none => toRoot b l r pa.toNat (.attic 5 n pa e y 1 dst)
    | 1, some f =>
      if f.1 == 0x47 || n == 0 then atticTrap b l r f
      else toEngine b l r n (.attic 5 n pa e (BitVec.ofNat 128 (f.1 * 65536 + f.2.1)) 3 dst)
    | 1, none =>
      let old : BitVec 128 := r.out2 ++ r.out
      let target := if old == e then old else n
      if target == 0 then atticDone l r (some dst) r.out r.out2
      else toEngine b l r target (.attic 5 n pa e old 2 dst)
    | 2, some f => atticTrap b l r f
    | 2, none => atticDone l r (some dst) (lowWord y) (highWord y)
    | _, _ => atticTrap b l r (y.toNat / 65536, y.toNat % 65536, false)
  | .attic 6 n pa prev y step dst =>
    if step % 2 == 0 then
      match r.fail with
      | some f => atticTrap b l r f
      | none =>
        let v : BitVec 128 := r.out2 ++ r.out
        if v == 0 then atticDone l r (some dst) 0 0 else toEngine b l r v (.attic 6 v pa prev y (step + 1) dst)
    else
      match r.fail with
      | none => atticDone l r (some dst) (lowWord n) (highWord n)
      | some f =>
        if f.1 != 0x6E then atticTrap b l r f
        else if prev == n then atticTrap b l r (0x6E, 2, false)
        else if 127 ≤ step then atticTrap b l r (0x6E, 3, false)
        else if l.halting r.tid then (l.dropReq r.id).haltFlight r.tid
        else toRoot b l r pa.toNat (.attic 6 0 pa n y (step + 1) dst)
  | .attic op _ _ _ _ _ dst =>
    match r.fail with
    | some f => atticTrap b l r f
    | none =>
      if op == 0 then atticDone l r (some dst) r.out r.out2
      else match l.awaits r with
        | none => l.dropReq r.id
        | some next =>
          let l := l.dropReq r.id
          (if op == 1 || op == 4 then l.land r.tid r.ctx dst r.out else l).complete r.tid next
  | _ => l

/-- Carries NSWAP or NROOT on while its answers are already back. -/
def atticRun (b : Boot) (id : Nat) : Nat → Live → Live
  | 0, l => l
  | n + 1, l =>
    match l.req? id with
    | none => l
    | some r => if r.stage == .replied then atticRun b id n (atticNext b l r) else l

/-- The checks common to every Attic instruction (R364, R371). -/
def atticCheck (l : Live) (k : Unit → Out) : Out :=
  if l.adomOf l.myCtx == 0 then .trap l 0x6C 0 0 else waitOrder l false k

/-- A context's first request to an engine marks the gateway die in its TDIES (R364, R344). -/
def touchEngine (l : Live) (stack : Nat) : Live := l.touch l.myCtx [8 + stack / 3]

/-- Sends an Attic request of the issuing thread to the engine of a name, and waits for it. -/
def sendAttic (b : Boot) (l : Live) (n : BitVec 128) (kind : ReqKind) (va : Word) (flits : Nat) : Out :=
  let stack := homeStack b n
  let dest := engineDest stack
  sendReq b l dest none flits (fun id => l.newReq kind .plain va dest id) fun id l => .wait (touchEngine l stack) (.request id)

/-- The name in a register pair (R362, R371). -/
def Live.pair (l : Live) (a : BitVec 7) : BitVec 128 := l.g (a + 1) ++ l.g a

/-- The block that NAME reads, by its control word (R372). -/
def nameBlock (b : Boot) (l : Live) (v : Word) (row0 : Nat) (k : Live → BitVec 1024 → Out) : Out :=
  if v.getLsbD 62 then
    let t := wbits v 31 28
    if l.th.tsize ≤ t then .trap l 0x03 1 0
    else
      let l := l.syncTiles
      let o := l.tileOp (BitVec.ofNat 7 t)
      if !descOk o.1.desc then .trap l 0x21 0 0
      else if dRows o.1.desc ≤ row0 then .trap l 0x23 0 0
      else
        let d := o.2.readArea 0 (tileRowKey l.myCore o.1.reg row0) ((l.dev.core l.myCore).cycle + 1)
        k d.2 (BitVec.ofNat 1024 (d.1 / 2 ^ (1024 * wbits v 27 26)))
  else
    let a : Word := 0x2000000000000000 + BitVec.ofNat 64 (wbits v 21 0)
    match locate b l l.myCore l.myCtx 0 0x60 a (granulesOf 0 128) [] with
    | .miss l va => parkTlb l va 0
    | .stop l _ c => .trap l c 0 a
    | .all l ps => if partsPoisoned l ps then .trap l 0x45 0 a else k l (BitVec.ofNat 1024 (readParts l ps))

/-- NAME (R372). -/
def execName (x : Ext) (s : State) : Host.Outcome State Fault Refusal :=
  instrX s x [x.d, x.d + 1, x.a] [] fun b l => atticCheck l fun _ =>
    let v := l.g x.a
    let tsrc := v.getLsbD 62
    if wbits v 61 32 != 0 || wbits v 25 22 != 0 || (!tsrc && (wbits v 31 26 != 0 || x.row0 != 0 || wbits v 21 0 % 128 != 0)) || (tsrc && wbits v 21 0 != 0)
      then .trap l 0x6D 1 0
    else nameBlock b l v x.row0.toNat fun l block =>
      match tfind l.dev.domains (l.adomOf l.myCtx) with
      | none => .trap l 0x79 0 0
      | some dom =>
        let n := mkName (atticHash dom.dk (v.getLsbD 63) block) 0 false
        sendAttic b l n (.attic 0 0 block (if v.getLsbD 63 then 1 else 0) 0 0 x.d.toNat) 0 3

/-- NLD (R373). -/
def execNld (x : Ext) (s : State) : Host.Outcome State Fault Refusal :=
  instrX s x [x.d, x.a, x.a + 1] [] fun b l => atticCheck l fun _ =>
    sendAttic b l (l.pair x.a) (.attic 1 (l.pair x.a) 0 (BitVec.ofNat 128 (x.lit.getD (x.imm.setWidth 64)).toNat) 0 0 x.d.toNat) 0 1

/-- NREF (R374); the null name needs nothing. -/
def execNref (x : Ext) (s : State) : Host.Outcome State Fault Refusal :=
  instrX s x [x.a, x.a + 1] [] fun b l => atticCheck l fun _ =>
    if l.pair x.a == 0 then .done l else sendAttic b l (l.pair x.a) (.attic 2 (l.pair x.a) 0 0 0 0 0) 0 1

/-- NREL (R374). -/
def execNrel (x : Ext) (s : State) : Host.Outcome State Fault Refusal :=
  instrX s x [x.a, x.a + 1] [] fun b l => atticCheck l fun _ =>
    if l.pair x.a == 0 then .done l else sendAttic b l (l.pair x.a) (.attic 3 (l.pair x.a) 0 0 0 0 0) 0 1

/-- NSTAT (R377). -/
def execNstat (x : Ext) (s : State) : Host.Outcome State Fault Refusal :=
  instrX s x [x.d, x.a, x.a + 1] [] fun b l => atticCheck l fun _ =>
    sendAttic b l (l.pair x.a) (.attic 4 (l.pair x.a) 0 0 0 0 x.d.toNat) 0 1

/-- The checks of a root slot's address at issue (R375, R376), and its place. -/
def rootSlot (b : Boot) (l : Live) (a : Word) (write : Bool) (k : Live → Home → Nat → Out) : Out :=
  let kind := if write then 1 else 0
  let cls := if write then 0x61 else 0x60
  if a.toNat % 16 != 0 then .trap l 0x42 0 a
  else match wbits a 63 60 with
    | 0 =>
      if reserved01 a then .trap l 0x40 0 a
      else match l.translate b l.myCore (wbits a 47 0) kind cls with
        | .miss l => parkTlb l (wbits a 47 0) kind
        | .fail l c => .trap l c 0 a
        | .pa l pa _ => match paHome b pa with
          | some h => k l h pa
          | none => .trap l 0x40 0 a
    | 2 =>
      if wbits a 59 22 != 0 then .trap l 0x40 0 a
      else if !inWindow (l.dev.core l.myCore).cmwin (wbits a 21 0) then .trap l 0x44 0 a
      else k l (.bank l.myCluster) (clusterPa l.myCluster (wbits a 21 0))
    | 3 =>
      if wbits a 59 30 != 0 || !b.hasCluster (wbits a 29 22) then .trap l 0x40 0 a
      else k l (.bank (wbits a 29 22)) (clusterPa (wbits a 29 22) (wbits a 21 0))
    | 6 => .trap l cls 0 a
    | 14 => .trap l (if l.privileged then 0x41 else 0x02) 0 a
    | _ => .trap l 0x41 0 a

/-- Sends the first step of NSWAP or NROOT to its root slot and waits; one in the thread's own cluster is performed at once. -/
def sendRoot (b : Boot) (l : Live) (a : Word) (h : Home) (pa : Nat) (kind : ReqKind) : Out :=
  if h == .bank l.myCluster then
    let r := l.addReq fun id => { l.newReq kind .plain a h.dest id with parts := [{ pa, n := 16 }] }
    match r.2.req? r.1, kind with
    | some q, .attic op n _ e _ _ _ => .wait (rootServe b r.2 q op n e { pa, n := 16 } false) (.request r.1)
    | _, _ => .done l
  else
    let hc := match h with
      | .bank _ => none
      | _ => some (h.cluster b)
    sendReq b l h.dest hc 1 (fun id => { l.newReq kind .plain a h.dest id with parts := [{ pa, n := 16 }] }) fun id l => .wait l (.request id)

/-- An instruction of several steps: what it starts, and the steps whose answers are back at once. -/
def instrRoot (s : State) (x : Ext) (gs : List (BitVec 7)) (body : Boot → Live → Out) : Host.Outcome State Fault Refusal :=
  onLive s fun b l =>
    let is := gs.map BitVec.toNat
    let l := finish b (Ext.len x) (checkWindows l is [] fun _ =>
      if (l.th.p x.pg.toNat != x.pn) then checkPresent l is fun _ => body b l else .done l)
    match (l.dev.thread l.dev.cur).flight with
    | .request id _ => atticRun b id 4 l
    | _ => l

/-- NSWAP (R375). -/
def execNswap (x : Ext) (s : State) : Host.Outcome State Fault Refusal :=
  instrRoot s x [x.d, x.d + 1, x.a, x.b, x.b + 1, x.c, x.c + 1] fun b l => atticCheck l fun _ =>
    rootSlot b l (l.g x.a) true fun l h pa =>
      let m := l.pair x.c
      let kind := fun (step : Nat) => ReqKind.attic 5 m (BitVec.ofNat 1024 pa) (l.pair x.b) 0 step x.d.toNat
      if m == 0 then sendRoot b l (l.g x.a) h pa (kind 1)
      else sendAttic b l m (kind 0) (l.g x.a) 1

/-- NROOT (R376). -/
def execNroot (x : Ext) (s : State) : Host.Outcome State Fault Refusal :=
  instrRoot s x [x.d, x.d + 1, x.a] fun b l => atticCheck l fun _ =>
    rootSlot b l (l.g x.a) false fun l h pa =>
      sendRoot b l (l.g x.a) h pa (.attic 6 0 (BitVec.ofNat 1024 pa) 0 0 0 x.d.toNat)

/-- ATTIC_REPLY (R371): an answer reaches the issuing thread. -/
def takeAttic (b : Boot) (l : Live) (req : Nat) : Live :=
  match l.req? req with
  | none => l
  | some r =>
    match r.kind with
    | .attic op _ _ _ _ _ _ =>
      if 7 ≤ op || r.reported then l
      else match l.reachBack r with
        | none => l
        | some l => atticRun b req 4 (l.onReq req fun q => { q with stage := .replied })
    | _ => l

end Sys2Proof.Machine
end

