-- ==== Sys2Proof/Machine/Fabric.lean ====
section
/-!
DEFINITION. Meanings of the fabric's own steps, the relay service's, and the circuit instructions (02_wheel.md, 14_circuit.md).
-/

namespace Sys2Proof.Machine

/-- The UCIe link that a router link crosses (R396). -/
def ucieLink (node port : Nat) : Option Nat :=
  if crossing node port = 0 then none
  else if 192 ≤ node then some (10 + (if node - 192 < 2 then 0 else 4) + 2 * ((node - 192) % 2) + port / 6)
  else
    let d := dieOf node
    match port with
    | 1 => some (if d < 4 then d else d - 1)
    | 3 => some (if d < 4 then d - 1 else d - 2)
    | 0 => some (if yOf node = 0 then 10 + d else 6 + (d - 4))
    | _ => some (if yOf node = 7 then 10 + d else 6 + d)

/-- Counts a bad flit in the LNKSTAT of the link it came over (R400). -/
def Live.countBad (l : Live) (node inPort : Nat) : Live :=
  match ucieLink node inPort with
  | none => l
  | some i => l.map fun d =>
      let w := tget d.links.lnkstat 0x0000000400000000 i
      { d with links := { d.links with lnkstat := tput d.links.lnkstat i (bumpField w 0 32) } }

/-- Counts a discarded flit (R29, R291); beyond 2^16 at one router a record is written (0xDA). -/
def Live.misroute (b : Boot) (l : Live) (node : Nat) : Live :=
  let l := l.onRtrstat node fun w => bumpField w 0 32
  if wbits (tget l.dev.links.rtrstat 0 node) 31 0 = 65537 then l.hardRecord b 0 0xDA 5 0 node 0 else l

/-- The outputs of a router that take a flit from an input in a wheel slot (R29). -/
def Live.outputsFor (l : Live) (plane node inPort slot : Nat) : List Nat :=
  (List.range 64).filter fun p => tget l.dev.links.active 0 (cellKey (node, p, plane, slot)) == BitVec.ofNat 8 (128 + inPort)

/-- A flit leaves a router by an output (R30): on to the next router, to an endpoint, or out of the package. -/
def Live.forward (b : Boot) (l : Live) (f : Flit) (plane node port slot turn : Nat) : Live :=
  let put := fun (l : Live) (g : Flit) => l.map fun d => { d with flits := d.flits ++ [g] }
  match farEnd node port with
  | some m =>
    let a := turn * b.wheel + slot + 1 + crossing node port
    put l { f with pos := some (plane, m, backPort node port, a % b.wheel, a / b.wheel) }
  | none =>
    let e : Dest := if node < 192 then .cluster node else .gateway (node - 192) port
    match f.payload, decide (26 ≤ port) && decide (port ≤ 36) with
    | .ring g, true => l.map fun d => { d with out := d.out ++ [.ringOut f.cnum { g with bad := g.bad || f.bad }] }
    | .burst q _, _ => if (l.req? q).isNone then l else put l { f with pos := none, at_ := some e }
    | _, _ => put l { f with pos := none, at_ := some e }

/-- A router has still to switch its banks for a turn no later than the one given (R37). -/
def Live.switchDue (l : Live) (node turn : Nat) : Bool :=
  l.dev.links.commits.any (fun c => c.1 == node && decide (c.2 ≤ turn)) ||
    l.dev.circuits.any fun e => match e.2.change with
      | some ch => ch.routers.contains node && ch.turn.any fun t => decide (t ≤ turn)
      | none => false

/-- FLIT_ARRIVAL (R29, R30, R399): the flit is marked bad if its check fails, then forwarded, copied, delivered or discarded. A flit that arrives on a
failed link is discarded uncounted (R48, R290, R291). -/
def execFlitArrival (flit : Nat) (bad : Bool) (s : State) : Host.Outcome State Fault Refusal :=
  event s fun b l =>
    match l.dev.flits.find? fun f => f.id == flit with
    | none => l
    | some f =>
      match f.pos with
      | none => l
      | some (plane, node, inPort, slot, turn) =>
        if l.switchDue node turn then l
        else
          let l := l.reachTime b turn slot
          let l := if bad then l.countBad node inPort else l
          let f := { f with bad := f.bad || bad }
          let l := l.map fun d => { d with flits := d.flits.filter fun x => x.id != flit }
          if (tfind l.dev.links.failedFrom (node * 64 + inPort)).any fun t => decide (t ≤ turn) then l
          else match l.outputsFor plane node inPort slot with
            | [] => l.misroute b node
            | p :: rest =>
              let l := l.forward b f plane node p slot turn
              let l := rest.foldl (fun l q => let n := l.newId; n.2.forward b { f with id := n.1 } plane node q slot turn) l
              (l.dev.jobs.filter fun e => e.2.kind == 5 && e.2.cnum == f.cnum && e.2.cnum != 0).foldl (fun l e => l.releaseJob b e.1) l

/-- D of a part of a circuit, with the wheel slots of its half on another package (R38). -/
def Route.drain (w : Nat) (r : Route) (far : Nat) : Nat := (r.latency + far + w - 1) / w

/-- The first opportunity for a flit in some slots, from one on: absolute slot × 8 + plane. A turn in which a slot may not be used any more rules it out. -/
def opportunity (w from_ : Nat) (slots : List (Nat × Nat)) (usable : Nat × Nat → Nat → Bool) : Option Nat :=
  (slots.filterMap fun ps =>
    let t := (from_ + (8 * w - 1) - (8 * ps.2 + ps.1)) / (8 * w)
    if usable ps t then some (8 * (t * w + ps.2) + ps.1) else none).foldl (fun m a => some (m.elim a (Nat.min a))) none

/-- A slot of a part may be used in a turn: with a switch turn N named, before N only, and in a slot being removed before N − D only (R38). -/
def Change.usable (ch : Option Change) (rev : Bool) (drain : Nat) (ps : Nat × Nat) (t : Nat) : Bool :=
  match ch with
  | none => true
  | some ch => match ch.turn with
    | none => true
    | some n => decide (t < n) && ((if rev then ch.rev else ch.fwd).contains ps || decide (t + drain < n))

/-- Ring data leaves only while the next engine has room for it (R304). -/
def Live.ringRoom (l : Live) (f : Flit) : Bool :=
  match f.payload with
  | .ring _ => !l.dev.jobs.any fun e => e.2.kind == 5 && e.2.cnum == f.cnum && e.2.credit == 0
  | _ => true

/-- A flit of a circuit leaves: ring data takes a credit (R304). -/
def Job.spend (j : Job) (f : Flit) : Job :=
  match f.payload with
  | .ring _ => if j.kind == 5 && j.cnum == f.cnum then { j with credit := j.credit - 1 } else j
  | _ => j

/-- The oldest waiting flit of a part of a circuit and the first owned wheel slot in which it can leave (R32, R38): none while injection is held, or when
no owned slot is left to it. -/
def Live.nextInject (b : Boot) (l : Live) (cnum : Nat) (rev : Bool) : Option (Flit × Nat) :=
  match tfind l.dev.copies cnum, l.dev.flits.find? (fun f => f.cnum == cnum && f.rev == rev && f.waits) with
  | some k, some f =>
    let c := l.circuit cnum
    if (k.st == 2 || k.st == 3 || k.st == 4) && (l.dev.ctx k.ctx).st != 5 && !(l.dev.ctx k.ctx).poison && l.ringRoom f then
      (opportunity b.wheel (Nat.max (8 * f.ready) (if rev then k.rnext else k.next)) (if rev then k.rslots else k.slots)
        (Change.usable c.change rev (if rev then c.rev.drain b.wheel c.rfar else c.fwd.drain b.wheel c.far))).map fun a => (f, a)
    else none
  | _, _ => none

/-- The oldest waiting flit of a part of a circuit leaves in the next wheel slot that the NI's copy of the circuit owns; the slot carries no other flit. -/
def Live.inject (b : Boot) (l : Live) (cnum : Nat) (rev : Bool) : Live :=
  match l.nextInject b cnum rev with
  | none => l
  | some (f, a) =>
    let c := l.circuit cnum
    let r := if rev then c.rev else c.fwd
    let l := l.reachSlot b (a / 8)
    l.map fun d => { d with
      jobs := d.jobs.map fun e => (e.1, e.2.spend f)
      copies := d.copies.map fun e => if e.1 == cnum then (e.1, if rev then { e.2 with rnext := a + 1 } else { e.2 with next := a + 1 }) else e
      flits := d.flits.map fun x =>
        if x.id == f.id then { x with pos := some (a % 8, r.hops.head?.elim c.src Prod.fst, r.ins.headD 4, a / 8 % b.wheel, a / 8 / b.wheel) } else x }

/-- CIRCUIT_INJECT (R25, R32, R38): a number of waiting flits of a part of a circuit leave one after another, the oldest first, each in the next owned
wheel slot. -/
def execCircuitInject (cnum : Nat) (rev : Bool) (n : Nat) (s : State) : Host.Outcome State Fault Refusal :=
  event s fun b l => (List.range n).foldl (fun l _ => l.inject b cnum rev) l

/-- An NI has no port of a code (R28). -/
def badPort (node port : Nat) : Bool := if node < 192 then 5 ≤ port else 39 ≤ port

/-- The links of configuration traffic from a node to another. -/
def cfgPath (b : Boot) (l : Live) (node dest : Nat) : List (Nat × Nat) := relayRoute b l (nodeEnd node) none (nodeEnd dest) none

/-- CONFIG_FLIT_RECEIVE (R36, R29): entry writes go to the shadow bank and window writes to the shadow window table, a write naming an absent port is
dropped, counted and reported (0xC7), and the router acknowledges in the next turn. -/
def execConfigFlitReceive (msg : Nat) (s : State) : Host.Outcome State Fault Refusal :=
  event s fun b l =>
    match l.dev.cfg.find? fun m => m.id == msg && m.at_ == m.dest with
    | none => l
    | some m =>
      match m.kind with
      | .writes ws ww =>
        let l := l.reachTime b (m.turn - 1) (wbits b.whldesc 14 5)
        let l := l.map fun d => { d with cfg := d.cfg.filter fun x => x.id != msg }
        let l := ws.foldl (fun l x =>
          if badPort x.1 x.2.1 || (x.2.2.2.2.getLsbD 7 && badPort x.1 (x.2.2.2.2.toNat % 64)) then
            (l.onRtrstat x.1 fun w => bumpField w 48 16).hardRecord b 0 0xC7 5 0 x.1 0
          else l.map fun d => { d with links := { d.links with shadow := tset d.links.shadow 0 (cellKey (x.1, x.2.1, x.2.2.1, x.2.2.2.1)) x.2.2.2.2 } }) l
        let l := l.map fun d => { d with links := { d.links with
          winShadow := ww.foldl (fun t x => tset t 0 (x.1 * 128 + x.2.1) x.2.2) d.links.winShadow } }
        l.sendCfg m.cnum m.dest cmNode m.turn (.ack [m.dest])
      | _ => l

/-- Acknowledgements in one flit (R37). -/
def CfgMsg.acks (m : CfgMsg) : List Nat := match m.kind with
  | .ack rs => rs
  | _ => []

/-- Configuration messages that a held one takes along in its flit (R37): acknowledgements of the same change, up to 11 in all. -/
def packed (l : Live) (m : CfgMsg) (turn : Nat) : List CfgMsg :=
  if m.acks.isEmpty then []
  else (l.dev.cfg.filter fun x => x.id != m.id && x.at_ == m.at_ && x.dest == m.dest && x.cnum == m.cnum && decide (x.turn ≤ turn) && !x.acks.isEmpty).foldl
    (fun acc x => if (m :: (acc ++ [x])).foldl (fun n y => n + y.acks.length) 0 ≤ 11 then acc ++ [x] else acc) []

/-- CONFIG_FLIT_FORWARD (R37): held configuration traffic moves one hop in the next configuration wheel slot in which the output carries no other flit of the
class; what the connection manager sent earlier over that link goes first, and the acknowledgements that the NI holds go together. DESIGN CHOICE (assumption
22): the links that it takes between G1 and a router are those of R41's relay route, which R37 does not state. -/
def execConfigFlitForward (msg : Nat) (s : State) : Host.Outcome State Fault Refusal :=
  event s fun b l =>
    match l.dev.cfg.find? fun m => m.id == msg && m.at_ != m.dest with
    | none => l
    | some m =>
      match (cfgPath b l m.at_ m.dest).head? with
      | none => l.map fun d => { d with cfg := d.cfg.map fun x => if x.id == msg then { x with at_ := m.dest } else x }
      | some h =>
        let first := l.dev.cfg.any fun x => decide (x.id < m.id) && x.acks.isEmpty && m.acks.isEmpty && (cfgPath b l x.at_ x.dest).contains h
        if first || !linkOk b l h.1 h.2 then l
        else
          let key := h.1 * 64 + h.2
          let t := Nat.max m.turn (tget l.dev.links.cfgNext 0 key)
          let along := packed l m t
          let l := l.reachTime b t (wbits b.whldesc 14 5)
          l.map fun d => { d with
            links := { d.links with cfgNext := tput d.links.cfgNext key (t + 1) }
            cfg := (d.cfg.filter fun x => !(along.map CfgMsg.id).contains x.id).map fun x =>
              if x.id == msg then { x with at_ := (farEnd h.1 h.2).getD m.dest, turn := t + 1, kind := if m.acks.isEmpty then x.kind else .ack (m.acks ++ along.flatMap CfgMsg.acks) } else x }

/-- The turns from which flits that leave the connection manager together may go on at their routers, when they go in order and one link carries one of them
in a turn (R37). -/
def cfgSchedule (b : Boot) (l : Live) (routers : List Nat) (turn : Nat) : List (Nat × Nat) :=
  (routers.foldl (fun (acc : Table Nat × List (Nat × Nat)) r =>
    let x := (cfgPath b l cmNode r).foldl (fun (a : Table Nat × Nat) h =>
      let t := Nat.max a.2 (tget a.1 0 (h.1 * 64 + h.2))
      (tput a.1 (h.1 * 64 + h.2) (t + 1), t + 1)) (acc.1, turn)
    (x.1, acc.2 ++ [(r, x.2)])) (l.dev.links.cfgNext, [])).2

/-- The earliest switch turn N of a circuit's change when the commit leaves in a turn (R37): every router of the set has it before N, and where slots go, N is
at least D turns after the one in which it reaches the injecting NI. -/
def Live.earliestSwitch (b : Boot) (l : Live) (n turn : Nat) : Nat :=
  let c := l.circuit n
  match c.change with
  | none => turn + 1
  | some ch =>
    let at_ := cfgSchedule b l ch.routers (turn + 1)
    let all := at_.foldl (fun m r => Nat.max m r.2) (turn + 1)
    let stop := fun (r : Route) (gone : Bool) (far : Nat) =>
      if gone then (((at_.find? fun x => some x.1 == r.hops.head?.map Prod.fst).map Prod.snd).getD all) - 1 + r.drain b.wheel far else 0
    Nat.max all (Nat.max (stop c.fwd (c.fwd.slots.any fun x => !ch.fwd.contains x) c.far) (stop c.rev (c.rev.slots.any fun x => !ch.rev.contains x) c.rfar))

/-- The connection manager names the switch turn and sends the commit (R37). -/
def Live.commitAt (l : Live) (n leave turn : Nat) : Live :=
  let l := l.onChange n fun ch => { ch with turn := some turn }
  (((l.circuit n).change.map Change.routers).getD []).foldl (fun l r => l.sendCfg n cmNode r (leave + 1) (.commit turn)) l

/-- The connection manager names the switch turn once every acknowledgement and the peer's answer are in: the earliest it can, and for a circuit between
packages the later of its own proposal and the peer's (R37, R281). -/
def Live.nameTurn (b : Boot) (l : Live) (n : Nat) : Live :=
  let c := l.circuit n
  match c.change with
  | none => l
  | some ch =>
    if !ch.waiting.isEmpty || ch.turn.isSome || c.peer.isSome then l
    else
      let leave := l.turn b + 1
      let own := l.earliestSwitch b n leave
      if c.other.isNone then l.commitAt n leave own
      else
        let l := if ch.mine.isSome then l else (l.onChange n fun ch => { ch with mine := some own }).tellPeer n (.turn own)
        match ch.theirs with
        | none => l
        | some t => l.commitAt n leave (Nat.max (ch.mine.getD own) t)

/-- CONFIG_ACK_RECEIVE (R37). -/
def execConfigAckReceive (msg : Nat) (s : State) : Host.Outcome State Fault Refusal :=
  event s fun b l =>
    match l.dev.cfg.find? fun m => m.id == msg && m.at_ == cmNode && m.dest == cmNode with
    | none => l
    | some m =>
      match m.kind with
      | .ack rs =>
        let l := l.reachTime b (m.turn - 1) (wbits b.whldesc 14 5)
        let l := l.map fun d => { d with cfg := d.cfg.filter fun x => x.id != msg }
        (l.onChange m.cnum fun ch => { ch with waiting := rs.foldl List.erase ch.waiting }).nameTurn b m.cnum
      | _ => l

/-- COMMIT_RECEIVE (R37): a router holds the commit for its switch turn; one that arrives when that turn has begun has missed it. -/
def execCommitReceive (msg : Nat) (s : State) : Host.Outcome State Fault Refusal :=
  event s fun b l =>
    match l.dev.cfg.find? fun m => m.id == msg && m.at_ == m.dest with
    | none => l
    | some m =>
      match m.kind with
      | .commit turn =>
        let l := l.reachTime b (m.turn - 1) (wbits b.whldesc 14 5)
        l.map fun d => { d with
          cfg := d.cfg.filter fun x => x.id != msg
          links := { d.links with commits := if m.turn ≤ turn then d.links.commits ++ [(m.dest, turn)] else d.links.commits } }
      | _ => l

/-- A router exchanges its banks and copies the new active one; the window tables of a gateway router's pseudo-channels switch with them (R37, R44). -/
def Live.switchBanks (l : Live) (node : Nat) : Live :=
  let mine := fun (e : Nat × Byte) => e.1 / (64 * 8 * 1024) == node
  let wins := fun (e : Nat × Nat) => pcNode (e.1 / 128) == node
  l.map fun d => { d with links := { d.links with
    active := (d.links.shadow.filter mine).foldl (fun t e => tput t e.1 e.2) (d.links.active.filter fun e => !mine e)
    windows := (d.links.winShadow.filter wins).foldl (fun t e => tput t e.1 e.2) (d.links.windows.filter fun e => !wins e) } }

/-- What a circuit's switch turn leaves (R283, R286, R287). -/
def Live.switchCircuit (b : Boot) (l : Live) (n : Nat) (ch : Change) : Live :=
  if 4096 ≤ n then l.map fun d => { d with circuits := tdel d.circuits n }
  else if ch.close then (l.answerChange b n 0 false).freeCircuit n
  else
    let l := l.onCircuit n fun c => { c with st := 2, change := none, fwd := { c.fwd with slots := ch.fwd }, rev := { c.rev with slots := ch.rev }, wins := ch.wins }
    let c := l.circuit n
    let from_ := 8 * b.wheel * ch.turn.getD 0
    let old : NiCopy := (tfind l.dev.copies n).getD { cluster := c.src, ctx := c.ctx, gen := c.gen, st := 2, fcause := 0, ep := c.ep, lat := 0, slots := [] }
    let k : NiCopy := { old with st := 2, lat := c.fwd.latency + c.far, slots := c.fwd.slots, rslots := c.rev.slots
                                 next := Nat.max old.next from_, rnext := Nat.max old.rnext from_ }
    let l := if c.isFar then l else l.map fun d => { d with copies := tput d.copies n k }
    l.answerChange b n 0 true

/-- The item to which a flit belongs, by job and index (R287). -/
def Live.flitItem (l : Live) (f : Flit) : Option (Nat × Nat) :=
  match f.payload with
  | .stream j row _ _ => some (j, row)
  | .burst q _ => match (l.req? q).map Req.kind with
    | some (.piece j i) => some (j, i)
    | _ => none
  | .ring _ => none

/-- Injection into the slots being removed has stopped (R38, R287): on a close the items of flits that still wait fail with the request-failed cause,
DETAIL 1. -/
def Live.stopInject (b : Boot) (l : Live) (n : Nat) : Live :=
  match (l.circuit n).change with
  | none => l
  | some ch =>
    let l := l.onChange n fun ch => { ch with stopped := true }
    if !ch.close || ch.stopped then l
    else
      let left := l.dev.flits.filter fun f => f.cnum == n && f.waits
      left.foldl (fun l f => match l.flitItem f with
        | none => l
        | some (j, i) => match l.job? j with
          | none => l
          | some x => if x.items.any (fun it => it.idx == i) then (l.onJob j fun x => x.failItem i 0x46 1 0).endItem b j i else l) (l.dropFlits n)

/-- A flit that is on the fabric, or can still be injected, has a wheel slot before a turn to come. -/
def Live.flitsBefore (b : Boot) (l : Live) (turn : Nat) : Bool :=
  l.dev.flits.any (fun f => f.pos.any fun p => decide (p.2.2.2.2 < turn)) ||
    l.dev.copies.any fun e => [false, true].any fun rev => (l.nextInject b e.1 rev).any fun x => decide (x.2 / 8 < turn * b.wheel)

/-- A commit for a turn is still on its way and will come in time. -/
def Live.commitComing (b : Boot) (l : Live) (turn : Nat) : Bool :=
  l.dev.cfg.any fun m => m.kind == .commit turn && decide (m.turn + (cfgPath b l m.at_ m.dest).length ≤ turn)

/-- SWITCH_TURN (R37, R38): routers that hold the commit switch; one that does not keeps its bank, sets NOSW, and its links have failed. What happens in
earlier wheel slots comes first. -/
def execSwitchTurn (turn : Nat) (s : State) : Host.Outcome State Fault Refusal :=
  event s fun b l =>
    let held := (l.dev.links.commits.filter fun c => c.2 == turn).map Prod.fst
    let due := l.dev.circuits.filter fun e => (e.2.change.bind Change.turn) == some turn
    if (held.isEmpty && due.isEmpty) || l.commitComing b turn || l.flitsBefore b turn then l
    else
      let l := due.foldl (fun l e => l.stopInject b e.1) (l.reachTime b turn 0)
      let l := (held.foldl (fun l r => l.switchBanks r) l).map fun d => { d with links := { d.links with commits := d.links.commits.filter fun c => c.2 != turn } }
      let missed := (due.flatMap fun e => (e.2.change.map Change.routers).getD []).filter fun r => !held.contains r
      let l := missed.foldl (fun l r =>
        let l := l.onRtrstat r fun w => setBits w 32 1 1
        (List.range (if r < 192 then 4 else 12)).foldl (fun l p => if (farEnd r p).isSome then l.failLink b r p 3 else l) l) l
      due.foldl (fun l e => match (l.circuit e.1).change with
        | some ch => if ch.turn == some turn then l.switchCircuit b e.1 ch else l
        | none => l) l

/-- INJECT_STOP (R38, R287): from turn N − D the NI does not inject into slots being removed; on a close the items of flits that still
wait fail with the request-failed cause, DETAIL 1. A flit that can still be injected before goes first. -/
def execInjectStop (cnum : Nat) (s : State) : Host.Outcome State Fault Refusal :=
  event s fun b l =>
    let c := l.circuit cnum
    match c.change.bind Change.turn with
    | none => l
    | some n =>
      if (c.change.any Change.close) && ((l.nextInject b cnum false).isSome || (l.nextInject b cnum true).isSome) then l
      else (l.reachTime b (n - Nat.max (c.fwd.drain b.wheel c.far) (if c.duplex then c.rev.drain b.wheel c.rfar else 0)) 0).stopInject b cnum

/-- The absolute slot from which a sender has a credit, by the times at which its last credits came (R40). -/
def Credit.from_ (c : Credit) : Nat := if c.times.length < c.held then 0 else c.times.headD 0

/-- A message takes a credit: the oldest. -/
def Credit.take (c : Credit) : Credit := { c with held := c.held - 1, times := if c.times.length < c.held then c.times else c.times.tail }

/-- Credits come back at an absolute slot. -/
def Credit.give (c : Credit) (n at_ : Nat) : Credit := { c with held := c.held + n, times := c.times ++ List.replicate n at_ }

/-- The message of a context whose next flit goes first on a link: one that has begun, else the oldest that is not held by a fabric rekey (R40, R341). -/
def Live.headMsg (l : Live) (node dir ctx : Nat) : Option Msg :=
  let q := l.outQueue node dir ctx
  (q.find? fun m => m.sent != 0).or (q.find? fun m => m.came.isSome || !l.relayHeld ctx m.dest)

/-- The absolute slot in which the next flit of a context's head message leaves: the next relay wheel slot that the context owns on the link, once the message
is ready and, before its first flit, a credit is there (R40 to R42). -/
def Live.nextSend (b : Boot) (l : Live) (node dir ctx : Nat) (m : Msg) : Option Nat :=
  let c := l.credit node dir ctx
  if m.sent == 0 && c.held == 0 then none
  else l.nextOwned b node dir ctx (Nat.max (Nat.max m.ready c.next) (if m.sent == 0 then c.from_ else 0))

/-- A message has left by a Treco port. What the other package answers is a free value, which the event of the answer brings (assumption 1). -/
def Live.leave (l : Live) (m : Msg) : Live :=
  let answers := match (l.req? m.req).map Req.kind with
    | some (.spawn _ _ _ _ _ _) => true
    | some (.phaser _ _ _ _) => true
    | _ => false
  let l := l.takeMsg m
  if !answers then l.dropReq m.req
  else
    let v := l.choose (2 ^ 64)
    v.2.onReq m.req fun r => { r with stage := .replied, out := BitVec.ofNat 64 v.1 }

/-- RELAY_FLIT_SEND (R40, R41): an NI sends the next flit of a context's head message in the next wheel slot that the context owns, with a credit for
the message; its header returns the credits owed to the far end. The message is ready at the far NI 1 + X + 8 slots after its last flit. A fabric rekey
holds messages at the NI where they begin (R341); one that finds its link failed is drained (R290). By a Treco port the message leaves the package. -/
def execRelayFlitSend (node dir ctx : Nat) (s : State) : Host.Outcome State Fault Refusal :=
  event s fun b l =>
    match l.headMsg node dir ctx with
    | none => l
    | some m =>
      if !linkOk b l node dir then l.failMsg b m
      else match l.nextSend b node dir ctx m with
        | none => l
        | some a =>
          let l := l.reachSlot b a
          let come := a + 1 + crossing node dir
          let more := decide (m.sent + 1 < m.flits)
          let on := fun (l : Live) => l.map fun d => { d with msgs := d.msgs.map fun x => if x.id == m.id then { x with sent := x.sent + 1 } else x }
          match farEnd node dir with
          | none =>
            let l := l.onCredit node dir ctx fun c => { c with next := a + 1 }
            if more then on l else l.leave m
          | some far =>
            let l := l.onCredit node dir ctx fun c => { (if m.sent = 0 then c.take else c) with next := a + 1 }
            let l := l.onCredit far (backPort node dir) ctx fun c => { c.give c.owed come with owed := 0 }
            if more then on l
            else
              let l := l.takeMsg m
              l.map fun d => { d with msgs := d.msgs ++ [{ m with sent := 0, path := m.path.tail, node := far, came := some (node, dir), ready := come + 8 }] }

/-- CREDIT_RETURN_SEND (R40): an NI that owes credits for the link towards it, and has no flit ready for the reverse link in the context's next owned relay
wheel slot there, returns them in that slot. -/
def execCreditReturnSend (node dir ctx : Nat) (s : State) : Host.Outcome State Fault Refusal :=
  event s fun b l =>
    match farEnd node dir, l.nextOwned b node dir ctx (Nat.max l.dev.slots (l.credit node dir ctx).next) with
    | some far, some a =>
      let rev := backPort node dir
      let flit := ((l.headMsg node dir ctx).bind (l.nextSend b node dir ctx)).any fun x => decide (x ≤ a)
      if linkOk b l node dir && !flit && (l.credit far rev ctx).owed != 0 then
        let l := (l.reachSlot b a).onCredit node dir ctx fun c => { c with next := a + 1 }
        l.onCredit far rev ctx fun c => { c.give c.flying c.due with owed := 0, flying := c.owed, due := a + 1 + crossing node dir }
      else l
    | _, _ => l

/-- Credits for ring data come back to a job's engine (R304); data that waited for one leaves from now on. -/
def Live.giveRing (l : Live) (job n : Nat) : Live :=
  match l.job? job with
  | none => l
  | some j =>
    let l := l.onJob job fun j => { j with credit := Nat.min 1024 (j.credit + n) }
    if j.credit != 0 then l
    else l.map fun d => { d with copies := d.copies.map fun e => if e.1 == j.cnum then (e.1, { e.2 with next := Nat.max e.2.next (8 * d.slots) }) else e }

/-- Credits for ring data reach an engine (R304): the messages that have come to it, and all the room of an engine on another package. -/
def Live.ringCredits (b : Boot) (l : Live) (g ctx : Nat) : Live :=
  let l := l.dev.reqs.foldl (fun l r => match r.kind, l.reach r with
    | .ringCredit job n, some l' => if r.dest == .gateway g 37 && r.ctx == ctx then (l'.dropReq r.id).giveRing job n else l
    | _, _ => l) l
  l.dev.jobs.foldl (fun l e =>
    if e.2.kind == 5 && e.2.ctx == ctx && e.2.queue.eng == g && e.2.cnum != 0 && epPkg (l.circuit e.2.cnum).entry != b.pkg then l.giveRing e.1 1024 else l) l

/-- CREDIT_RETURN_RECEIVE (R40): the sender on a link has its credits back; at the port of a collective engine, those for its ring data (R304). -/
def execCreditReturnReceive (node dir ctx : Nat) (s : State) : Host.Outcome State Fault Refusal :=
  event s fun b l =>
    let c := l.credit node dir ctx
    if 192 ≤ node && dir == 37 then l.ringCredits b (node - 192) ctx
    else if c.flying = 0 then l
    else (l.reachSlot b c.due).onCredit node dir ctx fun c => { c.give c.flying c.due with flying := 0 }

/-- A message that RELAY_MESSAGE_ACCEPT does not hand to its unit, whose own step takes it: a DRAM request or a migrating thread, which may have to wait
(R41); a message of a request that has several, and a granule wake. -/
def Msg.waits (m : Msg) (r : Option Req) : Bool :=
  (!m.back && (match m.dest with
    | .gateway _ p => 12 ≤ p && p ≤ 25
    | .cluster _ => false)) || (match r.map Req.kind with
    | some (.migrate _ _ _ _ _) => !m.back
    | some (.wake _) => true
    | some k => k.many
    | none => false)

/-- RELAY_MESSAGE_ACCEPT (R41): the instant comes at which a message at its destination is handed to its unit, which takes it, and its place is freed. -/
def execRelayMessageAccept (msg : Nat) (s : State) : Host.Outcome State Fault Refusal :=
  event s fun b l =>
    match l.dev.msgs.find? fun m => m.id == msg && m.path.isEmpty with
    | none => l
    | some m =>
      let l := l.reachSlot b m.ready
      if m.waits (l.req? m.req) then l else (l.accept m.req m.back).getD l

/-- RELAY_PLACE_REQUEST (R42): the connection managers grant a context one place on each of some links, further ones where the operator directs it; all or
none, and firmware reports NORELAY if a link has no free place. -/
def execRelayPlaceRequest (ctx : Nat) (ask : PlaceAsk) (s : State) : Host.Outcome State Fault Refusal :=
  event s fun b l =>
    match l.grantPlaces b ctx ask.links ask.further with
    | some l => l
    | none => l.map fun d => { d with out := d.out ++ [.report 6 ctx 0] }

/-- The dies that a path touches (R344). -/
def touchPath (ctx : Nat) (r : Route) (l : Live) : Live :=
  l.touch ctx (r.hops.map fun h => nodeDie h.1)

/-- Opens a circuit on a record: its plan is admitted and its writes leave (R283). -/
def Live.admitCircuit (b : Boot) (l : Live) (n : Nat) (c : Circuit) (p : Plan) : Live :=
  let l := l.onCircuit n fun old => { c with gen := old.gen, st := 1, fwd := { p.fwd with slots := [] }, rev := { p.rev with slots := [] } }
  ((touchPath c.ctx p.rev (touchPath c.ctx p.fwd l))).startChange b n p.fslots p.rslots p.wins false

/-- NSLOT of a request (R289). -/
def reqSlots (v : Word) : Nat := wbits v 13 0
/-- MAXLAT of a request (R289). -/
def reqMaxlat (v : Word) : Nat := wbits v 31 16
/-- NWIN of a request (R289). -/
def reqWins (v : Word) : Nat := wbits v 39 32

/-- Injection slots as flits leave the last port of a route (R30, R281). -/
def Route.leave (w : Nat) (r : Route) (slots : List (Nat × Nat)) : List (Nat × Nat) := slots.map fun ps => (ps.1, (ps.2 + r.latency - 1) % w)

/-- OFFSET of a Treco port (R47). -/
def Live.offset (l : Live) (port : Nat) : Nat := wbits (tget l.dev.links.trkwhl 0x20000 port) 9 0

/-- Slots of flits that left the far end of a Treco port as they reach this one (R30, R281). -/
def Live.fromPeer (b : Boot) (l : Live) (port : Nat) (slots : List (Nat × Nat)) : List (Nat × Nat) :=
  slots.map fun ps => (ps.1, (ps.2 + 1 + l.offset port) % b.wheel)

/-- The Treco port number of a path's end. -/
def Dest.treco : Dest → Nat
  | .gateway g p => 9 * g + (p - 26)
  | .cluster _ => 0

/-- A COPEN or an engine's request at the connection manager (R278 to R283). The entry is the one the table holds when the request is taken: without V, or
with a reserved KIND, there is no path to it; and a context that drains opens none (R349, assumption 23). -/
def Live.cmOpen (b : Boot) (l : Live) (r : Req) (ctl lim entry : Word) : Live :=
  let refuse := fun (l : Live) (res : Nat) => l.answerCm b r.id (BitVec.ofNat 64 (res * 2 ^ 59))
  match firstFrom 1 4095 fun n => (l.circuit n).st == 5 with
  | none => refuse l 6
  | some n =>
    let free := fun (l : Live) (res : Nat) => refuse (l.onCircuit n fun c => { c with gen := (c.gen + 1) % 65536 }) res
    let st := (l.dev.ctx r.ctx).st
    if st == 0 || st == 6 || st == 7 then free l 5
    else match (if entry.getLsbD 63 && decide (epKind entry < 4) then circuitEnd b l r.src entry else none) with
    | none => free l 3
    | some d =>
      let kind := epKind entry
      let far := epPkg entry != b.pkg && epPkg entry < 128
      let duplex := ctl.getLsbD 16 || kind == 1 || kind == 2
      match planCircuit b l r.src d (reqSlots lim) (wbits ctl 15 8) (ctl.getLsbD 17) (duplex && !far) (reqMaxlat lim) (reqWins lim) with
      | .error e => free l e
      | .ok p =>
        let c : Circuit := { ctx := r.ctx, src := r.src, ep := wbits ctl 5 0, entry, planes := wbits ctl 15 8, duplex, even := ctl.getLsbD 17, maxlat := reqMaxlat lim, answer := some r.id, peer := if far then some (l.turn b) else none }
        let l := l.onReq r.id fun q => { q with stage := .queued }
        let l := l.admitCircuit b n c p
        if far then l.map fun x => { x with out := x.out ++
          [.peer (epPkg entry) n (.plan r.ctx entry (p.fwd.leave b.wheel p.fslots) (wbits ctl 15 8) (reqWins lim) (ctl.getLsbD 17) duplex)] } else l

/-- The end of a circuit's forward part on this package. -/
def Circuit.end_ (c : Circuit) : Dest :=
  match c.fwd.hops.getLast? with
  | some x => if x.1 < 192 then .cluster x.1 else .gateway (x.1 - 192) x.2.1
  | none => .cluster c.src

/-- The pseudo-channels that a circuit's endpoint serves on this package (R280). -/
def Circuit.pcs (c : Circuit) : List Nat :=
  match c.end_ with
  | .gateway g p => if 12 ≤ p && p < 24 then portPcs g p else []
  | .cluster _ => []

/-- Resized slots of a part (R286): the first of those held, or all of them and more by first fit. -/
def Live.resized (b : Boot) (l : Live) (c : Circuit) (r : Route) (n : Nat) (also : List (Nat × Nat × Nat × Nat)) : List (Nat × Nat) :=
  if n ≤ r.slots.length then r.slots.take n else firstFit b (l.usedCells b ++ also) r n (l.allowedPlanes c.end_ c.planes) c.even r.slots

/-- A CRESIZE at the connection manager (R283, R286). -/
def Live.cmResize (b : Boot) (l : Live) (r : Req) (n : Nat) (h lim : Word) : Live :=
  let c := l.circuit n
  let answer := fun (l : Live) (res : Nat) => l.answerCm b r.id (setBits h 59 4 res)
  if c.st != 2 || c.gen != handleGen h || c.ctx != r.ctx then answer l 5
  else
    let ns := reqSlots lim
    let near := c.other.isNone
    let fits := fun (f v : List (Nat × Nat)) => latencyOk b.wheel (reqMaxlat lim) c.fwd f c.far && (!c.duplex || latencyOk b.wheel (reqMaxlat lim) c.rev v c.rfar)
    if ns == c.fwd.slots.length && (!near || reqWins lim * c.pcs.length == c.wins.length) then answer l (if fits c.fwd.slots c.rev.slots then 0 else 2)
    else
      let fs := l.resized b c c.fwd ns []
      let rs := if !c.duplex || !near then c.rev.slots else l.resized b c c.rev ns (c.fwd.cells b.wheel fs)
      let wins := l.pickWins b c.pcs (reqWins lim) c.wins
      if fs.length < ns || (c.duplex && near && decide (rs.length < ns)) then answer l 1
      else if !fits fs rs then answer l 2
      else if wins.length < reqWins lim * c.pcs.length then answer l 7
      else
        let l := l.onReq r.id fun q => { q with stage := .queued }
        let l := l.onCircuit n fun c => { c with st := 3, answer := some r.id, maxlat := reqMaxlat lim, peer := if near then none else some (l.turn b) }
        ((l.copyState n 3 0).startChange b n fs rs wins false).tellPeer n (.resize (c.fwd.leave b.wheel fs) (reqWins lim))

/-- A change of some circuit has not had its switch turn; the connection manager takes the next one then (R278, assumption 22). -/
def Live.changing (l : Live) : Bool := l.dev.circuits.any fun e => e.2.change.isSome

/-- A CCLOSE at the connection manager (R283, R287). -/
def Live.cmClose (b : Boot) (l : Live) (r : Req) (n : Nat) (h : Word) : Live :=
  let c := l.circuit n
  let closed := fun (res : Nat) => setBits (setBits h 59 4 res) 63 1 0
  if c.gen != handleGen h || c.ctx != r.ctx || c.st == 5 || c.st == 4 then l.answerCm b r.id (closed 5)
  else if c.st == 6 then (l.releaseCircuit b n).answerCm b r.id (closed 0)
  else
    let l := l.onReq r.id fun q => { q with stage := .queued }
    let l := l.onCircuit n fun c => { c with st := 4, answer := some r.id }
    ((l.copyState n 4 0).startChange b n [] [] [] true).tellPeer n (.close false)

/-- The absolute slot at which a circuit request that is not yet taken reached the connection manager (R278, R284). -/
def Live.cmTime (l : Live) (r : Req) : Option Nat :=
  match r.kind with
  | .circuit _ _ _ _ _ _ => if r.stage == .home then some r.since else if r.stage == .going then (l.atEnd r.id false).map Msg.ready else none
  | _ => none

/-- The circuit that a CRESIZE or CCLOSE names. -/
def ReqKind.circuitOf : ReqKind → Option Nat
  | .circuit op _ _ cnum _ _ => if op == 1 || op == 2 then some cnum else none
  | _ => none

/-- A request is held until its circuit, in ADMITTED or RESIZING, is ACTIVE (R283). -/
def Live.cmHeld (l : Live) (k : ReqKind) : Bool :=
  match k with
  | .circuit op a _ cnum _ _ => (op == 1 || op == 2) && (let c := l.circuit cnum; (c.st == 1 || c.st == 3) && c.gen == handleGen a)
  | _ => false

/-- A request that reached the connection manager earlier is taken first (R278); one that is held bars those on its own circuit only (R283, R284). -/
def Live.cmBehind (l : Live) (r : Req) : Bool :=
  match l.cmTime r with
  | none => true
  | some t => l.dev.reqs.any fun q => (l.cmTime q).any fun u =>
      (decide (u < t) || (u == t && decide (q.id < r.id))) && (!l.cmHeld q.kind || q.kind.circuitOf == r.kind.circuitOf)

/-- A request starts a change of the tables; the connection manager takes it when none is under way (assumption 22). -/
def Live.cmChanges (l : Live) (k : ReqKind) : Bool :=
  match k with
  | .circuit op _ _ cnum _ _ => (op != 1 && op != 2) || (l.circuit cnum).st == 2 || (l.circuit cnum).st == 6
  | _ => false

/-- CM_REQUEST (R278 to R287): the connection manager takes a request, in the order in which they reached it; one that needs a switch waits until none is
under way. -/
def execCmRequest (req : Nat) (s : State) : Host.Outcome State Fault Refusal :=
  event s fun b l =>
    match l.req? req with
    | none => l
    | some r =>
      if l.dev.cmDown || l.cmBehind r || l.cmHeld r.kind || (l.changing && l.cmChanges r.kind) then l
      else match r.kind, l.reach r with
      | .circuit op a lim cnum _ job, some l =>
        let r := { r with stage := .home }
        match op with
        | 0 => l.cmOpen b r a lim (l.endpoint r.ctx r.src (wbits a 5 0))
        | 1 => l.cmResize b r cnum a lim
        | 2 => l.cmClose b r cnum a
        | _ => match l.job? job with
          | some j => l.cmOpen b r a lim (l.endpoint r.ctx (j.core / 8) (wbits a 5 0))
          | none => l.answerCm b req (BitVec.ofNat 64 (3 * 2 ^ 59))
      | _, _ => l

/-- A resize is given up (R281): its writes are undone, the circuit is as it was, and the request is answered. -/
def Live.undoResize (b : Boot) (l : Live) (n res : Nat) : Live :=
  let c := l.circuit n
  let l := (l.answerChange b n res true).giveBack b n c.fwd.slots c.rev.slots c.wins
  (l.onCircuit n fun c => { c with st := 2, change := none, peer := none }).copyState n 2 0

/-- A half that this package planned with a peer is refused or given up (R281): an opened circuit is withdrawn, a resize undone. -/
def Live.refusePeer (b : Boot) (l : Live) (n res : Nat) : Live :=
  if (l.circuit n).st == 3 then (l.tellPeer n .undo).undoResize b n res else (l.answerChange b n res false).releaseCircuit b n

/-- Writes of a change for a part: entries added and entries removed. -/
def Route.diffWrites (w : Nat) (r : Route) (old new : List (Nat × Nat)) : List (Nat × Nat × Nat × Nat × Byte) :=
  r.writes w (new.filter fun x => !old.contains x) true ++ r.writes w (old.filter fun x => !new.contains x) false

/-- The peer accepts (R281, R282): MAXLAT is tested over both halves, and a duplex circuit's reverse part goes on from the Treco port. -/
def Live.peerAccepts (b : Boot) (l : Live) (n lat : Nat) (rslots : List (Nat × Nat)) (rlat : Nat) : Live :=
  let c := l.circuit n
  let fs := (c.change.map Change.fwd).getD []
  let port := c.end_.treco
  if !latencyOk b.wheel c.maxlat c.fwd fs lat then l.refusePeer b n 2
  else
    let l := l.onCircuit n fun c => { c with far := lat }
    if !c.duplex then l.nameTurn b n
    else
      let rs := l.fromPeer b port rslots
      let routes := if c.st == 3 then [some c.rev] else [reverseRoute b l c.src c.end_ false, reverseRoute b l c.src c.end_ true]
      let used := l.usedCells b
      match routes.find? fun r => r.any fun r => (rs.filter fun x => !c.rev.slots.contains x).all fun ps => slotFits b used r ps.1 ps.2 with
      | some (some r) =>
        if !latencyOk b.wheel c.maxlat r rs (rlat + l.offset port) then l.refusePeer b n 2
        else
          let l := l.onCircuit n fun c => { c with rev := { r with slots := c.rev.slots }, rfar := rlat + l.offset port, change := c.change.map fun ch => { ch with rev := rs } }
          ((touchPath c.ctx r l).sendWrites b n (r.diffWrites b.wheel c.rev.slots rs) []).nameTurn b n
      | _ => l.refusePeer b n (if routes.all Option.isNone then 3 else 1)

/-- The far half of a circuit from a peer package (R280, R281): RES, or the plan. -/
def Live.planFar (b : Boot) (l : Live) (port : Nat) (entry : Word) (slots : List (Nat × Nat)) (planes nwin : Nat) (even duplex : Bool) : Except Nat Plan :=
  let node := 192 + port / 9 % 4
  match circuitEnd b l node entry with
  | none => .error 3
  | some d =>
    let used := l.usedCells b
    let routes := [true, false].filterMap fun x => mkRoute b l (standingRoute (nodeEnd node) none d none x) d.node d.port (26 + port % 9)
    let fs := l.fromPeer b port slots
    match routes.find? fun r => fs.all fun ps => slotFits b used r ps.1 ps.2 with
    | none => .error (if routes.isEmpty then 3 else 1)
    | some f =>
      let wins := match d with
        | .gateway g q => if 12 ≤ q && q < 24 then l.pickWins b (portPcs g q) nwin [] else []
        | .cluster _ => []
      let short := match d with
        | .gateway _ q => 12 ≤ q && q < 24 && decide (wins.length < 16 * nwin)
        | .cluster _ => false
      if short then .error 7
      else if !duplex then .ok ⟨f, {}, fs, [], wins⟩
      else match planPart b (used ++ f.cells b.wheel fs) [farReverse b l d port false, farReverse b l d port true] fs.length
          (l.allowedPlanes (.gateway (port / 9 % 4) (26 + port % 9)) planes) even 0 0 3 with
        | .error e => .error e
        | .ok (r, rs) => .ok ⟨f, r, fs, rs, wins⟩

/-- A peer's plan or resize at this connection manager (R281). -/
def Live.peerPlan (b : Boot) (l : Live) (p : PeerRequest) : Live :=
  let say := fun (l : Live) (k : PeerKind) => l.map fun d => { d with out := d.out ++ [.peer p.pkg p.cnum k] }
  let no := fun (res : Nat) => PeerKind.answer res 0 0 [] 0
  match p.kind with
  | .plan ctx entry slots planes nwin even duplex =>
    match firstFrom 1 4095 fun n => (l.circuit n).st == 5, l.planFar b p.port entry slots planes nwin even duplex with
    | none, _ => say l (no 6)
    | some _, .error e => say l (no e)
    | some n, .ok q =>
      let c : Circuit := { ctx, src := 192 + p.port / 9 % 4, entry, planes, duplex, even, isFar := true, other := some (p.pkg, p.cnum, p.port) }
      say (l.admitCircuit b n c q) (.answer 0 n (l.offset p.port + q.fwd.latency) (q.rev.leave b.wheel q.rslots) q.rev.latency)
  | .resize slots nwin =>
    let n := p.cnum
    let c := l.circuit n
    let num := (c.other.map fun o => o.2.1).getD 0
    let port := (c.other.map fun o => o.2.2).getD 0
    let say := fun (l : Live) (k : PeerKind) => l.map fun d => { d with out := d.out ++ [.peer p.pkg num k] }
    let fs := l.fromPeer b port slots
    let used := l.usedCells b
    let rs := if c.duplex then l.resized b c c.rev fs.length (c.fwd.cells b.wheel fs) else []
    let wins := l.pickWins b c.pcs nwin c.wins
    if c.st != 2 then say l (no 5)
    else if !((fs.filter fun x => !c.fwd.slots.contains x).all fun ps => slotFits b used c.fwd ps.1 ps.2) || (c.duplex && decide (rs.length < fs.length)) then say l (no 1)
    else if wins.length < nwin * c.pcs.length then say l (no 7)
    else say ((l.onCircuit n fun c => { c with st := 3 }).startChange b n fs rs wins false)
      (.answer 0 n (l.offset port + c.fwd.latency) (c.rev.leave b.wheel rs) c.rev.latency)
  | _ => l

/-- CM_PEER_REQUEST (R281): the far half of a circuit is planned from the Treco port's slots on; or the peer answers, proposes a switch turn, or closes or
gives up its half. A message that starts a change waits until none is under way (assumption 22). -/
def execCmPeerRequest (p : PeerRequest) (s : State) : Host.Outcome State Fault Refusal :=
  event s fun b l =>
    let c := l.circuit p.cnum
    let own := (c.other.map Prod.fst) == some p.pkg
    let lone := fun (l' : Live) => if l.changing && c.change.isNone then l else l'
    if l.dev.cmDown then l
    else match p.kind with
    | .plan _ _ _ _ _ _ _ => if l.changing then l else l.peerPlan b p
    | .resize _ _ => if l.changing || !own then l else l.peerPlan b p
    | .answer res num lat rslots rlat =>
      if c.peer.isNone || (c.st != 1 && c.st != 3) then
        if res = 0 then l.map fun d => { d with out := d.out ++ [.peer p.pkg num (if own then .undo else .close true)] } else l
      else if res != 0 then (l.onCircuit p.cnum fun c => { c with peer := none }).refusePeer b p.cnum 4
      else (l.onCircuit p.cnum fun c => { c with peer := none, other := some (p.pkg, num, c.end_.treco) }).peerAccepts b p.cnum lat rslots rlat
    | .turn n => if own then (l.onChange p.cnum fun ch => { ch with theirs := some n }).nameTurn b p.cnum else l
    | .close false =>
      if !own || c.st == 4 || c.st == 5 then l
      else if c.st == 6 then lone ((l.onCircuit p.cnum fun c => { c with other := none }).releaseCircuit b p.cnum)
      else if l.changing then l
      else (((l.onCircuit p.cnum fun c => { c with st := 4 }).copyState p.cnum 4 0).startChange b p.cnum [] [] [] true)
    | .close true =>
      if !own || c.st == 5 then l
      else lone ((l.onCircuit p.cnum fun c => { c with other := none }).releaseCircuit b p.cnum)
    | .undo => if own && c.st == 3 then l.undoResize b p.cnum 4 else l
    | .failed fcause => if own then l.failCircuit b p.cnum fcause else l

/-- CM_PEER_TIMEOUT (R281): no answer within 1,000 turns; the writes are withdrawn and the request is refused with RES 4. -/
def execCmPeerTimeout (cnum : Nat) (s : State) : Host.Outcome State Fault Refusal :=
  event s fun b l =>
    match (l.circuit cnum).peer with
    | none => l
    | some t => ((l.reachTime b (t + 1000) 0).onCircuit cnum fun c => { c with peer := none }).refusePeer b cnum 4

/-- LINK_FAIL (R290). -/
def execLinkFail (node port cause : Nat) (s : State) : Host.Outcome State Fault Refusal :=
  event s fun b l => l.failLink b node port cause

/-- The way of a message when routes have been recomputed (R290): one that crosses a failed link goes on from where it is by the new route; a message of which
flits have left keeps the link they took. -/
def Live.reroute (b : Boot) (l : Live) (m : Msg) : Msg :=
  if m.path.all (fun h => linkOk b l h.1 h.2) then m
  else if m.sent = 0 then { m with path := relayRoute b l (nodeEnd m.node) (if m.came.isNone then m.srcHome else none) m.dest m.home }
  else match m.path with
    | [] => m
    | h :: _ => { m with path := h :: relayRoute b l (nodeEnd ((farEnd h.1 h.2).getD m.node)) none m.dest m.home }

/-- ROUTE_RECOMPUTE (R290): firmware computes routes around the links that have failed, and messages whose way crosses one take them from where they are. -/
def execRouteRecompute (s : State) : Host.Outcome State Fault Refusal :=
  event s fun b l =>
    let l := l.map fun d => { d with links := { d.links with routed := d.links.failed } }
    l.map fun d => { d with msgs := d.msgs.map (l.reroute b) }

/-- The circuit trap of R289. -/
def circuitTrap (l : Live) (d : Nat) : Out := .trap l 0xC0 d 0

/-- Bits of COPEN's control word that are reserved (R289). -/
def copenReserved (v : Word) : Bool := wbits v 7 6 != 0 || wbits v 63 18 != 0
/-- Bits of the limits word that are reserved, and its ranges (R289). -/
def limitsBad (v : Word) : Bool := wbits v 15 14 != 0 || wbits v 63 40 != 0 || reqSlots v == 0 || 8192 < reqSlots v || 88 < reqWins v

/-- The route of a circuit request to the connection manager (R278). -/
def cmPath (b : Boot) (l : Live) : List (Nat × Nat) := relayRoute b l (nodeEnd l.myCluster) none (.gateway 1 38) none

/-- Sends a circuit request; its register's presence bit is cleared (R289). -/
def sendCm (b : Boot) (l : Live) (op : Nat) (a lim : Word) (cnum dst : Nat) : Out :=
  match l.sendBlocked l.th.ctx (.gateway 1 38) (cmPath b l) with
  | some (n, p) => .park l (.relay n p)
  | none =>
    let t := l.th
    let r := l.addReq fun id => { id, kind := .circuit op a lim cnum dst 0, tid := l.dev.cur, ctx := t.ctx, pc := t.pc, va := 0, cls := .plain, stage := .going, src := l.myCluster, dest := .gateway 1 38 }
    let l := r.2.send b t.ctx r.1 false (nodeEnd l.myCluster) none (.gateway 1 38) none 1
    .done (l.map fun d => d.clearPresent d.cur dst)

/-- The source NI's record that a handle names (R277, R289). -/
def Live.copyOf (l : Live) (h : Word) : Option NiCopy :=
  if !h.getLsbD 63 || wbits h 7 0 != l.myCluster then none
  else match tfind l.dev.copies (handleCnum h) with
    | none => none
    | some c => if c.gen == handleGen h && c.ctx == l.th.ctx && c.cluster == l.myCluster then some c else none

/-- Bits of a circuit handle that are reserved (R277). -/
def handleReserved (h : Word) : Bool := wbits h 58 56 != 0 || wbits h 39 32 != 0 || wbits h 19 14 != 0

/-- COPEN (R289). -/
def execCopen (x : Ext) (s : State) : Host.Outcome State Fault Refusal :=
  instrX s x [x.d, x.a, x.b] [] fun b l =>
    let a := l.g x.a
    let v := l.g x.b
    let e := l.endpoint l.th.ctx l.myCluster (wbits a 5 0)
    if copenReserved a || limitsBad v then circuitTrap l 1
    else if !e.getLsbD 63 || 4 ≤ epKind e then circuitTrap l 3
    else if reqWins v != 0 && epKind e != 1 then circuitTrap l 1
    else if 64 ≤ (l.dev.copies.filter fun c => c.2.cluster == l.myCluster).length +
        (l.dev.reqs.filter fun r => r.src == l.myCluster && (match r.kind with
          | .circuit 0 _ _ _ _ _ => r.stage != .back
          | _ => false)).length then circuitTrap l 4
    else sendCm b l 0 a v 0 x.d.toNat

/-- CRESIZE (R289). -/
def execCresize (x : Ext) (s : State) : Host.Outcome State Fault Refusal :=
  instrX s x [x.a, x.b] [] fun b l =>
    let h := l.g x.a
    let v := l.g x.b
    if limitsBad v || handleReserved h then circuitTrap l 1
    else match l.copyOf h with
      | none => circuitTrap l 2
      | some c =>
        if reqWins v != 0 && epKind (l.endpoint c.ctx c.cluster c.ep) != 1 then circuitTrap l 1
        else sendCm b l 1 h v (handleCnum h) x.a.toNat

/-- CCLOSE (R289). -/
def execCclose (x : Ext) (s : State) : Host.Outcome State Fault Refusal :=
  instrX s x [x.a] [] fun b l =>
    let h := l.g x.a
    if handleReserved h then circuitTrap l 1
    else match l.copyOf h with
      | none => circuitTrap l 2
      | some _ => sendCm b l 2 h 0 (handleCnum h) x.a.toNat

/-- CQUERY (R289): the source NI's copy. -/
def execCquery (x : Ext) (s : State) : Host.Outcome State Fault Refusal :=
  instrX s x [x.d, x.a] [] fun b l =>
    let h := l.g x.a
    if handleReserved h then circuitTrap l 1
    else match l.copyOf h with
      | none => circuitTrap l 2
      | some c => .done (l.setG x.d (BitVec.ofNat 64
          (c.st * 2 ^ 60 + c.fcause * 2 ^ 56 + c.slots.length * 2 ^ 32 + c.lat * 2 ^ 16 + maxGap b.wheel c.slots)))

/-- CIRCUIT_ANSWER (R278, R289, R304): the answer writes the register and sets its presence bit, or reaches the engine that asked. -/
def execCircuitAnswer (req : Nat) (s : State) : Host.Outcome State Fault Refusal :=
  event s fun b l =>
    match l.req? req with
    | none => l
    | some r =>
      match r.kind, l.reachBack r with
      | .circuit op _ _ _ dst job, some l =>
        if r.reported then l else
        let l := l.dropReq req
        if op == 9 then
          if r.out.getLsbD 63 then l.onJob job fun j => { j with cnum := handleCnum r.out }
          else l.failRest b job 0x81 (wbits r.out 62 59)
        else if (l.dev.thread r.tid).st != .free && (l.dev.thread r.tid).ctx == r.ctx then l.map fun d => d.setG r.tid dst r.out else l
      | _, _ => l

/-- RTRSTAT_WRITE (R291): a write of MISR or CFGDROP clears it, NOSW clears where a 1 is written. -/
def writeRtrstat (l : Live) (node : Nat) (v : Word) : Live :=
  l.onRtrstat node fun w => if v.getLsbD 32 then 0 else w &&& (1#64 <<< 32)

/-- RTRSTAT_WRITE (R291). -/
def execRtrstatWrite (node : Nat) (v : Word) (s : State) : Host.Outcome State Fault Refusal :=
  event s fun _ l => writeRtrstat l node v

end Sys2Proof.Machine
end

