-- ==== Sys2Proof/Machine/Page.lean ====
section
/-!
DEFINITION. The translation instructions, the walker, and what becomes of pages (21_page.md).
-/

namespace Sys2Proof.Machine

/-- A privileged extended instruction: check 5 of R63 comes before the window check and the guard (R78). -/
def instrP (s : State) (x : Ext) (gs : List (BitVec 7)) (body : Boot → Live → Out) : Host.Outcome State Fault Refusal :=
  onLive s fun b l => finish b (Ext.len x) (
    if !l.privileged then .trap l 0x02 0 0
    else
      let is := gs.map BitVec.toNat
      checkWindows l is [] fun _ =>
        if (l.th.p x.pg.toNat != x.pn) then checkPresent l is fun _ => body b l else .done l)

/-- The page-table trap of a translation instruction (R388 to R391). -/
def pageTrap (l : Live) : Out := .trap l 0x49 0 0

/-- Installs a leaf in a core's TLB and, where asked, in the cluster's (R388). -/
def Live.installLeaf (l : Live) (core : Nat) (e : TlbEntry) (second : Bool) : Live :=
  let l := l.onCore core fun r => { r with tlb := tlbInstall r.tlb e 64 }
  if second then l.onCluster (core / 8) fun c => { c with tlb2 := tlbInstall c.tlb2 e 2048 } else l

/-- TLBW (R388). -/
def execTlbw (x : Ext) (s : State) : Host.Outcome State Fault Refusal :=
  instrP s x [x.a, x.b] fun b l =>
    let a := l.g x.a
    let pte := l.g x.b
    let big := a.getLsbD 0
    let ctx := l.coreCtx l.myCore
    if wbits a 63 48 != 0 || wbits a 15 2 != 0 || (big && wbits a 20 16 != 0) || !leafOk b (l.dev.ctx ctx).prot big pte || pteTier pte == 0 ||
        (big && pteAddr pte % 2097152 != 0) then pageTrap l
    else .done (l.installLeaf l.myCore { ctx, page := wbits a 47 16, big, pte } (a.getLsbD 1))

/-- The entries of a context that TLBI selects (R389). -/
def tlbiSelects (ctx page : Nat) (all : Bool) (e : TlbEntry) : Bool := if all then e.ctx == ctx else e.covers ctx (page * 65536)

/-- An access that an entry of the selected page may have translated is not yet performed (R389); a request of several granules counts for
every page, a single word for the 2 MiB round it. -/
def translatedPending (l : Live) (ctx page : Nat) (all : Bool) (here : Nat → Bool) : Bool :=
  l.dev.reqs.any fun r => r.ctx == ctx && here r.src && !r.performed && (match r.kind with
    | .mem _ _ => wbits r.va 63 61 == 0 && (all || wbits r.va 47 21 == page / 32)
    | .tile _ _ _ _ => true
    | .weights _ _ _ _ _ => true
    | .chunks _ _ _ _ _ _ _ _ _ _ => true
    | .piece _ _ => true
    | .operand _ => true
    | _ => false)

/-- The clusters of the package in which a context has cores (R389). -/
def Live.ctxClusters (l : Live) (ctx : Nat) : List Nat := ((l.dev.ctx ctx).attached.map fun a => a.1).foldl sinsert []

/-- A cluster of a TLBI comes to a step. -/
def Live.tlbiStep (l : Live) (req cluster step : Nat) : Live :=
  l.onReq req fun r => match r.kind with
    | .tlbi all page ws => { r with kind := .tlbi all page (ws.map fun w => if w.1 == cluster then (cluster, step) else w) }
    | _ => r

/-- A cluster of a TLBI has answered, or will not; with the last one the instruction completes (R389). -/
def Live.tlbiDone (l : Live) (req cluster : Nat) : Live :=
  match l.req? req with
  | none => l
  | some r => match r.kind with
    | .tlbi all page ws =>
      let rest := ws.filter fun w => w.1 != cluster
      if !rest.isEmpty then l.onReq req fun r => { r with kind := .tlbi all page rest }
      else match l.awaits r with
        | some next => (l.dropReq req).complete r.tid next
        | none => l.dropReq req
    | _ => l

/-- The message of a TLBI to a cluster sets out, as soon as the issuer's NI has room for it (R39, R40, R389). -/
def tlbiSend (b : Boot) (l : Live) (req cluster : Nat) : Live :=
  match l.req? req with
  | none => l
  | some r =>
    if (l.sendBlocked r.ctx (.cluster cluster) (relayRoute b l (nodeEnd r.src) none (.cluster cluster) none)).isSome then l
    else (l.tlbiStep req cluster 0).send b r.ctx req false (nodeEnd r.src) none (.cluster cluster) none 1 (cluster + 1)

/-- TLBI (R389): a plain access; it completes when the entries are gone and the accesses they translated are performed. -/
def execTlbi (x : Ext) (s : State) : Host.Outcome State Fault Refusal :=
  instrP s x [x.a] fun b l =>
    let a := l.g x.a
    let all := a.getLsbD 63
    let scope := (x.lit.getD (x.imm.setWidth 64)).toNat
    let ctx := l.coreCtx l.myCore
    let page := wbits a 47 16
    if 3 ≤ scope then .trap l 0x01 3 0
    else if wbits a 62 48 != 0 || wbits a 15 0 != 0 then pageTrap l
    else waitOrder l false fun _ =>
      let l := if scope == 0 then l.flushCore l.myCore (tlbiSelects ctx page all) else l.flushCluster l.myCluster (tlbiSelects ctx page all)
      let own := translatedPending l ctx page all (· == l.myCluster)
      let others := if scope == 2 then (l.ctxClusters ctx).filter (· != l.myCluster) else []
      let waiting := others.map (·, 3) ++ if own then [(l.myCluster, 1)] else []
      if waiting.isEmpty then .done l
      else
        let r := l.addReq fun id => { l.newReq (.tlbi all page waiting) .plain 0 (.cluster l.myCluster) id with ctx, stage := .home }
        .wait (others.foldl (fun l c => tlbiSend b l r.1 c) r.2) (.request r.1)

/-- What a cluster does for a TLBI (R389): it takes the message and removes its entries, and once the accesses they translated are performed it replies. -/
def tlbiServe (b : Boot) (l : Live) (r : Req) (cluster step page : Nat) (all : Bool) : Live :=
  let served := fun (l : Live) =>
    if translatedPending l r.ctx page all (· == cluster) then l
    else if cluster == r.src then l.tlbiDone r.id cluster
    else (l.tlbiStep r.id cluster 2).send b r.ctx r.id true (.cluster cluster) none (nodeEnd r.src) none 1 (cluster + 1)
  match step with
  | 3 => tlbiSend b l r.id cluster
  | 0 => match l.atEndOf r.id (cluster + 1) false false with
    | some m => served (((l.takeMsg m).flushCluster cluster (tlbiSelects r.ctx page all)).tlbiStep r.id cluster 1)
    | none => l
  | 1 => served l
  | _ => l

/-- TLBI_REMOTE (R389): a cluster of a TLBI goes on. -/
def execTlbiRemote (req cluster : Nat) (s : State) : Host.Outcome State Fault Refusal :=
  event s fun b l =>
    match l.req? req with
    | none => l
    | some r =>
      match r.kind with
      | .tlbi all page waiting => match waiting.find? fun w => w.1 == cluster with
        | some w => tlbiServe b l r cluster w.2 page all
        | none => l
      | _ => l

/-- TLBP (R390). -/
def execTlbp (x : Ext) (s : State) : Host.Outcome State Fault Refusal :=
  instrP s x [x.d, x.a] fun _ l =>
    let a := l.g x.a
    let ctx := l.coreCtx l.myCore
    let va := wbits a 47 16 * 65536
    if wbits a 63 48 != 0 || wbits a 15 0 != 0 then pageTrap l
    else
      let h1 := (l.dev.core l.myCore).tlb.find? fun e => e.covers ctx va
      let h2 := (l.dev.cluster l.myCluster).tlb2.find? fun e => e.covers ctx va
      let image := match h1.or h2 with
        | none => 0
        | some e => (e.pte &&& ~~~(0xFF : Word)) ||| (if h1.isSome then 1 else 0) ||| (if h2.isSome then 2 else 0) ||| (if e.big then 4 else 0)
      .done (l.setG x.d image)

/-- The head of a core's mailbox (R385). -/
def Live.headMiss (l : Live) (core : Nat) : Option Miss := (l.dev.core core).misses.find? fun m => m.arrived

/-- Takes a miss out of a core's mailbox. -/
def Live.dropMiss (l : Live) (core : Nat) (m : Miss) : Live :=
  l.onCore core fun r => { r with misses := r.misses.filter fun x => !(x.slot == m.slot && x.job == m.job) }

/-- The installed entries cover a virtual address of a core's context (R383). -/
def Live.covered (l : Live) (core va : Nat) : Bool :=
  let ctx := l.coreCtx core
  (l.dev.core core).tlb.any (fun e => e.covers ctx va) || (l.dev.cluster (core / 8)).tlb2.any fun e => e.covers ctx va

/-- The items of a job that wait for its miss go on; a STALLED job is RUNNING again (R295, R391). -/
def restartJob (l : Live) (job : Nat) : Live :=
  l.onJob job fun j => { j with st := if j.st == 2 then 1 else j.st, items := j.items.map fun i => { i with waiting := false } }

/-- The waiting item of a job fails with a cause, and the job goes on (R295, R296, R391). -/
def failWaiting (l : Live) (job cause va : Nat) : Live :=
  l.onJob job fun j => { j with st := if j.st == 2 then 1 else j.st, items := j.items.map fun i =>
    if i.waiting then { i with waiting := false, fail := some (i.fail.getD (cause, 0, i.missAddr (itemBytes j) va)) } else i }

/-- Answers a miss FAULT: the waiting thread traps, or the job item fails (R391). -/
def answerFault (b : Boot) (l : Live) (core : Nat) (m : Miss) (cause : Nat) : Live :=
  let l := l.dropMiss core m
  if m.job != 0 then failWaiting l m.job cause m.va
  else
    let tid := core * 64 + m.slot
    match (l.dev.thread tid).st with
    | .parked .tlb => takeTrap b tid cause 0 0 0 (l.dev.thread tid).pc (BitVec.ofNat 64 m.va) 0 none l
    | _ => l

/-- Answers the head DONE: every miss of the core that is covered now is answered; the head's waiter posts its miss again if it is not
(R391). -/
def answerDone (l : Live) (core : Nat) (head : Miss) : Live :=
  let wake := fun (l : Live) (m : Miss) =>
    if m.job != 0 then restartJob (l.dropMiss core m) m.job
    else
      let tid := core * 64 + m.slot
      (l.dropMiss core m).onThread tid fun t => match t.st with
        | .parked .tlb => { t with st := .ready }
        | _ => t
  let l := ((l.dev.core core).misses.filter fun m => l.covered core m.va).foldl wake l
  if (l.headMiss core).isSome then
    (l.dropMiss core head).onCore core fun r => { r with misses := r.misses ++ [{ head with arrived := false }] }
  else l

/-- Answers the head DEFER (R391): due after so many turns; its job is STALLED. -/
def answerDefer (b : Boot) (l : Live) (core : Nat) (m : Miss) (delay : Nat) : Live :=
  let l := (l.dropMiss core m).onCore core fun r => { r with misses := r.misses ++ [{ m with arrived := false, defers := m.defers + 1, due := some (l.turn b + delay) }] }
  if m.job != 0 then l.onJob m.job fun j => if j.st == 1 then { j with st := 2 } else j else l

/-- WALKRET (R391): answers the head miss and waits for the next. -/
def execWalkret (x : Ext) (s : State) : Host.Outcome State Fault Refusal :=
  instrP s x [x.a] fun b l =>
    let a := l.g x.a
    let cause := wbits a 15 8
    let core := l.myCore
    match l.headMiss core with
    | none => pageTrap l
    | some m =>
      if wbits a 63 48 != 0 || wbits a 7 2 != 0 then pageTrap l
      else match wbits a 1 0 with
        | 0 => .wait (answerDone l core m) .walk
        | 1 => if [0x48, 0x49, 0x4A, 0x4C].contains cause then .wait (answerFault b l core m cause) .walk else pageTrap l
        | 2 => .wait (answerDefer b l core m (wbits a 47 16)) .walk
        | _ => pageTrap l

/-- What the walker firmware answers a miss with (R387): the leaf to install, the answer, and a cause. -/
inductive Answer where
  | done (install : Option TlbEntry)
  | fault (cause : Nat)
  | defer
  /-- a job waits for a page that is not present -/
  | absent
deriving DecidableEq, Repr

/-- R387, its first row that applies, by the tables that the core's PTROOT names (R382). -/
def walkerAnswer (b : Boot) (l : Live) (core ctx : Nat) (m : Miss) : Answer :=
  match walkFrom b l.mem (l.dev.ctx ctx).prot (wbits (l.dev.core core).ptroot 51 14 * 16384) m.va with
  | .unmapped => .fault 0x48
  | .bad => .fault 0x49
  | .leaf pte big =>
    let job := m.kind == 3 || m.kind == 4
    let entry : TlbEntry := { ctx, page := if big then m.va / 2097152 * 32 else m.va / 65536, big, pte }
    if pteTier pte == 0 then (if job then .absent else .fault 0x4A)
    else if pteM pte then (if job || m.kind == 1 then .defer else .done (some entry))
    else .done (some entry)

/-- One pass of the walker firmware from its entry (R387): it reads the head miss and the tables, installs the leaf, and executes WALKRET,
with a delay of one turn when it defers (assumption 15). Whether it finds at once that it cannot make a page present, for want of a backing, of its copy or of
memory (R392), is a free choice. -/
def walkerPass (b : Boot) (l : Live) : Live :=
  let core := l.myCore
  let wait := fun (l : Live) => l.onTh fun t => { t with flight := .walk Config.walkerEntry }
  match l.headMiss core with
  | none => wait l
  | some m =>
    let ctx := l.coreCtx core
    match walkerAnswer b l core ctx m with
    | .fault c => wait (answerFault b l core m c)
    | .defer => wait (answerDefer b l core m 1)
    | .absent =>
      let c := l.choose 2
      wait (if c.1 == 0 then answerDefer b c.2 core m 1 else answerFault b c.2 core m 0x4C)
    | .done none => wait (answerDone l core m)
    | .done (some e) => wait (answerDone (l.installLeaf core e true) core m)

/-- WALKER_MISS_ARRIVE (R385, R391): the next miss in order reaches the head, and a waiting WALKRET completes. -/
def execWalkerMissArrive (core : Nat) (s : State) : Host.Outcome State Fault Refusal :=
  event s fun _ l =>
    let tid := core * 64 + 63
    match (l.dev.thread tid).flight, l.headMiss core, (l.dev.core core).misses.find? fun m => m.due.isNone with
    | .walk next, none, some m =>
      let l := l.onCore core fun r => { r with misses := { m with arrived := true } :: r.misses.filter fun x => !(x.slot == m.slot && x.job == m.job) }
      l.complete tid next
    | _, _, _ => l

/-- MISS_DEFER_EXPIRE (R385, R391): a deferred miss's delay runs out, and it is presented again after those that wait; one whose delay ran out earlier
goes first. -/
def execMissDeferExpire (core miss : Nat) (s : State) : Host.Outcome State Fault Refusal :=
  event s fun b l =>
    match (l.dev.core core).misses[miss]? with
    | none => l
    | some m =>
      match m.due with
      | some n =>
        if n ≤ l.turn b && (l.dev.core core).misses.all (fun x => x.due.all fun k => decide (n ≤ k)) then (l.dropMiss core m).onCore core fun r => { r with misses := r.misses ++ [{ m with due := none }] } else l
      | none => l

/-- WALKER_OVERDUE (R424): a miss that has not been answered for 1 ms fails with the walker-overdue cause; DEFER is an answer (R391). -/
def execWalkerOverdue (core miss : Nat) (s : State) : Host.Outcome State Fault Refusal :=
  event s fun b l =>
    match (l.dev.core core).misses[miss]? with
    | none => l
    | some m => if m.due.isSome then l else answerFault b l core m 0x5C

/-- The address of the leaf entry for a virtual address, and whether it is a 2 MiB leaf (R379). -/
def leafAt (b : Boot) (l : Live) (ctx va : Nat) : Option (Nat × Bool) :=
  match readPte b l.mem (wbits (l.dev.ctx ctx).ptroot 51 14 * 16384 + 8 * bitsAt va 47 37) with
  | none => none
  | some p1 =>
    if !pteV p1 then none
    else match readPte b l.mem (pteAddr p1 + 8 * bitsAt va 36 21) with
      | none => none
      | some p2 =>
        if !pteV p2 then none
        else if pteLeaf p2 then some (pteAddr p1 + 8 * bitsAt va 36 21, true)
        else some (pteAddr p2 + 8 * bitsAt va 20 16, false)

/-- Answers the deferred job misses of a context for a page (R392). -/
def answerDeferred (l : Live) (ctx va bytes : Nat) (f : Live → Nat → Miss → Live) : Live :=
  l.dev.cores.foldl (fun l e =>
    if wbits e.2.ctxnum 15 0 != ctx then l
    else (e.2.misses.filter fun m => m.job != 0 && m.due.isSome && m.va / bytes == va / bytes).foldl (fun l m => f l e.1 m) l) l

/-- A page's contents have come to a place: fetch sees them there from now on, for the page's arrival is no store to code (R62, R392). Where they came
from another place, fetch sees what it saw there. -/
def Live.moveCode (l : Live) (src : Option Nat) (dst bytes : Nat) : Live :=
  let within := fun (a : Nat) (c : Host.Cell) => decide (a ≤ c.1) && decide (c.1 < a + bytes)
  let seen := fun (code : List Host.Cell) => match src with
    | some a => (code.filter (within a)).map fun c => (c.1 - a + dst, c.2)
    | none => l.mem.cells.filter (within dst)
  let moved := fun (code : List Host.Cell) => code.filter (fun c => decide (c.1 < dst)) ++ seen code ++ code.filter fun c => decide (dst + bytes ≤ c.1)
  l.map fun d => { d with cores := d.cores.map fun e => (e.1, { e.2 with code := moved e.2.code }) }

/-- Two runs of bytes overlap. -/
def runsMeet (a n z m : Nat) : Bool := decide (a < z + m) && decide (z < a + n)

/-- A page's memory lies on a gateway die that has been lost: it is released only at the next cold boot (R349). -/
def Live.paLost (b : Boot) (l : Live) (pa : Nat) : Bool :=
  match paHome b pa with
  | some (.hbm pc) => l.dev.links.diesLost.contains (8 + pc / 64 / 3)
  | some (.lp ch) => l.dev.links.diesLost.contains (8 + ch / 32)
  | _ => false

/-- The lines of every Attic pool (R364). -/
def Live.poolLines (l : Live) : List Nat :=
  (l.dev.domains.flatMap fun d => d.2.free.flatMap Prod.snd) ++ l.dev.names.map fun e => e.2.pa

/-- A run of memory belongs to a context that a test selects. -/
def Live.pageTaken (l : Live) (p : Page) (which : Ctx → Bool) : Bool :=
  l.dev.ctxs.any fun e => which e.2 && e.2.pages.any fun q => runsMeet p.pa p.bytes q.pa q.bytes

/-- A run of bytes lies in a page that a context has been given (R332). -/
def Live.holdsPage (l : Live) (ctx pa n : Nat) : Bool := (l.dev.ctx ctx).pages.any fun q => decide (q.pa ≤ pa) && decide (pa + n ≤ q.pa + q.bytes)

/-- A line belongs to the pool of an Attic domain (R364). -/
def Live.poolHas (l : Live) (adom pa : Nat) : Bool :=
  ((tfind l.dev.domains adom).elim false fun d => d.free.any fun p => p.2.contains pa) || l.dev.names.any fun e => e.2.adom == adom && e.2.pa == pa

/-- The page that a new leaf of a context names (R332, R364, R392): of its windows, of its domain's pool, its own already, or one that firmware
takes from free memory, zero and FULL (assumption 103); none where it belongs elsewhere. -/
def Live.takePage (b : Boot) (l : Live) (ctx : Nat) (pte : Word) (big : Bool) : Option Live :=
  let pa := pteAddr pte
  let n := pageBytes big
  let ok := fun (c : Bool) => if c then some l else none
  if pteTier pte == 3 then ok ((List.range (n / 65536)).all fun i => l.ctxWindow ctx (bitsAt pa 29 22) (bitsAt pa 21 0 + 65536 * i))
  else if pteClass pte == 2 then ok (l.poolHas (l.dev.ctx ctx).adom pa)
  else if l.holdsPage ctx pa n then some l
  else if l.pageTaken { pa, bytes := n } (fun c => c.st != 0) || l.paLost b pa || l.poolLines.any fun a => runsMeet pa n a 128 then none
  else some ((l.write (.clean (pa / 16) (n / 16))).onCtx ctx fun c => { c with pages := c.pages ++ [{ pa, bytes := n }] })

/-- PAGE_FILL_DONE (R392): an absent page becomes present, and the deferred misses for it are answered DONE. -/
def execPageFillDone (ctx : Nat) (va pte : Word) (s : State) : Host.Outcome State Fault Refusal :=
  event s fun b l =>
    let v := wbits va 47 0
    match l.walk b ctx v, leafAt b l ctx v with
    | .leaf old big, some (a, _) =>
      if pteTier old != 0 || pteTier pte == 0 || !leafOk b (l.dev.ctx ctx).prot big pte then l
      else match l.takePage b ctx pte big with
        | none => l
        | some l => answerDeferred (((l.store a 8 pte.toNat).touchPa b ctx (pteAddr pte)).moveCode none (pteAddr pte) (pageBytes big)) ctx v (pageBytes big)
            fun l core m => restartJob (l.dropMiss core m) m.job
    | _, _ => l

/-- PAGE_FILL_TIMEOUT (R392): a fill exceeds the limit firmware has been given; the page is reported unresolvable (R295). -/
def execPageFillTimeout (ctx : Nat) (va : Word) (s : State) : Host.Outcome State Fault Refusal :=
  event s fun b l =>
    match l.walk b ctx (wbits va 47 0) with
    | .leaf pte big =>
      if !b.fillLimit || pteTier pte != 0 then l
      else answerDeferred l ctx (wbits va 47 0) (pageBytes big) fun l core m => failWaiting (l.dropMiss core m) m.job 0x4C m.va
    | _ => l

/-- Copies granules with their states and poison marks (R392). -/
def copyGranules (l : Live) (src dst : Nat) : Nat → Live
  | 0 => l
  | n + 1 =>
    let g := src + n
    let h := dst + n
    let l := l.store (h * 16) 16 (l.mem.read (g * 16) 16)
    let l := if l.mem.isFull h == l.mem.isFull g then l else l.setFull h (l.mem.isFull g)
    let l := if l.mem.isPoisoned h == l.mem.isPoisoned g then l else l.write (.poison h (l.mem.isPoisoned g))
    copyGranules l src dst n

/-- PAGE_MIGRATION_DONE (R392 to R394): the page's data, states and poison marks are at the new place, the new entry is written, old
entries are gone, the old homes wake the threads registered on the page's granules, and the old page is free. It waits for accesses to the old place. A
Strongroom or Attic page is never migrated (R351). -/
def execPageMigrationDone (ctx : Nat) (va pte : Word) (s : State) : Host.Outcome State Fault Refusal :=
  event s fun b l =>
    let v := wbits va 47 0
    match l.walk b ctx v, leafAt b l ctx v with
    | .leaf old big, some (a, _) =>
      if !pteM old || pteM pte || pteTier pte == 0 || pteClass old != 0 || pteClass pte != 0 || pteW old != pteW pte || !leafOk b (l.dev.ctx ctx).prot big pte ||
          translatedPending l ctx (v / 65536) false (fun _ => true) then l
      else match l.takePage b ctx pte big with
      | none => l
      | some l =>
        let g := pteAddr old / 16
        let n := pageBytes big / 16
        let l := l.onCtx ctx fun c => { c with pages := if pteAddr old == pteAddr pte then c.pages else c.pages.filter fun q => q != { pa := pteAddr old, bytes := pageBytes big } }
        let l := (((copyGranules l g (pteAddr pte / 16) n).store a 8 pte.toNat).touchPa b ctx (pteAddr pte)).moveCode (some (pteAddr old)) (pteAddr pte) (pageBytes big)
        let l := (List.range 192).foldl (fun l c => if (l.ctxClusters ctx).contains c then l.flushCluster c (fun e => e.covers ctx v) else l) l
        (l.putOwed b).wakeGranules b fun x => decide (g ≤ x) && decide (x < g + n)
    | _, _ => l

/-- REMAP_TABLE_ERROR (R395): the pseudo-channel is fenced, each of its granules is marked poisoned, and accesses queued there fail. -/
def execRemapTableError (pc : Nat) (s : State) : Host.Outcome State Fault Refusal :=
  event s fun b l =>
    if shas l.dev.links.fenced pc || !b.hasStack (pc / 64) then l
    else
      let l := l.onLinks fun k => { k with fenced := sinsert k.fenced pc }
      ((l.write (.channel pc)).failQueued b pc).hardRecord b 0 0x53 5 0 pc 0

/-- PSEUDO_CHANNEL_UNFENCE (R395): the table is rebuilt and verified; the data stays poisoned. -/
def execPseudoChannelUnfence (pc : Nat) (s : State) : Host.Outcome State Fault Refusal :=
  event s fun _ l => l.onLinks fun k => { k with fenced := serase k.fenced pc }

end Sys2Proof.Machine
end

