-- ==== Sys2Proof/Machine/Job.lean ====
section
/-!
DEFINITION. Meanings of the job instructions and of the steps of the copy units and collective engines (15_job.md).
-/

namespace Sys2Proof.Machine

/-- The job trap (R309). -/
def jobTrap (l : Live) (d : Nat) : Out := .trap l 0x80 d 0

/-- The next JID and EPOCH of a logical cluster (R293): the counter goes on past records of jobs that have not ended. -/
def drawJid (d : Dev) (k : Kernel) (lclu : Nat) : Option (Nat × Nat) :=
  let n := tget k.nextJid 0 lclu
  (firstFrom n 1024 fun m => !d.jobs.any fun e => e.2.ctx == k.ctx && e.2.knum == k.knum && e.2.lclu == lclu && e.2.jid == m % 1024 && !e.2.ended).map
    fun m => (m % 1024, (tget k.epochs 0 lclu + m / 1024) % 256)

/-- Draws a record and adds a job with it; the job that had the record before is gone, and its circuit with it (R293, R304). -/
def Live.addJob (b : Boot) (l : Live) (jid epoch : Nat) (j : Job) : Nat × Live :=
  let old := l.dev.jobs.filter fun e => e.2.ctx == j.ctx && e.2.knum == j.knum && e.2.lclu == j.lclu && e.2.jid == jid
  let l := old.foldl (fun l e => match (if e.2.cnum = 0 then none else tfind l.dev.circuits e.2.cnum) with
    | some c => l.sendOwn b e.2.ctx (192 + e.2.queue.eng) (.circuit 2 (c.handle e.2.cnum 0) 0 e.2.cnum 0 e.1) (.gateway 1 38) 1
    | none => l) l
  let n := l.newId
  let l := n.2.map fun d => { d with jobs := tput (d.jobs.filter fun e => !(old.map Prod.fst).contains e.1) n.1 { j with jid, epoch } }
  let l := l.map fun d => d.onKernel j.ctx j.knum fun q => { q with nextJid := tput q.nextJid j.lclu (jid + 1), epochs := tput q.epochs j.lclu epoch }
  (n.1, l.putRecord b n.1)

/-- The jobs of a context that stand in a named queue and have not ended (R302). -/
def namedJobs (d : Dev) (ctx cluster eng cqm : Nat) (cuq : Bool) : List Nat :=
  (d.jobs.filter fun e => e.2.ctx == ctx && !e.2.ended && !e.2.pending && e.2.st != 6 && (match e.2.queue with
    | .copy c => cuq && c == cluster
    | .coll g q => g == eng && cqm / 2 ^ q % 2 == 1)).map Prod.fst

/-- The fields of a COLL shape block (R304). -/
structure CollShape where
  sh : BitVec 512
deriving DecidableEq, Repr

/-- NB (R304). -/
def CollShape.nb (c : CollShape) : Nat := shapeField c.sh 0 4
/-- OP (R304). -/
def CollShape.op (c : CollShape) : Nat := shapeField c.sh 4 1
/-- RED (R304). -/
def CollShape.red (c : CollShape) : Nat := shapeField c.sh 5 1
/-- EFMT (R304). -/
def CollShape.efmt (c : CollShape) : Nat := shapeField c.sh 6 1
/-- P (R304). -/
def CollShape.p (c : CollShape) : Nat := shapeField c.sh 7 1
/-- RANK (R304). -/
def CollShape.rank (c : CollShape) : Nat := shapeField c.sh 8 1
/-- EPN (R304). -/
def CollShape.epn (c : CollShape) : Nat := shapeField c.sh 9 1
/-- CQ (R304). -/
def CollShape.cq (c : CollShape) : Nat := shapeField c.sh 10 1
/-- ENG (R304). -/
def CollShape.eng (c : CollShape) : Nat := shapeField c.sh 11 1
/-- NSLOT (R304). -/
def CollShape.nslot (c : CollShape) : Nat := shapeField c.sh 12 2
/-- PLANES (R304). -/
def CollShape.planes (c : CollShape) : Nat := shapeField c.sh 14 1
/-- RID (R304). -/
def CollShape.rid (c : CollShape) : Nat := shapeField c.sh 15 1
/-- TMO (R304). -/
def CollShape.tmo (c : CollShape) : Nat := shapeField c.sh 16 4
/-- Q, the bytes of a segment (R304). -/
def CollShape.q (c : CollShape) : Nat := c.nb / c.p
/-- Blocks of a segment (R305). -/
def CollShape.blocks (c : CollShape) : Nat := c.q / 512

/-- Ring flits that a job has to deal with (R305): its own first sends, and those that come. -/
def CollShape.flits (c : CollShape) : Nat := 8 * c.blocks * (1 + (c.p - 1) * (if c.op == 2 then 2 else 1))

/-- Steps 4 and 5 of R300 for a job of the issuing thread; name is CPYN's root name. -/
def enqueue (b : Boot) (l : Live) (kind : Nat) (dst : BitVec 7) (queue : JobQueue) (ga gb : Word) (shape : BitVec 512) (imm count : Nat)
    (name : BitVec 128) : Out :=
  match l.myKernel with
  | none => jobTrap l 1
  | some k =>
    let lclu := l.th.lclu
    let j : Job := { kind, ctx := k.ctx, knum := k.knum, owner := k.owner, lclu, jid := 0, epoch := 0, queue, core := l.myCore, ga, gb, shape, imm, count,
                     name := (name.setWidth 64, (name >>> 64).setWidth 64), ringDue := if kind == 5 then (CollShape.mk shape).flits else 0 }
    match queue with
    | .copy c =>
      match (if l.dev.copyRoom c l.myCore then drawJid l.dev k lclu else none) with
      | none => .park l (.jobSpace c lclu)
      | some (jid, epoch) =>
        let waits := if kind == 6 then namedJobs l.dev k.ctx c (bitsAt imm 17 16) (bitsAt imm 8 1) (imm % 2 == 1) else []
        let r := l.addJob b jid epoch { j with waits }
        let l := (r.2.onJob r.1 fun j => { j with seat := r.1 }).onCluster c fun u => { u with copyPtr := l.myCore % 8 }
        let l := if kind == 4 && name != 0 then l.sendOwn b k.ctx c (.attic 8 name 0 (BitVec.ofNat 128 r.1) 0 0 0) (engineDest (homeStack b name)) 1 else l
        match l.job? r.1 with
        | some j => .done (l.setG dst j.handle)
        | none => .done l
    | .coll eng _ =>
      let dest := Dest.gateway eng 37
      match drawJid l.dev k lclu with
      | none => .park l (.jobSpace 1000 lclu)
      | some (jid, epoch) =>
        match l.sendBlocked k.ctx dest (relayRoute b l (nodeEnd l.myCluster) none dest none) with
        | some (n, p) => .park l (.relay n p)
        | none =>
          let r := l.addJob b jid epoch { j with pending := true }
          sendReq b r.2 dest none 1 (l.newReq (.coll r.1 dst.toNat) .plain 0 dest) fun id l => .wait l (.request id)

/-- The check of a path that an enqueue names (R300). -/
def jobPath (l : Live) (a : Word) (ok : List Nat) (k : Unit → Out) : Out :=
  let p := wbits a 63 60
  if ok.contains p then k ()
  else .trap l (if p == 6 then 0x64 else if p == 14 && !l.privileged then 0x02 else 0x41) 0 a

/-- The read of an operand block that an enqueue has under way. -/
def Live.operandReq (l : Live) (a : Word) : Option Req :=
  l.dev.reqs.find? fun r => r.tid == l.dev.cur && r.ctx == l.myCtx && r.pc == l.th.pc && r.kind == .operand a

/-- Reads n bytes of an operand block at issue (R297, R300): at once, or granule by granule (R235). -/
def operandBlock (b : Boot) (l : Live) (a : Word) (n align : Nat) (k : Live → Nat → Out) : Out :=
  if a.toNat % align != 0 then .trap l 0x42 0 a
  else jobPath l a [0, 2] fun _ =>
    match (l.operandReq a).filter fun r => r.parts.all Part.done with
    | some r => match r.fail with
      | some (c, _, _) => .trap l c 0 a
      | none => k l (joinParts r.parts)
    | none => match locate b l l.myCore l.myCtx 0 0x60 a (granulesOf 0 n) [] with
      | .miss l va => parkTlb l va 0
      | .stop l _ c => .trap l c 0 a
      | .all l ps =>
        if l.dev.split then
          let r := l.addReq fun id => { l.newReq (.operand a) .plain a (.cluster l.myCluster) id with parts := ps, stage := .home }
          .wait r.2 (.request r.1)
        else if partsPoisoned l ps then .trap l 0x45 0 a else k l (readParts l ps)

/-- An enqueue keeps the operand blocks that it has read until it completes, parks or traps. -/
def endOperands (o : Out) : Out :=
  let drop := fun (l : Live) => l.map fun d => { d with reqs := d.reqs.filter fun r => !(r.tid == d.cur && (match r.kind with
    | .operand _ => true
    | _ => false)) }
  match o with
  | .done l => .done (drop l)
  | .park l p => .park (drop l) p
  | .trap l c d a => .trap (drop l) c d a
  | o => o

/-- The number of items of a copy job (R297, R301). -/
def copyCount (kind : Nat) (sh : BitVec 512) : Nat :=
  if kind == 0 || kind == 3 then shapeN1 sh * shapeN2 sh else shapeN1 sh

/-- The fields of a copy job's shape block lie in their ranges, and the unused ones are 0 (R297, R301). -/
def shapeOk (kind : Nat) (sh : BitVec 512) : Bool :=
  let n0 := 1 ≤ shapeN0 sh && shapeN0 sh ≤ 65536
  let z := fun i n => shapeField sh i n == 0
  let common := z 13 3
  match kind with
  | 0 => common && n0 && z 12 1
  | 3 => common && n0 && z 12 1 && z 48 8
  | 4 => common && z 0 4 && shapeN2 sh == 1 && z 12 1 && z 24 8 && z 32 8 && z 40 8 && z 48 8
  | _ => common && n0 && shapeN2 sh == 1 && shapeField sh 12 1 ≤ 1 && z 40 8

/-- A circuit handle of a shape block names an ACTIVE circuit of the context and the issuer's cluster, duplex where asked (R297, R309). -/
def circuitOk (l : Live) (h : Word) (duplex : Bool) : Bool :=
  h == 0 || (match l.copyOf h with
    | some c => c.st == 2 && (!duplex || (l.circuit (handleCnum h)).duplex)
    | none => false)

/-- CPYC's CHD (R301): it ends at the NI of the cluster that G[A] names. -/
def streamOk (b : Boot) (l : Live) (h ga : Word) : Bool :=
  h != 0 && (let e := (l.circuit (handleCnum h)).entry
    epKind e == 0 && epPkg e == b.pkg && epUnit e == wbits ga 29 22)

/-- An enqueue of a copy job (R297 to R301). -/
def copyEnqueue (x : Ext) (s : State) (kind : Nat) : Host.Outcome State Fault Refusal :=
  instrX s x [x.d, x.a, x.b, x.c] [] fun b l => waitOrder l false fun _ => endOperands <|
    let ga := l.g x.a
    let gb := l.g x.b
    operandBlock b l (l.g x.c) 64 64 fun l v =>
      let sh := BitVec.ofNat 512 v
      let chs : Word := sh.extractLsb' 384 64
      let chd : Word := sh.extractLsb' 448 64
      jobPath l ga (if kind == 3 then [3] else [0, 2, 3]) fun _ =>
        let rest := fun (l : Live) (name : BitVec 128) =>
          if !shapeOk kind sh then jobTrap l 2
          else if copyCount kind sh < 1 || 1048576 < copyCount kind sh then jobTrap l 3
          else if !circuitOk l chs true || !circuitOk l chd false || (kind == 3 && !streamOk b l chd ga) then jobTrap l 4
          else enqueue b l kind x.d (.copy l.myCluster) ga gb sh x.immZ.toNat (copyCount kind sh) name
        if kind == 4 then
          if l.adomOf l.myCtx == 0 then .trap l 0x6C 0 0
          else operandBlock b l gb 16 16 fun l v => rest l (BitVec.ofNat 128 v)
        else jobPath l gb (if kind == 3 then [2] else [0, 2, 3]) fun _ => rest l 0

/-- CPY (R300). -/
def execCpy (x : Ext) (s : State) : Host.Outcome State Fault Refusal := copyEnqueue x s 0
/-- CPYG (R300, R301). -/
def execCpyg (x : Ext) (s : State) : Host.Outcome State Fault Refusal := copyEnqueue x s 1
/-- CPYS (R300, R301). -/
def execCpys (x : Ext) (s : State) : Host.Outcome State Fault Refusal := copyEnqueue x s 2
/-- CPYC (R300, R301). -/
def execCpyc (x : Ext) (s : State) : Host.Outcome State Fault Refusal := copyEnqueue x s 3
/-- CPYN (R300, R301). -/
def execCpyn (x : Ext) (s : State) : Host.Outcome State Fault Refusal := copyEnqueue x s 4

/-- A COLL shape block keeps R304; the endpoint entry is that of EPN. -/
def collOk (c : CollShape) (entry : Word) : Bool :=
  2 ≤ c.p && c.p ≤ 64 && c.nb % (512 * c.p) == 0 && c.nb ≤ 536870912 && c.op ≤ 2 && c.red ≤ 2 &&
    [9, 10, 11, 2, 6].contains c.efmt && c.rank < c.p && c.epn < 64 && entry.getLsbD 63 && epKind entry == 3 && c.cq < 8 && c.eng < 4 &&
    1 ≤ c.nslot && c.nslot ≤ 8192 && shapeField c.sh 20 44 == 0

/-- The number of output blocks of a COLL job (R305). -/
def collCount (c : CollShape) : Nat := if c.op == 0 then c.blocks else c.nb / 512

/-- COLL (R300, R304). -/
def execColl (x : Ext) (s : State) : Host.Outcome State Fault Refusal :=
  instrX s x [x.d, x.a, x.b, x.c] [] fun b l => waitOrder l false fun _ => endOperands <|
    let ga := l.g x.a
    let gb := l.g x.b
    operandBlock b l (l.g x.c) 64 64 fun l v =>
      let c : CollShape := ⟨BitVec.ofNat 512 v⟩
      jobPath l ga [0] fun _ => jobPath l gb [0] fun _ =>
        if !collOk c (l.endpoint l.th.ctx l.myCluster c.epn) then jobTrap l 5
        else if !b.hasDie (8 + c.eng) then jobTrap l 6
        else if collCount c < 1 || 1048576 < collCount c then jobTrap l 3
        else enqueue b l 5 x.d (.coll c.eng c.cq) ga gb c.sh x.immZ.toNat (collCount c) 0

/-- QFENCE (R302). -/
def execQfence (x : Ext) (s : State) : Host.Outcome State Fault Refusal :=
  instrX s x [x.d] [] fun b l => waitOrder l false fun _ =>
    let v := x.immZ.toNat
    let eng := bitsAt v 17 16
    if !b.hasDie (8 + eng) then jobTrap l 6
    else enqueue b l 6 x.d (if v / 2 ^ 18 % 2 = 1 then .coll eng (bitsAt v 15 13) else .copy l.myCluster) 0 0 0 v 0 0

/-- What a job handle names (R293). -/
inductive Named where
  | invalid
  /-- a record that no job has drawn yet -/
  | blank
  | expired (word : Word)
  | job (id : Nat) (j : Job)
deriving DecidableEq, Repr

/-- The record of a job handle (R293). -/
def Live.named (l : Live) (h : Word) : Named :=
  match l.myKernel with
  | none => .invalid
  | some k =>
    if !h.getLsbD 63 || wbits h 61 58 != 0 || wbits h 39 10 != 0 || k.clusters.length ≤ wbits h 55 48 then .invalid
    else match l.jobOf k.ctx k.knum (wbits h 55 48) (wbits h 9 0) with
      | none => if wbits h 47 40 == 0 then .blank else .expired (7#64 <<< 61)
      | some (id, j) => if j.epoch == wbits h 47 40 then .job id j else .expired (setBits j.word0 61 3 7)

/-- The flags of a job reach STATUS (R303). -/
def Live.jobFlags (l : Live) (j : Job) : Live := l.setFlags (ofMflags j.flags)

/-- JWAIT (R303): it completes once the job and its begun items have ended. -/
def execJwait (x : Ext) (s : State) : Host.Outcome State Fault Refusal :=
  instrX s x [x.a] [] fun _ l =>
    match l.named (l.g x.a) with
    | .invalid => jobTrap l 1
    | .blank => .park l (.job (l.g x.a))
    | .expired _ => .done (match l.myKernel.bind fun k => l.jobOf k.ctx k.knum (wbits (l.g x.a) 55 48) (wbits (l.g x.a) 9 0) with
        | some e => l.jobFlags e.2
        | none => l)
    | .job _ j => if j.ended then .done (l.jobFlags j) else .park l (.job (l.g x.a))

/-- JPOLL (R303). -/
def execJpoll (x : Ext) (s : State) : Host.Outcome State Fault Refusal :=
  instrX s x [x.d, x.a] [] fun _ l =>
    match l.named (l.g x.a) with
    | .invalid => jobTrap l 1
    | .blank => .done (l.setG x.d 0)
    | .expired w => .done (l.setG x.d w)
    | .job _ j =>
      let l := l.setG x.d j.word0
      .done (if j.shown == 3 || j.shown == 4 || j.shown == 5 then l.jobFlags j else l)

/-- JCANCEL (R295, R303). -/
def execJcancel (x : Ext) (s : State) : Host.Outcome State Fault Refusal :=
  instrX s x [x.a] [] fun b l =>
    match l.named (l.g x.a) with
    | .invalid => jobTrap l 1
    | .job id j => .done (if j.st == 3 || j.st == 4 || j.st == 5 then l else l.cancelJob b id)
    | _ => .done l

/-- Every job of a job's context that came into its queue before it has ended (R292); a SAVED job holds no entry once its begun items have ended. -/
def Live.headOfQueue (l : Live) (id : Nat) (j : Job) : Bool :=
  !l.dev.jobs.any fun e => e.1 != id && e.2.ctx == j.ctx && e.2.queue == j.queue && !e.2.pending && decide (e.2.seat < j.seat) && !e.2.ended && (e.2.st != 6 || !e.2.items.isEmpty)

/-- A reference step of CPYN on its root name has not been answered (R301). -/
def Live.refPending (l : Live) (id : Nat) : Bool := l.dev.reqs.any fun r => match r.kind with
  | .attic 8 _ _ x _ 0 _ => x.toNat == id
  | _ => false

/-- A job's state changes, and its record. -/
def Live.setJob (b : Boot) (l : Live) (id : Nat) (f : Job → Job) : Live := (l.onJob id f).putRecord b id

/-- A collective engine outside the domain whose UEPEER entry is not valid (R404, R424). -/
def peerMissing (l : Live) (e : Word) : Bool :=
  epKind e == 3 && decide (128 ≤ epPkg e) && !(tget l.dev.links.uepeer (0, 0) (epPkg e - 128)).1.getLsbD 63

/-- JOB_BEGIN (R292, R295): a job begins once the earlier ones of its context in its queue have ended; a QFENCE that has begun ends once the
jobs it waits for have (R302). -/
def execJobBegin (job : Nat) (s : State) : Host.Outcome State Fault Refusal :=
  event s fun b l =>
    match l.job? job with
    | none => l
    | some j =>
      let fence := fun (l : Live) => (l.onJob job fun j => { j with waits := j.waits.filter fun w => (l.job? w).elim false fun q => !q.ended }).settleJob b job
      if j.kind == 6 && j.st == 1 then fence l
      else if j.st != 0 || j.pending || !l.headOfQueue job j || l.refPending job then l
      else
        let l := l.setJob b job fun j => { j with st := 1 }
        match j.kind with
        | 3 =>
          if j.stream != 0 then l
          else
            let l := l.onJob job fun j => { j with stream := 1 }
            l.sendOwn b j.ctx (j.core / 8) (.stream job) (.cluster (wbits j.ga 29 22)) 1
        | 5 =>
          let c : CollShape := ⟨j.shape⟩
          if peerMissing l (l.endpoint j.ctx (j.core / 8) c.epn) then l.failRest b job 0x8D 0
          else l.sendOwn b j.ctx (192 + j.queue.eng) (.circuit 9 (BitVec.ofNat 64 (c.epn + c.planes * 256)) (BitVec.ofNat 64 c.nslot) 0 0 job) (.gateway 1 38) 1
        | 6 => fence l
        | _ => l

/-- Where one granule of a job's access lies (R209 to R211, R214, R297, R351). -/
def jobGranule (b : Boot) (l : Live) (core ctx kind : Nat) (a : Word) : Xlat :=
  match wbits a 63 60 with
  | 0 => if reserved01 a then .fail l 0x40 else l.translate b core (wbits a 47 0) kind 0x64
  | 2 =>
    if wbits a 59 22 != 0 then .fail l 0x40
    else if !l.ctxWindow ctx (core / 8) (wbits a 21 0) then .fail l 0x44
    else .pa l (clusterPa (core / 8) (wbits a 21 0)) 0
  | 3 =>
    if wbits a 59 30 != 0 || !b.hasCluster (wbits a 29 22) then .fail l 0x40
    else if !l.ctxWindow ctx (wbits a 29 22) (wbits a 21 0) then .fail l 0x44
    else .pa l (clusterPa (wbits a 29 22) (wbits a 21 0)) 0
  | 6 => .fail l 0x64
  | _ => .fail l 0x41

/-- What locating the granules of an item comes to. -/
inductive Spots where
  | all (l : Live) (ps : List Part)
  | miss (l : Live) (va kind : Nat)
  | fail (l : Live) (cause : Nat) (addr : Word)

/-- Finds the granules of n bytes at an address for a job. -/
def jobSpots (b : Boot) (l : Live) (core ctx kind : Nat) (write : Bool) (a : Word) : List (Nat × Nat) → List Part → Spots
  | [], acc => .all l acc
  | (off, n) :: rest, acc =>
    let v := a + BitVec.ofNat 64 (off - a.toNat % 16)
    match jobGranule b l core ctx kind v with
    | .fail l c => .fail l c v
    | .miss l => .miss l (wbits v 47 0) kind
    | .pa l pa _ => jobSpots b l core ctx kind write a rest (acc ++ [{ pa, n, write }])

/-- The granules of n bytes at an address, as offsets from the granule that holds the first byte. -/
def spotsOf (a : Word) (n : Nat) : List (Nat × Nat) := granulesOf (a.toNat % 16) n

/-- The element of an index list that an item uses (R301), or why it cannot be read. -/
inductive IndexRead where
  | ok (l : Live) (v : Nat)
  | miss (l : Live) (va kind : Nat)
  | fail (l : Live) (cause : Nat) (addr : Word)

/-- Reads element k of a job's index list with a plain read (R297). -/
def readIndex (b : Boot) (l : Live) (core : Nat) (j : Job) (k : Nat) : IndexRead :=
  let n := if shapeField j.shape 12 1 == 1 then 8 else 4
  let a : Word := BitVec.ofNat 64 (shapeField j.shape 24 8 + n * k)
  match jobSpots b l core j.ctx 3 false a (spotsOf a n) [] with
  | .fail l c v => .fail l c v
  | .miss l va kind => .miss l va kind
  | .all l ps => if partsPoisoned l ps then .fail l 0x45 a else .ok l (readParts l ps)

/-- An item's source, destination and size (R297). -/
structure ItemPlace where
  src : Word
  dst : Word
  n : Nat
deriving DecidableEq, Repr

/-- An address that an index gives: it neither overflows 64 bits nor names a barred path (R301). -/
def indexedAddr (base : Word) (idx : Nat) (scale : Int) (n : Nat) : Option Word :=
  let v := Int.ofNat base.toNat + Int.ofNat idx * scale
  if v < 0 || 2 ^ 64 < v + Int.ofNat n then none
  else
    let a := BitVec.ofInt 64 v
    if [0, 2, 3].contains (wbits a 63 60) then some a else none

/-- The source of an item where it needs no index. -/
def plainSrc (j : Job) (k : Nat) : Word :=
  let i := k % (Nat.max 1 (shapeN1 j.shape))
  let n := k / (Nat.max 1 (shapeN1 j.shape))
  match j.kind with
  | 2 => j.gb + BitVec.ofInt 64 (Int.ofNat k * shapeInt j.shape 16)
  | _ => j.gb + BitVec.ofInt 64 (Int.ofNat i * shapeInt j.shape 16 + Int.ofNat n * shapeInt j.shape 24)

/-- What finding an item's places comes to. -/
inductive Placed where
  | ok (l : Live) (p : ItemPlace)
  | miss (l : Live) (va kind : Nat)
  | fail (l : Live) (cause : Nat) (addr : Word)

/-- An item's places (R297, R301). -/
def placeItem (b : Boot) (l : Live) (core : Nat) (j : Job) (k : Nat) : Placed :=
  let n := itemBytes j
  if j.kind == 1 || j.kind == 2 then
    match readIndex b l core j k with
    | .miss l va kind => .miss l va kind
    | .fail l c a => .fail l c a
    | .ok l v =>
      if j.kind == 1 then
        match indexedAddr j.gb v (shapeInt j.shape 16) n with
        | some src => .ok l ⟨src, plainDst j k, n⟩
        | none => .fail l 0x84 j.gb
      else
        match indexedAddr j.ga v (shapeInt j.shape 32) n with
        | some dst => .ok l ⟨plainSrc j k, dst, n⟩
        | none => .fail l 0x84 j.ga
  else .ok l ⟨plainSrc j k, plainDst j k, n⟩

/-- Two runs of bytes at physical places overlap. -/
def partsMeet (ps qs : List Part) : Bool := ps.any fun p => qs.any fun q => p.pa < q.pa + q.n && q.pa < p.pa + p.n

/-- A lower item of a job may still write bytes of this item's destination (R298): it has begun, or waits or is to restart; a row of CPYC follows every lower
row that has not left whole. -/
def mustFollow (l : Live) (j : Job) (k : Nat) (dst : Word) (n : Nat) (ws : List Part) : Bool :=
  j.items.any fun i => i.idx < k &&
    if j.kind == 3 then i.got < n
    else i.fail.isNone && (match i.req.bind l.req? with
      | some r => if r.parts.isEmpty then overlaps (plainDst j i.idx) n dst n else partsMeet (r.parts.filter Part.write) ws
      | none => j.kind == 2 || overlaps (plainDst j i.idx) n dst n)

/-- The state of the circuit a handle names: usable, or the cause and detail of its failure (R296, R289). -/
def circuitFault (l : Live) (h : Word) : Option (Nat × Nat) :=
  match tfind l.dev.copies (handleCnum h) with
  | none => some (0x46, 1)
  | some c => if c.gen != handleGen h then some (0x46, 1) else if c.st == 6 then some (0xC0 + c.fcause, 0) else none

/-- A part travels on a circuit: its home is one that the circuit's endpoint serves, other than the own cluster (R298). -/
def onCircuit (b : Boot) (l : Live) (cluster : Nat) (h : Word) (p : Part) : Bool :=
  h != 0 && (let c := l.circuit (handleCnum h)
    match circuitEnd b l c.src c.entry, paHome b p.pa with
    | some e, some hm => hm.dest == e && hm != .bank cluster
    | _, _ => false)

/-- The circuits that an item's parts use, with their faults. -/
def itemCircuits (b : Boot) (l : Live) (j : Job) (ps : List Part) : Option (Nat × Nat) :=
  let one := fun (h : Word) (qs : List Part) => if qs.any (onCircuit b l (j.core / 8) h) then circuitFault l h else none
  (one j.chs (ps.filter fun p => !p.write)).or (one j.chd (ps.filter Part.write))

/-- Parts as they are cut into pieces and bursts: those cut, the number of the last piece and its bytes. -/
structure Cut where
  parts : List Part := []
  grp : Nat := 0
  n : Nat := 0

/-- Cuts one more part (R39, R298): one in the own cluster travels nowhere; on a circuit a burst ends at a 256-byte boundary; a relay piece carries up to 144
bytes to one home. -/
def Cut.add (b : Boot) (l : Live) (j : Job) (c : Cut) (p : Part) : Cut :=
  let own := j.core / 8
  if paHome b p.pa == some (.bank own) then { c with parts := c.parts ++ [p], n := 0 }
  else
    let h := if p.write then j.chd else j.chs
    let cnum := if onCircuit b l own h p then handleCnum h else 0
    let joins := decide (0 < c.n) && (c.parts.getLast?).any fun q => q.write == p.write && q.cnum == cnum && q.pa + q.n == p.pa && paHome b q.pa == paHome b p.pa &&
      (if cnum != 0 then q.pa / 256 == p.pa / 256 else decide (c.n + p.n ≤ 144))
    let g := if joins then c.grp else c.grp + 1
    { parts := c.parts ++ [{ p with grp := g, leg := 1, cnum }], grp := g, n := if joins then c.n + p.n else p.n }

/-- The parts of an item, cut into pieces and bursts. -/
def cutParts (b : Boot) (l : Live) (j : Job) (ps : List Part) : List Part := (ps.foldl (Cut.add b l j) {}).parts

/-- A piece or burst of an item leaves when it may (R298): a read at once, a write once the bytes that the item reads are there; a relay message while the NI
has a place for it; a burst to DRAM while the circuit's context holds a place of the controller for each of its parts (R44). Once an access of the item has
failed, nothing more leaves. -/
def launchGroup (b : Boot) (l : Live) (id g : Nat) : Live :=
  match l.req? id with
  | none => l
  | some r =>
    match r.group g with
    | [] => l
    | p :: ps =>
      let ch := chanOf (p.pa / 16)
      let blocked := if p.cnum != 0 then decide (ch < 2000) && decide (16 < l.placesHeld r.ctx ch + (p :: ps).length)
        else (paHome b p.pa).any fun h => (l.sendBlocked r.ctx h.dest (relayRoute b l (nodeEnd r.src) none h.dest (h.via b))).isSome
      if r.fail.isSome then l.onParts id (fun q => q.grp == g) fun q => { q with done := true, leg := 0 }
      else if blocked || (p.write && !r.readsDone) then l
      else l.setOut b r g

/-- What an item has not yet set out does so where it may. -/
def launch (b : Boot) (l : Live) (id : Nat) : Live :=
  match l.req? id with
  | none => l
  | some r => (distinct ((r.parts.filter fun p => p.leg == 1).map Part.grp)).foldl (fun l g => launchGroup b l id g) l

/-- An item of a copy job is at its start: it becomes the next begun item, or is one that restarts. -/
def Job.startItem (j : Job) (k : Nat) (i : Item) : Job :=
  if j.items.any fun x => x.idx == k then { j with items := j.items.map fun x => if x.idx == k then i else x }
  else { j with items := j.items ++ [i], next := k + 1 }

/-- An item waits for the answer to a miss; a job posts one at a time (R295, R385). -/
def itemMiss (l0 l : Live) (job k core : Nat) (j : Job) (p : ItemPlace) (va kind : Nat) : Live :=
  if j.items.any fun i => i.waiting && i.idx != k then l0
  else
    let l := l.onJob job fun j => j.startItem k { idx := k, src := p.src, dst := p.dst, waiting := true }
    l.postMiss core { kind, va := va % 2 ^ 48, slot := 0, job, jid := j.jid, defers := 0, due := none, arrived := false }

/-- An item fails at its start (R296). -/
def itemStops (b : Boot) (l : Live) (job k cause detail : Nat) (addr : Word) : Live :=
  (l.onJob job fun j => j.startItem k { idx := k, fail := some (cause, detail, addr) }).endItem b job k

/-- A flit of a CPYC row joins those that wait for the circuit (R301); after a failure in its row it is marked bad. -/
def rowFlit (l : Live) (job : Nat) (j : Job) (i : Item) (n v : Nat) : Live :=
  let r := l.newId
  r.2.map fun d => { d with flits := d.flits ++
    [{ id := r.1, cnum := handleCnum j.chd, rev := false, payload := .stream job i.idx n (BitVec.ofNat 512 v), bad := i.fail.isSome, ready := d.slots }] }

/-- Bytes of a CPYC row have been read, or have failed: each 64 of them, and the last, make a flit (R301). -/
def rowRead (l : Live) (job : Nat) (j : Job) (i : Item) (n v : Nat) : Live :=
  let acc := i.acc + v * 2 ^ (8 * (i.got % 64))
  let got := i.got + n
  let cross := got / 64 != i.got / 64
  let l := if cross then rowFlit l job j i (i.got / 64) acc else l
  let acc := if cross then acc / 2 ^ 512 else acc
  let l := if got == itemBytes j && got % 64 != 0 then rowFlit l job j i (got / 64) acc else l
  l.onJob job fun j => j.startItem i.idx { i with out := true, got, acc }

/-- One granule of a CPYC row is read, from the cluster's own memory, as soon as WF allows (R299, R301); a failure is the item's, and the row still leaves, its
flits marked bad. None while it waits. -/
def rowStep (b : Boot) (l : Live) (job : Nat) (j : Job) (i : Item) : Option Live :=
  let a := i.src + BitVec.ofNat 64 i.got
  let n := Nat.min (16 - a.toNat % 16) (itemBytes j - i.got)
  let fail := fun (c : Nat) => some (rowRead l job j { i with fail := i.fail.or (some (c, 0, i.src)) } n 0)
  if itemBytes j ≤ i.got then none
  else if wbits a 63 60 != 2 then fail (if wbits a 63 60 == 6 then 0x64 else 0x41)
  else match jobGranule b l (l.missCore j.ctx (j.core / 8)) j.ctx (if j.clr then 4 else 3) a with
    | .fail _ c => fail c
    | .miss _ => none
    | .pa l pa _ =>
      if l.mem.isPoisoned (pa / 16) then fail 0x45
      else if j.wf && !l.mem.isFull (pa / 16) then none
      else
        let v := l.mem.read pa n
        let l := l.chargeBytes b j.ctx pa n
        some (rowRead (if j.clr then l.changeGranule b (pa / 16) false else l) job j i n v)

/-- A number of granules of a CPYC row. -/
def rowSteps (b : Boot) (job k : Nat) : Nat → Live → Live
  | 0, l => l
  | n + 1, l =>
    match (l.job? job).bind fun j => (j.items.find? fun i => i.idx == k).map fun i => (j, i) with
    | none => l
    | some (j, i) => match rowStep b l job j i with
      | some l => rowSteps b job k n l
      | none => l

/-- A row of CPYC goes on (R235, R301): one granule, or as far as it can. -/
def rowGo (b : Boot) (l : Live) (job k : Nat) (j : Job) : Live := rowSteps b job k (if l.dev.split then 1 else itemBytes j / 16 + 2) l

/-- A row of CPYC begins, once every lower row has left whole. -/
def startRow (b : Boot) (l : Live) (job k : Nat) (j : Job) (p : ItemPlace) : Live :=
  if mustFollow l j k p.dst p.n [] then l
  else match circuitFault l j.chd with
    | some (c, d) => itemStops b l job k c d p.dst
    | none => match rowStep b l job j { idx := k, src := p.src, dst := p.dst } with
      | none => l
      | some l => if l.dev.split then l else rowGo b l job k j

/-- An item of CPY, CPYG or CPYS begins: its accesses are found, and its reads leave (R298). -/
def startPiece (b : Boot) (l0 l : Live) (job k core : Nat) (j : Job) (p : ItemPlace) : Live :=
  match jobSpots b l core j.ctx (if j.clr then 4 else 3) false p.src (spotsOf p.src p.n) [] with
  | .miss l va kind => itemMiss l0 l job k core j p va kind
  | .fail l c _ => itemStops b l job k c 0 p.src
  | .all l rs =>
    match jobSpots b l core j.ctx 4 true p.dst (spotsOf p.dst p.n) [] with
    | .miss l va kind => itemMiss l0 l job k core j p va kind
    | .fail l c _ => itemStops b l job k c 0 p.dst
    | .all l ws =>
      if mustFollow l j k p.dst p.n ws then l0
      else match itemCircuits b l j (rs ++ ws) with
        | some (c, d) => itemStops b l job k c d p.dst
        | none =>
          let cl := j.core / 8
          let r := l.addReq fun id => { id, kind := .piece job k, tid := noThread, ctx := j.ctx, pc := 0, va := p.dst, cls := .plain, parts := cutParts b l j (rs ++ ws), src := cl, dest := .cluster cl }
          launch b (r.2.onJob job fun j => j.startItem k { idx := k, src := p.src, dst := p.dst, req := some r.1 }) r.1

/-- An item of CPYN begins (R301): its destination is found, and its leaf is asked for. -/
def startLeaf (b : Boot) (l0 l : Live) (job k core : Nat) (j : Job) (p : ItemPlace) : Live :=
  match jobSpots b l core j.ctx 4 true p.dst (spotsOf p.dst p.n) [] with
  | .miss l va kind => itemMiss l0 l job k core j p va kind
  | .fail l c _ => itemStops b l job k c 0 p.dst
  | .all l _ =>
    let name : BitVec 128 := j.name.2 ++ j.name.1
    let leaf := shapeField j.shape 16 8 + k
    let cl := j.core / 8
    let id := l.dev.fresh
    (l.sendOwn b j.ctx cl (.attic 7 name 0 (BitVec.ofNat 128 job) (BitVec.ofNat 128 leaf) 0 0) (engineDest (homeStack b name)) 1).onJob job
      fun j => j.startItem k { idx := k, src := p.src, dst := p.dst, req := some id }

/-- An item may begin now (R295, R298): items begin in ascending order, at most 32 at once; one that had to wait for a page, and waits no more, restarts. -/
def mayStart (j : Job) (k : Nat) : Bool :=
  j.st == 1 && (match j.items.find? fun i => i.idx == k with
    | some i => !i.waiting && !i.begun
    | none => k == j.next && decide (k < j.count) && decide (j.items.length < 32) && (j.kind != 3 || j.stream == 2))

/-- The address and the cause that a walk for a collective engine finds (R304, R436): a page that is absent or migrating stalls the job. -/
inductive CollSpot where
  | ok (pa : Nat)
  | stall
  | fail (cause : Nat)
deriving DecidableEq, Repr

/-- Where a granule of a COLL buffer lies. -/
def collSpot (b : Boot) (l : Live) (ctx : Nat) (a : Word) (write : Bool) : CollSpot :=
  if reserved01 a then .fail 0x40
  else match l.walk b ctx (wbits a 47 0) with
    | .unmapped => .fail 0x48
    | .bad => .fail 0x49
    | .leaf pte big =>
      if pteTier pte == 0 || pteM pte then .stall
      else match pteVerdict pte (if write then 4 else 3) 0x64 with
        | .cause c => .fail c
        | .wait => .stall
        | .ok =>
          let pa := leafPa pte big (wbits a 47 0)
          if (paHome b pa).isNone then .fail 0x40 else .ok pa

/-- The places of a 512-byte block of a COLL buffer: its granules, or the first thing that stands in the way of one. -/
def collBlock (b : Boot) (l : Live) (ctx : Nat) (a : Word) (write : Bool) : List (Nat × Nat) → List Nat → Except CollSpot (List Nat)
  | [], acc => .ok acc
  | g :: rest, acc =>
    match collSpot b l ctx (a + BitVec.ofNat 64 (g.1 - a.toNat % 16)) write with
    | .ok pa => collBlock b l ctx a write rest (acc ++ [pa])
    | s => .error s

/-- What an access of a collective engine to a granule, or the test of a block before its first, comes to. -/
inductive CollRead where
  | ok (l : Live) (v : Nat)
  /-- WF waits -/
  | wait
  | stall
  | fail (cause : Nat)

/-- The test of a 512-byte input block before it is read (R304, R305): where it lies, its poison, and with WF that its granules are FULL. -/
def collReady (b : Boot) (l : Live) (j : Job) (a : Word) : CollRead :=
  match collBlock b l j.ctx a j.clr (spotsOf a 512) [] with
  | .error .stall => .stall
  | .error (.fail c) => .fail c
  | .error (.ok _) => .stall
  | .ok pas =>
    if pas.any fun pa => l.mem.isPoisoned (pa / 16) then .fail 0x45
    else if j.wf && pas.any fun pa => !l.mem.isFull (pa / 16) then .wait
    else .ok l 0

/-- Reads some bytes of one granule (R235, R305): with WF only while it is FULL; CLR empties it. -/
def collRead (b : Boot) (l : Live) (j : Job) (a : Word) (n : Nat) : CollRead :=
  match collSpot b l j.ctx a j.clr with
  | .stall => .stall
  | .fail c => .fail c
  | .ok pa =>
    if l.mem.isPoisoned (pa / 16) then .fail 0x45
    else if j.wf && !l.mem.isFull (pa / 16) then .wait
    else
      let v := l.mem.read pa n
      let l := l.chargeBytes b j.ctx pa n
      .ok (if j.clr && (pa + n) % 16 == 0 then l.changeGranule b (pa / 16) false else l) v

/-- SF (R299): every granule of an output block that has been written becomes FULL. -/
def collFill (b : Boot) (l : Live) (j : Job) (a : Word) : Live :=
  match collBlock b l j.ctx a true (spotsOf a 512) [] with
  | .ok pas => pas.foldl (fun l pa => l.changeGranule b (pa / 16) true) l
  | .error _ => l

/-- Writes n bytes of one granule at an offset of the output block that begins at an address; its last bytes end the item (R305). None when the job stalls. -/
def collWrite (b : Boot) (l : Live) (job : Nat) (j : Job) (item : Nat) (base : Word) (off n v : Nat) : Option Live :=
  if j.itemsOver.contains item then some l
  else match collSpot b l j.ctx (base + BitVec.ofNat 64 off) true with
    | .stall => none
    | .fail c => some (l.collEnd b job item (some (c, 0, base)))
    | .ok pa =>
      if l.mem.isPoisoned (pa / 16) then some (l.collEnd b job item (some (0x45, 0, base)))
      else
        let l := (l.chargeBytes b j.ctx pa n).store pa n v
        let w := tget j.written 0 item + n
        let l := l.onJob job fun j => { j with written := if w < 512 then tput j.written item w else tdel j.written item }
        some (if w < 512 then l else (if j.sf then collFill b l j base else l).collEnd b job item none)

/-- Combine of R305 on one element. -/
def combine (efmt red : Nat) (x y : Nat) : Nat × Flags :=
  let w := fmtBits efmt
  if efmt == 2 || efmt == 6 then
    let less := if efmt == 2 then decide (sext x w < sext y w) else decide (x < y)
    match red with
    | 0 => ((x + y) % 2 ^ w, 0)
    | 1 => (if less then x else y, 0)
    | _ => (if less then y else x, 0)
  else if red == 0 then
    let s := exactSum .rne [valOf efmt x, valOf efmt y]
    let r := roundFp (fpFmt efmt) false .rne 0 s.1
    (r.1, s.2 ||| r.2)
  else minMaxFp (fpFmt efmt) (red == 2) x y

/-- Combine on the data of a flit: incoming with local, element by element. -/
def combineFlit (efmt red : Nat) (incoming mine : BitVec 512) : BitVec 512 × Flags :=
  let w := fmtBits efmt
  let rs := (List.range (512 / w)).map fun i =>
    combine efmt red (bitsAt incoming.toNat (w * i + w - 1) (w * i)) (bitsAt mine.toNat (w * i + w - 1) (w * i))
  (BitVec.ofNat 512 (rs.foldr (fun r acc => r.1 + 2 ^ w * acc) 0), rs.foldl (fun f r => f ||| r.2) 0)

/-- Sends a ring flit on a job's circuit (R304, R305). -/
def sendRing (l : Live) (j : Job) (phase seg blk n : Nat) (v : BitVec 512) (bad : Bool) : Live :=
  let c : CollShape := ⟨j.shape⟩
  let e := (l.circuit j.cnum).entry
  l.queueFlits j.cnum false (.ring { eng := epUnit e % 4, ctx := j.ctx, rid := c.rid, nb := c.nb, op := c.op, red := c.red, efmt := c.efmt, p := c.p, phase, seg, blk, n, data := v, bad }) 1

/-- The address of a block of a segment in a buffer of NB bytes. -/
def segAddr (base : Word) (c : CollShape) (seg blk : Nat) : Word := base + BitVec.ofNat 64 (seg * c.q + 512 * blk)

/-- The item to which a block of a segment belongs (R305). -/
def collItem (c : CollShape) (seg blk : Nat) : Nat := if c.op == 0 then blk else seg * c.blocks + blk

/-- The output block to which the job writes a block of a segment (R305). -/
def collOut (j : Job) (seg blk : Nat) : Word :=
  let c : CollShape := ⟨j.shape⟩
  if c.op == 0 then j.gb + BitVec.ofNat 64 (512 * blk) else segAddr j.gb c seg blk

/-- A COLL job stalls on an item's page (R295). -/
def collStall (b : Boot) (l : Live) (job item : Nat) : Live :=
  l.setJob b job fun j => { j with st := 2, items := [{ idx := item, dst := plainDst j item, waiting := true }] }

/-- Input bytes as the ring needs them: read, or failed, which one item is charged with (R305); an item that firmware could not serve counts as failed. -/
inductive Input where
  | data (l : Live) (v : Nat)
  | failed (l : Live)
  | wait
  | stall (item : Nat)

/-- What a read, or a test, of the local input means for the item that it is charged to. -/
def CollRead.input (b : Boot) (l : Live) (job : Nat) (j : Job) (a : Word) (item : Nat) : CollRead → Input
  | .ok l v => .data l v
  | .wait => .wait
  | .stall => if j.itemsOver.contains item then .failed l else .stall item
  | .fail c => .failed (l.collEnd b job item (some (c, 0, a)))

/-- Bytes from an offset of a block that one step handles: those of one granule and one flit. -/
def stepBytes (base : Word) (off : Nat) : Nat := Nat.min (16 - (base.toNat + off) % 16) (64 - off % 64)

/-- Reads the next bytes of an input block; before its first, the whole block is tested (R305). -/
def collInput (b : Boot) (l : Live) (job : Nat) (j : Job) (base : Word) (off item : Nat) : Input :=
  let go := (collRead b l j (base + BitVec.ofNat 64 off) (stepBytes base off)).input b l job j base item
  if off = 0 then match (collReady b l j base).input b l job j base item with
    | .data _ _ => go
    | r => r
  else go

/-- Flits of the ring have been dealt with: the job ends when all have (R305). -/
def ringCount (b : Boot) (l : Live) (job : Nat) : Live := (l.onJob job fun j => { j with ringIn := j.ringIn + 1 }).settleJob b job

/-- One step of the first send of block `next` (R305): bytes of the input, which under OP 1 are also the own segment's output; each 64 of them make a flit. None
while it waits. -/
def collFirst (b : Boot) (l : Live) (job : Nat) (j : Job) : Option Live :=
  let c : CollShape := ⟨j.shape⟩
  let k := j.next
  let seg := if c.op == 1 then c.rank else (c.rank + c.p - 1) % c.p
  let item := collItem c seg k
  let base := if c.op == 1 then j.ga + BitVec.ofNat 64 (512 * k) else segAddr j.ga c seg k
  let n := stepBytes base j.fpos
  let go := fun (l : Live) (n v : Nat) (bad : Bool) =>
    let acc := j.facc ||| BitVec.ofNat 512 (v * 2 ^ (8 * (j.fpos % 64)))
    let pos := j.fpos + n
    let full := pos % 64 == 0
    let l := if full then sendRing l j (if c.op == 1 then 1 else 0) seg k (pos / 64 - 1) acc bad else l
    let l := l.onJob job fun j => { j with facc := if full then 0 else acc, fpos := if pos = 512 then 0 else pos, fbad := bad && pos != 512, next := if pos = 512 then k + 1 else k }
    if full then ringCount b l job else l
  if j.fbad then some (go l (64 - j.fpos % 64) 0 true)
  else match collInput b l job j base j.fpos item with
    | .wait => none
    | .stall i => some (collStall b l job i)
    | .failed l => some (go l (64 - j.fpos % 64) 0 true)
    | .data l' v =>
      if c.op != 1 then some (go l' n v false)
      else match collWrite b l' job j item (collOut j seg k) j.fpos n v with
        | none => some (collStall b l job item)
        | some l => some (go l n v false)

/-- A number of steps of the first send of a block. -/
def firstSteps (b : Boot) (job k : Nat) : Nat → Live → Live
  | 0, l => l
  | n + 1, l =>
    match (l.job? job).filter fun j => j.st == 1 && j.next == k with
    | none => l
    | some j => match collFirst b l job j with
      | some l => firstSteps b job k n l
      | none => l

/-- An item that has begun goes on: what of it can leave does, and a row of CPYC is read further (R298, R301). -/
def itemGo (b : Boot) (l : Live) (job k : Nat) (j : Job) (i : Item) : Live :=
  if j.kind == 3 then (if i.out then rowGo b l job k j else l) else i.req.elim l (launch b l)

/-- JOB_ITEM_START (R298, R301, R305): an item of a copy job begins, restarts or goes on; for COLL, block item of the first segment is sent. -/
def execJobItemStart (job item : Nat) (s : State) : Host.Outcome State Fault Refusal :=
  event s fun b l =>
    match l.job? job with
    | none => l
    | some j =>
      if j.kind == 5 then
        if j.st == 1 && j.cnum != 0 && !j.ceased && j.next == item && decide (item < (CollShape.mk j.shape).blocks)
        then firstSteps b job item (if l.dev.split then 1 else 80) l else l
      else if 5 < j.kind then l
      else match j.items.find? fun i => i.idx == item && i.begun with
        | some i => itemGo b l job item j i
        | none =>
          if !mayStart j item then l
          else
            let core := l.missCore j.ctx (j.core / 8)
            match placeItem b l core j item with
            | .miss l' va kind => itemMiss l l' job item core j ⟨plainSrc j item, plainDst j item, itemBytes j⟩ va kind
            | .fail l c a => itemStops b l job item c 0 a
            | .ok l' p =>
              match j.kind with
              | 3 => startRow b l' job item j p
              | 4 => if mustFollow l' j item p.dst p.n [] then l else startLeaf b l l' job item core j p
              | _ => startPiece b l l' job item core j p

/-- JOB_UNSTALL (R295): firmware reports the page of a STALLED job present, or that it cannot make it so (0x4C). -/
def execJobUnstall (job : Nat) (present : Bool) (s : State) : Host.Outcome State Fault Refusal :=
  event s fun b l =>
    match l.job? job with
    | none => l
    | some j =>
      if j.st != 2 then l
      else if j.kind == 5 then
        let l := l.setJob b job fun j => { j with st := 1, items := [] }
        if present then l else j.items.foldl (fun l i => l.collEnd b job i.idx (some (0x4C, 0, i.dst))) l
      else
        let core := l.missCore j.ctx (j.core / 8)
        let va := ((l.dev.core core).misses.find? fun m => m.job == job).elim 0 Miss.va
        let l := l.dropJobMisses job
        (if present then restartJob l job else failWaiting l job 0x4C va).putRecord b job

/-- SF (R299): every granule that an item wrote any byte of becomes FULL. -/
def fillItem (b : Boot) (l : Live) (r : Req) : Live :=
  (distinct ((r.parts.filter Part.write).map fun p => p.pa / 16)).foldl (fun l g => l.changeGranule b g true) l

/-- Every access of an item has been performed and acknowledged, or has failed; after a failure nothing more sets out (R298). -/
def Req.ended (r : Req) : Bool := r.parts.all fun p => (p.leg == 0 && p.done) || (p.leg == 1 && r.fail.isSome)

/-- The address that the record of a failed item gives (R417): the item's source when an access of it failed there, else its destination. -/
def Item.failAddr (i : Item) (r : Req) : Word := if (r.parts.find? Part.bad).any (fun p => !p.write) then i.src else i.dst

/-- JOB_ITEM_DONE (R296, R298): an item whose accesses have all been performed and acknowledged ends, and SF is applied; one that has failed ends, a row of CPYC
once it has left whole. -/
def execJobItemDone (job item : Nat) (s : State) : Host.Outcome State Fault Refusal :=
  event s fun b l =>
    match l.job? job with
    | none => l
    | some j =>
      match j.items.find? fun i => i.idx == item with
      | none => l
      | some i =>
        if j.kind == 5 || i.waiting then l
        else if j.kind == 3 then (if i.fail.isSome && (!i.out || itemBytes j ≤ i.got) then l.endItem b job item else l)
        else if i.fail.isSome then l.endItem b job item
        else match i.req.bind l.req? with
          | none => l
          | some r =>
            match r.kind with
            | .piece _ _ =>
              if !r.ended then l
              else match r.fail with
                | some (c, d, _) => (l.onJob job fun j => j.failItem item c d (i.failAddr r)).endItem b job item
                | none => (if j.sf then fillItem b l r else l).endItem b job item
            | _ => l

/-- COLL_ENQUEUE_ACCEPT (R300): the engine takes the job when a queue entry is free, and replies. -/
def execCollEnqueueAccept (req : Nat) (s : State) : Host.Outcome State Fault Refusal :=
  event s fun b l =>
    match l.req? req with
    | none => l
    | some r =>
      match r.kind with
      | .coll job _ =>
        match l.job? job with
        | none => l
        | some j =>
          let used := (l.dev.jobs.filter fun e => e.2.queue == j.queue && !e.2.ended && !e.2.pending).length
          if !j.pending || 32 ≤ used then l
          else match l.reach r with
            | none => l
            | some l =>
              let waits := if j.kind == 6 then namedJobs l.dev j.ctx (j.core / 8) (bitsAt j.imm 17 16) (bitsAt j.imm 8 1) (j.imm % 2 == 1) else []
              let seat := l.newId
              let l := seat.2.onJob job fun j => { j with pending := false, waits, seat := seat.1 }
              l.reply b { r with stage := .home } none 1 fun q => { q with out := j.handle }
      | _ => l

/-- The job to which ring data belongs: the one of its context and RID that stands first in a queue of the engine (R304). -/
def ringJob (l : Live) (f : RingFlit) : Option (Nat × Job) :=
  l.dev.jobs.find? fun e => e.2.kind == 5 && e.2.queue.eng == f.eng && e.2.ctx == f.ctx && (CollShape.mk e.2.shape).rid == f.rid && !e.2.ended && !e.2.pending &&
    l.headOfQueue e.1 e.2

/-- Ring data that waits in an engine's receive buffer: what came over a circuit, with the circuit's mark of R399. -/
def Flit.ringAt (f : Flit) (eng : Nat) : Option RingFlit :=
  if f.at_ == some (.gateway eng 37) then
    match f.payload with
    | .ring g => some { g with bad := g.bad || f.bad }
    | _ => none
  else none

/-- The engine has dealt with ring data: its room goes back to the sender as a credit (R304), by a relay message that takes those not yet sent along. -/
def takeRing (b : Boot) (l : Live) (x : Flit) (f : RingFlit) : Live :=
  let l := l.map fun d => { d with flits := d.flits.filter fun y => y.id != x.id }
  let back := Dest.gateway f.eng 37
  match (if x.cnum = 0 then none else l.dev.jobs.find? fun e => e.2.kind == 5 && e.2.cnum == x.cnum) with
  | none => if x.cnum = 0 then l.map fun d => { d with out := d.out ++ [.ringCredit f.eng f.ctx f.rid] } else l
  | some (id, j) =>
    let unsent := l.dev.reqs.find? fun r => r.src == 192 + f.eng && (match r.kind with
      | .ringCredit k _ => k == id
      | _ => false) && l.dev.msgs.any fun m => m.req == r.id && m.sent == 0 && m.came.isNone && !m.path.isEmpty
    match unsent with
    | some r => l.onReq r.id fun r => match r.kind with
      | .ringCredit k n => { r with kind := .ringCredit k (n + 1) }
      | _ => r
    | none =>
      if back == .gateway j.queue.eng 37 then l.giveRing id 1
      else l.sendOwn b f.ctx (192 + f.eng) (.ringCredit id 1) (.gateway j.queue.eng 37) 1

/-- The circuit of a job that has ended closes once its last flit has been delivered (R304). -/
def closeRings (b : Boot) (l : Live) : Live :=
  (l.dev.jobs.filter fun e => e.2.kind == 5 && e.2.cnum != 0 && e.2.ended).foldl (fun l e => l.releaseJob b e.1) l

/-- What has been done of the flit of a segment that the engine deals with. -/
def Job.seg (j : Job) (s : Nat) : RingSeg := tget j.segs {} s

/-- Changes it. -/
def Live.onSeg (l : Live) (job s : Nat) (f : RingSeg → RingSeg) : Live := l.onJob job fun j => { j with segs := tset j.segs {} s (f (tget j.segs {} s)) }

/-- A flit has been dealt with whole. -/
def ringDone (b : Boot) (l : Live) (job : Nat) (x : Flit) (f : RingFlit) : Live :=
  ringCount b (takeRing b (l.onSeg job f.seg fun r => { spoilt := if f.n = 7 then none else r.spoilt }) x f) job

/-- The bytes of a flit that this rank keeps are written, one granule a step, and it is done with. -/
def ringWrite (b : Boot) (l : Live) (job : Nat) (j : Job) (x : Flit) (f : RingFlit) : Live :=
  let c : CollShape := ⟨j.shape⟩
  let r := j.seg f.seg
  let item := collItem c f.seg f.blk
  let base := collOut j f.seg f.blk
  let off := 64 * f.n + r.pos % 64
  let n := stepBytes base off
  match collWrite b l job j item base off n (r.acc.toNat / 2 ^ (8 * (r.pos % 64)) % 2 ^ (8 * n)) with
  | none => collStall b l job item
  | some l => if r.pos + n = 128 then ringDone b l job x f else l.onSeg job f.seg fun r => { r with pos := r.pos + n }

/-- Incoming and local bytes of a flit are there (R305): combined, the flit is sent on, or it is this rank's result; one that is bad, or whose block could not be
read here, goes on marked bad, and fails the item that it would have given. -/
def ringFormed (b : Boot) (l : Live) (job : Nat) (j : Job) (x : Flit) (f : RingFlit) (mine : BitVec 512) (spoilt : Bool) : Live :=
  let c : CollShape := ⟨j.shape⟩
  let final := f.seg == c.rank
  let item := collItem c f.seg f.blk
  if f.bad || spoilt then
    let l := if final then l.collEnd b job item (some (0xC6, 0, collOut j f.seg f.blk)) else l
    let l := if !final then sendRing l j 0 f.seg f.blk f.n 0 true else if c.op == 2 then sendRing l j 1 f.seg f.blk f.n 0 true else l
    ringDone b (if spoilt then l.onSeg job f.seg fun r => { r with spoilt := some f.blk } else l) job x f
  else
    let r := combineFlit c.efmt c.red f.data mine
    let l := l.onJob job fun j => { j with flags := j.flags ||| toMflags r.2 }
    if !final then ringDone b (sendRing l j 0 f.seg f.blk f.n r.1 false) job x f
    else (if c.op == 2 then sendRing l j 1 f.seg f.blk f.n r.1 false else l).onSeg job f.seg fun s => { s with pos := 64, acc := r.1 }

/-- One step of a flit of the reduce-scatter phase (R305): local bytes of one granule, and when all are there the combination. None while WF waits. -/
def ringReduce (b : Boot) (l : Live) (job : Nat) (j : Job) (x : Flit) (f : RingFlit) : Option Live :=
  let c : CollShape := ⟨j.shape⟩
  let r := j.seg f.seg
  let base := segAddr j.ga c f.seg f.blk
  let off := 64 * f.n + r.pos
  if r.spoilt == some f.blk then some (ringFormed b l job j x f 0 true)
  else match collInput b l job j base off (collItem c f.seg f.blk) with
    | .wait => none
    | .stall i => some (collStall b l job i)
    | .failed l => some (ringFormed b l job j x f 0 true)
    | .data l v =>
      let n := stepBytes base off
      let acc := r.acc ||| BitVec.ofNat 512 (v * 2 ^ (8 * r.pos))
      some (if r.pos + n = 64 then ringFormed b l job j x f acc false else l.onSeg job f.seg fun r => { r with pos := r.pos + n, acc })

/-- The first step of a flit of the all-gather phase (R305): it is sent on unless the next rank has it, and one marked bad fails its item. -/
def ringGather (b : Boot) (l : Live) (job : Nat) (j : Job) (x : Flit) (f : RingFlit) : Live :=
  let c : CollShape := ⟨j.shape⟩
  let l := if f.seg == (c.rank + 1) % c.p then l else sendRing l j 1 f.seg f.blk f.n f.data f.bad
  if f.bad then ringDone b (l.collEnd b job (collItem c f.seg f.blk) (some (0xC6, 0, collOut j f.seg f.blk))) job x f
  else l.onSeg job f.seg fun r => { r with pos := 64, acc := f.data }

/-- One step of the oldest flit of a segment. None while WF waits. -/
def ringStep (b : Boot) (l : Live) (job : Nat) (j : Job) (x : Flit) (f : RingFlit) : Option Live :=
  if 64 ≤ (j.seg f.seg).pos then some (ringWrite b l job j x f)
  else if f.phase == 0 then ringReduce b l job j x f
  else some (ringGather b l job j x f)

/-- A number of steps of a flit, until it has been dealt with. -/
def ringSteps (b : Boot) (job : Nat) (x : Flit) (f : RingFlit) : Nat → Live → Live
  | 0, l => l
  | n + 1, l =>
    match (l.job? job).filter fun j => j.st == 1 && l.dev.flits.any fun y => y.id == x.id with
    | none => l
    | some j => match ringStep b l job j x f with
      | some l => ringSteps b job x f n l
      | none => l

/-- Ring data differs from what its receiver's job states, or lies outside it (R424, 0x83). -/
def ringMismatch (c : CollShape) (f : RingFlit) : Bool :=
  f.nb != c.nb || f.op != c.op || f.red != c.red || f.efmt != c.efmt || f.p != c.p

/-- RING_FLIT_ARRIVE (R304, R305, R431): a flit comes from another package, or stands in the engine's receive buffer; the oldest of its segment is combined or
written, and sent on; one that names no job is discarded (0x87). -/
def execRingFlitArrive (f : RingFlit) (s : State) : Host.Outcome State Fault Refusal :=
  event s fun b l =>
    let l := if l.dev.flits.any fun x => x.ringAt f.eng == some f then l
      else
        let n := l.newId
        n.2.map fun d => { d with flits := d.flits ++ [{ id := n.1, cnum := 0, rev := false, payload := .ring f, at_ := some (.gateway f.eng 37) }] }
    match l.dev.flits.find? fun x => (x.ringAt f.eng).any fun g => g.ctx == f.ctx && g.rid == f.rid && g.seg == f.seg with
    | none => l
    | some x =>
      match x.ringAt f.eng with
      | none => l
      | some f =>
        match ringJob l f with
        | none => if l.dev.jobs.any fun e => e.2.kind == 5 && e.2.queue.eng == f.eng && e.2.ctx == f.ctx && (CollShape.mk e.2.shape).rid == f.rid && !e.2.ended then l
            else (takeRing b l x f).hardRecord b f.ctx 0x87 3 0 (192 + f.eng) 0
        | some (job, j) =>
          let c : CollShape := ⟨j.shape⟩
          if j.st != 1 || j.cnum == 0 then l
          else if ringMismatch c f then (takeRing b l x f).failRest b job 0x83 0
          else if j.ceased || c.p ≤ f.seg || c.blocks ≤ f.blk then takeRing b l x f
          else closeRings b (ringSteps b job x f (if l.dev.split then 1 else 16) l)

/-- COLL_TIMEOUT (R305): no ring data has come for TMO µs; every item not yet done fails. -/
def execCollTimeout (job : Nat) (s : State) : Host.Outcome State Fault Refusal :=
  event s fun b l =>
    match l.job? job with
    | none => l
    | some j => if j.kind == 5 && (j.st == 1 || j.st == 2) && (CollShape.mk j.shape).tmo != 0 then l.failRest b job 0x82 0 else l

/-- STREAM_DESCRIPTOR (R301): the endpoint NI accepts the descriptor, or refuses it while it holds one for the circuit whose rows have not
all come (0x85). -/
def execStreamDescriptor (req : Nat) (s : State) : Host.Outcome State Fault Refusal :=
  event s fun b l =>
    match l.req? req with
    | none => l
    | some r =>
      match r.kind, r.dest, l.reach r with
      | .stream job, .cluster c, some l =>
        let r := { r with stage := .home }
        match l.job? job with
        | none => l.dropReq req
        | some j =>
          let cnum := handleCnum j.chd
          let held := l.dev.streams.any fun x => x.cluster == c && x.cnum == cnum && decide (x.row < x.n1 * x.n2) && (match l.job? x.job with
            | some q => handleGen q.chd == handleGen j.chd
            | none => false)
          if held then l.reply b r none 1 fun q => { q with fail := some (0x85, 0, false) }
          else
            let x : Stream := { cluster := c, cnum, job, ctx := j.ctx, base := wbits j.ga 21 0, n0 := shapeN0 j.shape, n1 := shapeN1 j.shape, n2 := shapeN2 j.shape, ds1 := j.shape.extractLsb' 256 64, ds2 := j.shape.extractLsb' 320 64, sf := j.sf }
            let l := l.map fun d => { d with streams := (d.streams.filter fun y => !(y.cluster == c && y.cnum == cnum)) ++ [x] }
            l.reply b r none 1 fun q => q
      | _, _, _ => l

/-- The address in its cluster's memory at which a stream's row begins (R297, R301). -/
def rowAddr (x : Stream) : Nat :=
  ((BitVec.ofNat 64 x.base : Word) + BitVec.ofNat 64 (x.row % x.n1) * x.ds1 + BitVec.ofNat 64 (x.row / x.n1) * x.ds2).toNat % 2 ^ 64

/-- A row of a stream has arrived: SF is applied, and it is acknowledged, together with up to seven others whose acknowledgement has not left (R301). -/
def rowDone (b : Boot) (l : Live) (x : Stream) : Live :=
  let l := if x.bad = 0 && x.sf then (granulesOf (rowAddr x) x.n0).foldl (fun l g => l.changeGranule b (clusterPa x.cluster g.1 / 16) true) l else l
  let ack := x.row * 256 + x.bad
  match l.job? x.job with
  | none => l
  | some j =>
    match l.dev.reqs.find? fun r => r.src == x.cluster && (match r.kind with
        | .rows k rows => k == x.job && decide (rows.length < 8)
        | _ => false) && (r.stage == .home || l.dev.msgs.any fun m => m.req == r.id && m.sent == 0 && m.came.isNone && !m.path.isEmpty) with
    | some r => l.onReq r.id fun r => match r.kind with
      | .rows k rows => { r with kind := .rows k (rows ++ [ack]) }
      | _ => r
    | none => l.sendOwn b x.ctx x.cluster (.rows x.job [ack]) (.cluster (j.core / 8)) 1

/-- The next bytes of a flit are written to their place in its row, those of one granule, with the check of the windows (R214, R301); all of a flit that is
marked bad are passed over. The row's first failure is kept. -/
def streamStep (b : Boot) (l : Live) (x : Stream) (f : Flit) (n : Nat) (data : BitVec 512) : Live × Stream :=
  let last := Nat.min (64 * n + 64) x.n0
  if f.bad then (l, { x with got := last, bad := if x.bad = 0 then 0xC6 else x.bad })
  else
    let a := rowAddr x + x.got
    let k := Nat.min (16 - a % 16) (last - x.got)
    let pa := clusterPa x.cluster a
    let cause := if 2 ^ 22 ≤ a || !l.ctxWindow x.ctx x.cluster a then 0x44 else if l.mem.isPoisoned (pa / 16) then 0x45 else 0
    let l := if cause = 0 then (l.chargeBytes b x.ctx pa k).store pa k (data.toNat / 2 ^ (8 * (x.got - 64 * n))) else l
    (l, { x with got := x.got + k, bad := if x.bad = 0 then cause else x.bad })

/-- Steps of a flit, until all its bytes have been dealt with. -/
def streamSteps (b : Boot) (f : Flit) (n : Nat) (data : BitVec 512) : Nat → Live → Stream → Live × Stream
  | 0, l, x => (l, x)
  | k + 1, l, x =>
    let r := streamStep b l x f n data
    if Nat.min (64 * n + 64) x.n0 ≤ r.2.got then r else streamSteps b f n data k r.1 r.2

/-- STREAM_FLIT_ARRIVE (R235, R301): the oldest delivered flit is written to its row position; without a descriptor it is discarded and counted,
beyond the descriptor's rows it is discarded and recorded (0x86). -/
def execStreamFlitArrive (cluster cnum : Nat) (s : State) : Host.Outcome State Fault Refusal :=
  event s fun b l =>
    match l.dev.flits.find? fun f => f.at_ == some (.cluster cluster) && f.cnum == cnum && !f.rev with
    | none => l
    | some f =>
      let drop := fun (l : Live) => l.map fun d => { d with flits := d.flits.filter fun x => x.id != f.id }
      match f.payload with
      | .stream job _ _ data =>
        match l.dev.streams.find? fun x => x.cluster == cluster && x.cnum == cnum && x.job == job with
        | none => (drop l).misroute b cluster
        | some x =>
          if x.n1 * x.n2 ≤ x.row then (drop l).hardRecord b x.ctx 0x86 3 0 cluster 0
          else
            let n := x.got / 64
            let w := streamSteps b f n data (if l.dev.split then 1 else 6) l x
            let y := w.2
            let whole := Nat.min (64 * n + 64) x.n0 ≤ y.got
            let full := x.n0 ≤ y.got
            let l := if full then rowDone b w.1 y else w.1
            let y := if full then { y with row := y.row + 1, got := 0, bad := 0 } else y
            let l := l.map fun d => { d with streams := d.streams.map fun z => if z.cluster == cluster && z.cnum == cnum && z.job == job then y else z }
            if whole then drop l else l
      | _ => l

/-- A row of CPYC ends, with the cause of its failure if it has one (R301). -/
def rowEnds (b : Boot) (l : Live) (job k : Nat) (cause : Option Nat) : Live :=
  match (l.job? job).bind fun j => j.items.find? fun i => i.idx == k with
  | none => l
  | some i => (cause.elim l fun c => l.onJob job fun j => j.failItem k c 0 i.dst).endItem b job k

/-- ROW_ACK (R301): a number of messages of row acknowledgements, each of up to eight, reach the copy unit, and their rows end. -/
def execRowAck (job count : Nat) (s : State) : Host.Outcome State Fault Refusal :=
  event s fun b l =>
    let acks := l.dev.reqs.filterMap fun r => match r.kind with
      | .rows j rows => if j == job && (l.reach r).isSome && !r.reported then some (r, rows) else none
      | _ => none
    (acks.take count).foldl (fun l a =>
      let l := ((l.reach a.1).getD l).dropReq a.1.id
      a.2.foldl (fun l e => rowEnds b l job (e / 256) (if e % 256 = 0 then none else some (e % 256))) l) l

/-- ENGINE_WATCHDOG (R424): an item that has made no progress for 10 ms fails, stalls excepted. -/
def execEngineWatchdog (job item : Nat) (s : State) : Host.Outcome State Fault Refusal :=
  event s fun b l =>
    match l.job? job with
    | none => l
    | some j =>
      if j.kind == 5 then (if j.st == 1 && decide (item < j.count) then l.collEnd b job item (some (0x88, 0, plainDst j item)) else l)
      else match j.items.find? fun i => i.idx == item && !i.waiting && j.st != 2 with
        | some i => (l.onJob job fun j => j.failItem item 0x88 0 i.dst).endItem b job item
        | none => l

end Sys2Proof.Machine
end

