-- ==== Sys2Proof/Machine/Kernel.lean ====
section
/-!
DEFINITION. Launch records, population, pre-emption with the save, and the restore (16_kernel.md): the operations that dispatch carries out.
-/

namespace Sys2Proof.Machine

/-- REGS of a kernel (R308). -/
def Kernel.regs (k : Kernel) : Nat := lrecField k.lrec 114 1
/-- ENTRY of a kernel (R308). -/
def Kernel.entry (k : Kernel) : Nat := lrecField k.lrec 0 8
/-- DEADLINE of a kernel (R308). -/
def Kernel.deadline (k : Kernel) : Nat := lrecField k.lrec 80 8
/-- SEED of a kernel: g1 to g8 (R308). -/
def Kernel.seeds (k : Kernel) : List Word := (List.range 8).map fun i => BitVec.ofNat 64 (lrecField k.lrec (8 + 8 * i) 8)

/-- A core is attached to a context (R332). -/
def Live.attachedCore (l : Live) (ctx core : Nat) : Bool :=
  (l.dev.ctx ctx).attached.any fun a => a.1 == core / 8 && a.2.1 / 2 ^ (core % 8) % 2 == 1

/-- The lowest-numbered cluster of a context. -/
def Ctx.lowest (c : Ctx) : Nat := c.attached.foldl (fun m a => Nat.min m a.1) 192

/-- Where a core-set list's word lies (R308): path 0x0, or path 0x2 in the context's lowest-numbered cluster (assumption 25). -/
def Live.csSpot (b : Boot) (l : Live) (ctx : Nat) (a : Word) : Option Nat :=
  if wbits a 63 48 == 0 then
    match l.fwReach b ctx a.toNat false with
    | .ok pa => some pa
    | _ => none
  else if wbits a 63 60 == 2 && wbits a 59 22 == 0 then
    let c := (l.dev.ctx ctx).lowest
    let pa := clusterPa c (wbits a 21 0)
    if l.ctxWindow ctx c (wbits a 21 0) && !l.mem.isPoisoned (pa / 16) then some pa else none
  else none

/-- The entries of a core-set list (R308). -/
def Live.csEntries (b : Boot) (l : Live) (ctx : Nat) (a : Word) : Nat → Option (List Nat)
  | 0 => some []
  | n + 1 =>
    match l.csSpot b ctx a, l.csEntries b ctx (a + 4) n with
    | some pa, some es => some (l.mem.read pa 4 :: es)
    | _, _ => none

/-- The cores an entry names, in order; those of another package by the numbers of Kernel.cores. -/
def csCores (b : Boot) (e : Nat) : List Nat :=
  ((List.range 8).filter fun i => e / 2 ^ i % 2 == 1).map fun i => (if bitsAt e 31 24 == b.pkg then 0 else 2048 * (bitsAt e 31 24 + 1)) + bitsAt e 23 16 * 8 + i

/-- An entry is legal (R308): a mask, a cluster that is present in its package, and every core of the context; what is present on another package
is not in this one's registers (assumption 1). -/
def Live.csOk (b : Boot) (l : Live) (ctx e : Nat) : Bool :=
  bitsAt e 15 8 == 0 && e % 256 != 0 &&
    (if bitsAt e 31 24 == b.pkg then b.hasCluster (bitsAt e 23 16) && (csCores b e).all (l.attachedCore ctx) else Config.farEntry e ctx)

/-- The core set of a launch record, in logical order; none if its list is not legal (R250, R308). -/
def Live.coreSet (b : Boot) (l : Live) (r : BitVec 1024) : Option (List Nat) :=
  let ctx := lrecField r 120 2
  match l.csEntries b ctx (BitVec.ofNat 64 (lrecField r 104 8)) (lrecField r 112 2) with
  | none => none
  | some es => if es.all (l.csOk b ctx) && rising (es.map (· / 65536)) then some (es.flatMap (csCores b)) else none

/-- The fields of a launch record that fail their limits, by byte offset in order (R308). -/
def lrecBad (r : BitVec 1024) (ctx owner : Nat) : List Nat :=
  let f := lrecField r
  let cs := f 104 8
  ([(0, f 0 8 % 64 == 0 && decide (f 0 8 < 2 ^ 48)),
    (88, f 88 8 % 4096 == 0 && decide (f 88 8 < 2 ^ 48)),
    (96, f 96 8 % 4096 == 0 && decide (f 96 8 < 2 ^ 48)),
    (104, cs % 4 == 0 && (decide (cs < 2 ^ 48) || decide (2 ^ 61 ≤ cs ∧ cs < 2 ^ 61 + 2 ^ 22))),
    (112, decide (1 ≤ f 112 2) && decide (f 112 2 ≤ 256)),
    (114, decide (8 ≤ f 114 1) && decide (f 114 1 ≤ 128) && f 114 1 % 8 == 0 && decide (f 117 1 * f 114 1 ≤ 1904)),
    (115, decide (f 115 1 ≤ 16)),
    (116, decide (f 116 1 + f 115 1 ≤ 16)),
    (117, decide (1 ≤ f 117 1) && decide (f 117 1 ≤ 56)),
    (118, f 118 1 == owner),
    (119, decide (f 119 1 < 8) && decide (f 119 1 % 4 < 2)),
    (120, f 120 2 == ctx),
    (122, f 122 6 == 0)].filter fun e => !e.2).map Prod.fst

/-- The byte offset at which a launch record fails, if it does: the fields in order, then the core-set list (R308). -/
def Live.lrecFault (b : Boot) (l : Live) (r : BitVec 1024) (ctx owner : Nat) : Option Nat :=
  match lrecBad r ctx owner with
  | o :: _ => some o
  | [] => if (l.coreSet b r).isNone then some 104 else none

/-- Firmware reaches every 4 KiB of an area, or one of its pages is migrating. -/
def Live.areaWaits (b : Boot) (l : Live) (ctx a n : Nat) : Bool :=
  (List.range n).any fun i => match l.fwReach b ctx (a + 4096 * i) true with
    | .wait => true
    | _ => false

/-- Zeroes the job status area of a kernel, n pieces of 4 KiB (R309). What cannot be reached stays, and the first such piece is reported, as a
job-record write that fails (R436; assumption 94). -/
def Live.zeroArea (b : Boot) (l : Live) (ctx a n : Nat) : Live :=
  let bad := (List.range n).find? fun i => match l.fwReach b ctx (a + 4096 * i) true with
    | .ok _ => false
    | _ => true
  let l := match bad with
    | some i => l.hardRecord b ctx 0x8F 5 0 0 (BitVec.ofNat 64 (a + 4096 * i))
    | none => l
  (List.range n).foldl (fun l i => match l.fwReach b ctx (a + 4096 * i) true with
    | .ok pa => l.write (.zero pa 4096)
    | _ => l) l

/-- The tile windows of two threads overlap. -/
def tilesOverlap (b1 n1 b2 n2 : Nat) : Bool := n1 != 0 && n2 != 0 && b1 < b2 + n2 && b2 < b1 + n1

/-- A core can take a kernel's threads: none there of another context, nor with overlapping tile windows (R311). -/
def Dev.coreFits (d : Dev) (k : Kernel) (core : Nat) : Bool :=
  (d.slotsOf core).all fun e => e.2.ctx == k.ctx && (e.2.knum == k.knum || !tilesOverlap e.2.tbase e.2.tsize k.tbase k.tiles)

/-- Places the launched threads on a core (R311 step 5): lowest free slots, windows by first fit. -/
def Dev.placeQuota (d : Dev) (k : Kernel) (core lt : Nat) : Nat → Option Dev
  | 0 => some d
  | n + 1 =>
    match d.freeSlot core 0 56, d.freeWindow core k.regs with
    | some s, some w => (d.placeThread (core * 64 + s) (newThread k core k.entry w k.regs lt) k.seeds).placeQuota k core (lt + 1) n
    | _, _ => none

/-- Tile registers of a kernel on a core become zero, their descriptors reset (R157, R311). -/
def Dev.zeroTiles (d : Dev) (k : Kernel) (core : Nat) : Dev :=
  { d with tiles := tclear d.tiles (tileRowKey core k.tbase 0) (k.tiles * 32)
           scales := tclear d.scales (tileRowKey core k.tbase 0) (k.tiles * 32)
           books := tclear d.books (tileKey core k.tbase) k.tiles
           descs := tclear d.descs (tileKey core k.tbase) k.tiles
           cores := tput d.cores core { d.core core with tileWrites := (d.core core).tileWrites.filter fun w =>
             let t := tileKeyOf w.area w.key % 16
             t < k.tbase || k.tbase + k.tiles ≤ t } }

/-- No thread of another kernel is on a core. -/
def Dev.aloneOn (d : Dev) (ctx knum core : Nat) : Bool := (d.slotsOf core).all fun e => e.2.ctx == ctx && e.2.knum == knum

/-- Dispatch writes CTXNUM, CMWIN and PTROOT of a core (R333, R382). -/
def Live.bindCore (l : Live) (ctx core : Nat) : Live :=
  let c := l.dev.ctx ctx
  let w := (c.attached.find? fun a => a.1 == core / 8).elim 0 fun a => a.2.2.1 * 256 + a.2.2.2
  l.onCore core fun r => { r with ctxnum := BitVec.ofNat 64 (ctx + (if c.prot then 65536 else 0)), cmwin := BitVec.ofNat 64 w, ptroot := c.ptroot }

/-- Takes the work list of a core when it has no holder (R255). -/
def Dev.takeList (d : Dev) (ctx knum core : Nat) : Dev :=
  if (tget d.work {} core).holder.isSome then d else { d with work := tput d.work core { holder := some (ctx, knum) } }

/-- POPULATE_CORE (R311): one core; none when it lacks the resources. -/
def Live.populateCore (l : Live) (k : Kernel) (core : Nat) : Option Live :=
  if !l.dev.coreFits k core then none
  else
    let alone := l.dev.aloneOn k.ctx k.knum core
    match l.dev.placeQuota k core 0 k.quota with
    | none => none
    | some d =>
      let d := (d.zeroTiles k core).takeList k.ctx k.knum core
      let d := if alone then { d with cregs := tclear d.cregs (core * 16) 16 } else d
      let l := ({ l with dev := d }.onCore core fun r => { r with icache := [], code := l.mem.cells, late := [] }).onCluster (core / 8) fun c => { c with robuf := [] }
      some ((l.bindCore k.ctx core).map fun d => d.onKernel k.ctx k.knum fun k => { k with populated := k.populated + 1 })

/-- Threads of a kernel leave their slots with nothing counted: their windows become zero (R106, R109). -/
def Dev.dropThreads (d : Dev) (ctx knum : Nat) (p : Nat → Bool) : Dev :=
  (d.threads.filter fun e => e.1 % 64 != 63 && e.2.ctx == ctx && e.2.knum == knum && e.2.st != .free && p (e.1 / 64)).foldl (fun d e =>
    (d.zeroWindow (e.1 / 64) e.2.wbase e.2.wsize).freeThread e.1) d

/-- The place of a heap entry in heap order (R325). -/
def HeapEntry.before (x y : HeapEntry) : Bool :=
  x.deadline < y.deadline || (x.deadline == y.deadline && (x.queue < y.queue || (x.queue == y.queue && x.ring < y.ring)))

/-- Inserts an entry in heap order; one whose kernel is already there changes nothing (R327). -/
def heapInsert (h : List HeapEntry) (e : HeapEntry) : List HeapEntry :=
  if h.any fun x => x.ctx == e.ctx && x.knum == e.knum then h
  else (h.filter fun x => x.before e) ++ e :: h.filter fun x => !x.before e

/-- A kernel's heap entry. -/
def Kernel.heapEntry (k : Kernel) : HeapEntry :=
  { deadline := k.deadline, queue := k.queue, ring := k.ring, ctx := k.ctx, knum := k.knum, owner := k.owner, cores := k.cores, surplus := k.surplus }

/-- Changes the scheduler. -/
def Live.onSched (l : Live) (f : Sched → Sched) : Live := l.map fun d => { d with sched := f d.sched }

/-- A kernel no longer holds its cores for the scheduler. -/
def Live.unbind (l : Live) (ctx knum : Nat) : Live := l.onSched fun s => { s with bound := s.bound.filter (· != (ctx, knum)) }

/-- The phasers that a kernel holds: unit and IDX. -/
def Live.phasersOf (l : Live) (ctx knum : Nat) : List (Nat × Phaser) :=
  l.dev.phasers.filter fun e => e.2.st == 1 && e.2.ctx == ctx && e.2.knum == knum

/-- What a kernel holds on its cores is given up: its threads, lists, gangs with their slices, phasers (R257, R266, R309). -/
def Live.giveUp (l : Live) (k : Kernel) : Live :=
  let mine := fun (g : Nat × Gang) => g.2.ctx == k.ctx && g.2.knum == k.knum
  let gangs := l.dev.gangs.filter mine
  let l := l.map fun d =>
    let d := d.dropThreads k.ctx k.knum fun _ => true
    { d with gangs := d.gangs.filter fun g => !mine g
             work := d.work.filter fun w => w.2.holder != some (k.ctx, k.knum)
             phasers := (l.phasersOf k.ctx k.knum).foldl (fun (t : Table Phaser) (p : Nat × Phaser) => tput t p.1 { gen := (p.2.gen + 1) % 65536 }) d.phasers }
  gangs.foldl (fun l g => ((gangCores g.1 g.2.n).foldl (fun l c => l.clearSlice c) l).unlockClocks (gangCores g.1 g.2.n)) l

/-- A bind that lacks resources is released: the kernel is SUBMITTED again, and the cores populated are cleared of all that it put and did there
(R311). -/
def Live.releaseBind (l : Live) (k : Kernel) : Live :=
  let mine := fun (tid : Nat) => tid % 64 != 63 && (l.dev.thread tid).of k.ctx k.knum
  let on := k.cores.take k.populated
  let l := (l.dev.reqs.filter fun r => mine r.tid || (r.ctx == k.ctx && (match r.kind with
    | .phaser _ _ _ _ => r.va.toNat == k.knum
    | .spawn t _ _ _ _ _ => t.knum == k.knum
    | _ => false))).foldl (fun l r => (l.dropMsgs r.id).dropReq r.id) l
  let l := on.foldl (fun l c => l.map fun d =>
    let d := d.zeroTiles k c
    if d.aloneOn k.ctx k.knum c then { d with cregs := tclear d.cregs (c * 16) 16 } else d) l
  let l := (l.giveUp k).map fun d =>
    { d with jobs := d.jobs.filter fun j => !(j.2.ctx == k.ctx && j.2.knum == k.knum)
             clusters := d.clusters.map fun e => (e.1, { e.2 with moves := e.2.moves.filter fun m => !(m.ctx == k.ctx && m.knum == k.knum) }) }
  let l := l.map fun d => d.onKernel k.ctx k.knum fun k =>
    { k with st := 0, populated := 0, nextLt := [], released := [], nextJid := [], epochs := [], ntrap := 0, wldisc := 0, jfail := 0, cause := 0 }
  (l.unbind k.ctx k.knum).onSched fun s => { s with heap := heapInsert s.heap k.heapEntry }

/-- Every copy job of a kernel that has not ended is SAVED; begun items complete (R295). -/
def Live.saveJobs (b : Boot) (l : Live) (ctx knum : Nat) : Live :=
  l.dev.jobs.foldl (fun l e =>
    if e.2.ctx == ctx && e.2.knum == knum && !e.2.queue.isColl && decide (e.2.st ≤ 2) then l.setJob b e.1 fun j => { j with st := 6 } else l) l

/-- Bytes of a thread record (R315). -/
def Kernel.trBytes (k : Kernel) : Nat := (160 + 8 * Nat.max k.regs 16 + 63) / 64 * 64

/-- Bytes of a core block (R315). -/
def Kernel.cbBytes (k : Kernel) : Nat := 1024 + 63 * k.trBytes + k.tiles * 17472 + 143552

/-- NCLU (R308). -/
def Kernel.nclu (k : Kernel) : Nat := k.clusters.length

/-- Address of a core block (R315). -/
def Kernel.coreBlock (k : Kernel) (lc : Nat) : Nat := k.savea + 4096 * (k.nclu + 1) + k.cbBytes * lc

/-- Entries of a table from a key on, counted from it. -/
def tslice {α : Type} (t : Table α) (lo n : Nat) : Table α :=
  (t.filter fun e => decide (lo ≤ e.1) && decide (e.1 < lo + n)).map fun e => (e.1 - lo, e.2)

/-- Puts such entries back from a key on. -/
def tpaste {α : Type} (t : Table α) (lo : Nat) (s : Table α) : Table α := s.foldl (fun t e => tput t (lo + e.1) e.2) t

/-- The bytes of a run of entries of so many bytes each, as one number. -/
def tableBytes {w : Nat} (t : Table (BitVec w)) (bytes : Nat) : Nat := t.foldl (fun v e => v + e.2.toNat * 2 ^ (8 * bytes * e.1)) 0

/-- A list of words as one number. -/
def wordsValue (ws : List Word) : Nat := ws.foldr (fun w v => w.toNat + 2 ^ 64 * v) 0

/-- The fields of a thread record whose places the spec gives: offset, bytes, value (R315). free gives the others (assumption 24). -/
def SavedThread.pieces (s : SavedThread) (free : Nat → Nat) : List (Nat × Nat × Nat) :=
  let t := s.thread
  [(0, 8, t.pc.toNat), (8, 8, (t.status ||| if s.guest then 0x400000 else 0).toNat), (16, 8, t.rng.toNat), (24, 8, t.faultInfo.toNat), (32, 8, (t.join.getD 0).toNat),
   (40, 8, t.fpmode.toNat), (48, 8, t.lthread), (56, 8, free 0),
   (64, 16, t.k0.toNat), (80, 16, t.k1.toNat), (96, 16, t.k2.toNat), (112, 16, t.k3.toNat), (128, 16, (~~~t.absent).toNat), (144, 16, free 1),
   (160, 8 * t.wsize, 2 ^ 64 * wordsValue s.regs)]

/-- The fields of a core block whose places the spec gives (R315). -/
def SavedCore.pieces (s : SavedCore) (k : Kernel) (ts : List SavedThread) (free : Nat → Nat) : List (Nat × Nat × Nat) :=
  let tile := 1024 + 63 * k.trBytes
  let slice := tile + 17472 * k.tiles
  let work := s.work.getD {}
  [(0, 128, wordsValue s.cregs), (128, 8, free 0), (136, 8, ts.length), (512, 512, wordsValue work.items)] ++
  ts.zipIdx.flatMap (fun e => (e.1.pieces fun i => free (2 + 2 * e.2 + i)).map fun p => (1024 + k.trBytes * e.2 + p.1, p.2)) ++
  (List.range k.tiles).flatMap (fun i =>
    [(tile + 17472 * i, 16384, tableBytes (tslice s.tiles (32 * i) 32) 512), (tile + 17472 * i + 16384, 1024, tableBytes (tslice s.scales (32 * i) 32) 32),
     (tile + 17472 * i + 17408, 32, (tget s.books 0 i).toNat), (tile + 17472 * i + 17440, 8, (tget s.descs descReset i).toNat)]) ++
  [(slice, 4096, tableBytes s.accs 4),
   (slice + 4096, 65536, tableBytes s.bank0.data 512), (slice + 69632, 4096, tableBytes s.bank0.scales 32),
   (slice + 73728, 65536, tableBytes s.bank1.data 512), (slice + 139264, 4096, tableBytes s.bank1.scales 32),
   (slice + 143360, 192, free 1)]

/-- Writes pieces of a save area from an address. -/
def Live.writePieces (b : Boot) (l : Live) (ctx a : Nat) (ps : List (Nat × Nat × Nat)) : Live :=
  ps.foldl (fun l p => l.fwWrite b ctx (a + p.1) p.2.2 p.2.1) l

/-- A bank as the save holds it: a sealed one is zeroed, but for its descriptor (R358). -/
def Bank.saved (k : Bank) : Bank :=
  if k.sealed then { k with data := [], scales := [] } else k

/-- A slice's state belongs to a kernel: no gang of another kernel holds the core. -/
def Dev.ownsSlice (d : Dev) (ctx knum core : Nat) : Bool :=
  match d.gangAt core with
  | some (_, g) => g.ctx == ctx && g.knum == knum
  | none => true

/-- What a core block holds (R315). -/
def Dev.saveCore (d : Dev) (k : Kernel) (lc core : Nat) : SavedCore :=
  let w := tget d.work {} core
  let own := d.ownsSlice k.ctx k.knum core
  { lc
    cregs := (List.range 16).map fun i => tget d.cregs 0 (core * 16 + i)
    work := if w.holder == some (k.ctx, k.knum) then some w else none
    tiles := tslice d.tiles (tileRowKey core k.tbase 0) (k.tiles * 32)
    scales := tslice d.scales (tileRowKey core k.tbase 0) (k.tiles * 32)
    books := tslice d.books (tileKey core k.tbase) k.tiles
    descs := tslice d.descs (tileKey core k.tbase) k.tiles
    slice := if own then d.slice core else {}
    accs := if own then tslice d.accs (accKey core 0 0 0) 1024 else []
    bank0 := if own then (d.bank core 0).saved else {}
    bank1 := if own then (d.bank core 1).saved else {}
    code := (d.core core).code }

/-- The threads of a kernel on a core as they are saved, in slot order (R314, R315). -/
def Dev.saveThreads (d : Dev) (k : Kernel) (lc core : Nat) : List SavedThread :=
  ((d.slotsOf core).filter fun e => e.2.ctx == k.ctx && e.2.knum == k.knum).map fun e =>
    { lc, tid := e.1, thread := { e.2 with flight := .none }, regs := d.windowRegs e.1 e.2.wsize, guest := isGuestSlot (e.1 % 64),
      trapped := match e.2.st with
        | .trapped => true
        | .halted t => t
        | _ => false }

/-- A kernel's save record. -/
def Dev.save? (d : Dev) (ctx knum : Nat) : Option Saved := d.saves.find? fun s => s.ctx == ctx && s.knum == knum

/-- Changes a kernel's save record, which begins empty. -/
def Dev.onSave (d : Dev) (ctx knum : Nat) (f : Saved → Saved) : Dev :=
  { d with saves := f ((d.save? ctx knum).getD { ctx, knum }) :: d.saves.filter fun s => !(s.ctx == ctx && s.knum == knum) }

/-- A request concerns a kernel: one of its threads waits for it or is its target (R111, R314). -/
def Live.concerns (l : Live) (ctx knum : Nat) (r : Req) : Bool :=
  let mine := fun (tid : Nat) => match tfind l.dev.threads tid with
    | some t => tid % 64 != 63 && t.of ctx knum
    | none => false
  r.ctx == ctx && (match r.kind with
    | .phaser _ _ _ _ => r.va.toNat == knum
    | .spawn t _ _ _ _ _ => t.knum == knum
    | .joinMsg target _ => mine target
    | .rput target _ _ _ => mine target || mine r.tid
    | _ => mine r.tid)

/-- Nothing of a kernel is under way: accesses, messages, moves of its work-list entries, begun MMAs (R111, R274, R314). -/
def Live.quiet (l : Live) (ctx knum : Nat) : Bool :=
  !l.dev.reqs.any (l.concerns ctx knum) &&
    !l.dev.clusters.any (fun c => c.2.moves.any fun m => m.ctx == ctx && m.knum == knum) &&
    !l.dev.gangs.any (fun g => g.2.ctx == ctx && g.2.knum == knum && !g.2.mmas.isEmpty)

/-- A thread has stopped and nothing of it is to arrive (R111). -/
def Thread.still (t : Thread) : Bool :=
  !t.landing && t.flight == .none && (match t.st with
    | .halted _ => true
    | .trapped => true
    | .ready => true
    | .parked _ => true
    | _ => false)

/-- Every thread of a kernel on some cores has stopped. -/
def Dev.stillOn (d : Dev) (ctx knum : Nat) (p : Nat → Bool) : Bool :=
  d.threads.all fun e => e.1 % 64 == 63 || !e.2.of ctx knum || !p (e.1 / 64) || e.2.still

/-- What is left of a kernel's save once it has been restored is dropped. -/
def Live.dropSave (l : Live) (ctx knum : Nat) : Live :=
  l.map fun d => { d with saves := d.saves.filter fun s => !(s.ctx == ctx && s.knum == knum) }

/-- A saved kernel that is not to be restored: the entries of its saved lists are discarded and counted (R257, R317), and the GEN of each of its
saved phasers increments (R263, R266). -/
def Live.discardSave (l : Live) (ctx knum : Nat) : Live :=
  match l.dev.save? ctx knum, l.dev.kernel? ctx knum with
  | some s, some k =>
    let lists := (s.cores.map fun c => (c.work.elim 0 fun w => w.items.length)).sum
    let bump := fun (t : Table Phaser) (p : Nat × Nat × Phaser) =>
      let key := k.clusters.getD p.1 0 * 32 + p.2.1
      let cur := tget t {} key
      if cur.st == 0 then tput t key { gen := (cur.gen + 1) % 65536 } else t
    (l.map fun d => { d.onKernel ctx knum fun k => { k with wldisc := k.wldisc + lists } with phasers := s.phasers.foldl bump d.phasers }).dropSave ctx knum
  | _, _ => l.dropSave ctx knum

/-- A kernel whose save or restore has failed, or that waited for its save to end, is ENDING (R310, R315). -/
def Live.endSaved (l : Live) (ctx knum : Nat) : Live :=
  (l.map fun d => (d.onKernel ctx knum fun k => { k with st := 4, endAfter := false }).endKernel ctx knum).discardSave ctx knum

/-- The rest of a save (R310, R315): phasers, gangs, the launch record; the kernel is SAVED and hands its cores back. -/
def Live.saveRest (b : Boot) (l : Live) (k : Kernel) : Live :=
  let n := 4096 * (k.nclu + 1)
  match l.fwReachAll b k.ctx k.savea true (n / 16 - 1) with
  | .wait => l
  | .fail _ => (l.hardRecord b k.ctx 0xE8 5 0 0 (BitVec.ofNat 64 k.savea)).endSaved k.ctx k.knum
  | .ok _ =>
    let ps : List (Nat × Phaser) := l.phasersOf k.ctx k.knum
    let l := l.fwWrite b k.ctx k.savea k.lrec.toNat 128
    let l := ps.foldl (fun l p =>
      let v := Config.saveBytes l.dev.tick
      (l.fwWrite b k.ctx (k.savea + 4096 + 4096 * k.lcluOf (p.1 / 32) + 16 * (p.1 % 32)) v 16).map fun d => { d with tick := d.tick + 1 }) l
    let image := (k.savea, n, l.fwRead b k.ctx k.savea n)
    let gangs := (l.dev.gangs.filter fun g => g.2.ctx == k.ctx && g.2.knum == k.knum)
    let l := l.map fun d =>
      let d := d.onSave k.ctx k.knum fun s =>
        { s with phasers := ps.map (fun (p : Nat × Phaser) => (k.lcluOf (p.1 / 32), p.1 % 32, p.2)), gangs := gangs.map (fun g => (k.lcOf g.1, { g.2 with st := if g.2.st == 2 then 4 else g.2.st })), image := s.image ++ [image] }
      let d := { d with phasers := ps.foldl (fun (t : Table Phaser) (p : Nat × Phaser) => tput t p.1 { gen := p.2.gen }) d.phasers
                        gangs := d.gangs.filter fun g => !(g.2.ctx == k.ctx && g.2.knum == k.knum) }
      d.onKernel k.ctx k.knum fun k => { k with st := 4 }
    let l := gangs.foldl (fun l g => if g.2.st == 2 then l.unlockClocks (gangCores g.1 g.2.n) else l) l
    let l := l.unbind k.ctx k.knum
    if k.endAfter then l.endSaved k.ctx k.knum else l

/-- A pre-emption request (R310, R314): a kernel that runs or is populated halts; one that drains is SAVED with its copy jobs, as soon as nothing of
it is under way (R274). -/
def Live.preempt (b : Boot) (l : Live) (ctx knum : Nat) : Live :=
  match l.dev.kernel? ctx knum with
  | none => l
  | some k =>
    if k.st == 1 || k.st == 2 then
      (l.map fun d => (d.onKernel ctx knum fun k => { k with st := 3 }).haltKernel ctx knum).saveJobs b ctx knum
    else if k.st == 5 then
      let l := l.saveJobs b ctx knum
      if l.quiet ctx knum then l.saveRest b k
      else l.map fun d => d.onKernel ctx knum fun k => { k with st := 3, saved := List.range k.populated }
    else l

/-- Deferred faults that are due in halted threads of a kernel, on cores that a test selects, are taken: no instruction of theirs issues before
the save or the end (R222, R414, R420; assumption 104). -/
def Live.takeDue (b : Boot) (l : Live) (ctx knum : Nat) (p : Nat → Bool) : Live :=
  l.dev.threads.foldl (fun l e => match e.2.deferred with
    | some f => if e.2.of ctx knum && e.1 % 64 != 63 && p (e.1 / 64) then takeDeferred b l e.1 f else l
    | none => l) l

/-- A core's save (R314, R315): its block is written, windows and tile registers become zero, slots are FREE, the work list loses its holder. -/
def Live.saveCore (b : Boot) (l : Live) (k : Kernel) (lc core : Nat) : Live :=
  let a := k.coreBlock lc
  match l.fwReachAll b k.ctx a true (k.cbBytes / 16 - 1) with
  | .wait => l
  | .fail _ => (l.hardRecord b k.ctx 0xE8 5 0 0 (BitVec.ofNat 64 a)).endSaved k.ctx k.knum
  | .ok _ =>
    let l := (l.landTiles core fun _ => true).takeDue b k.ctx k.knum (· == core)
    let ts := l.dev.saveThreads k lc core
    let sc := l.dev.saveCore k lc core
    let tick := l.dev.tick
    let l := l.writePieces b k.ctx a (sc.pieces k ts fun i => Config.saveBytes (tick + i))
    let image := (a, k.cbBytes, l.fwRead b k.ctx a k.cbBytes)
    let own := l.dev.ownsSlice k.ctx k.knum core
    let l := l.map fun d =>
      let d := d.onSave k.ctx k.knum fun s => { s with threads := s.threads ++ ts, cores := s.cores ++ [sc], image := s.image ++ [image] }
      let d := (d.dropThreads k.ctx k.knum (· == core)).zeroTiles k core
      let d := if (tget d.work {} core).holder == some (k.ctx, k.knum) then { d with work := tdel d.work core } else d
      { (d.onKernel k.ctx k.knum fun k => { k with saved := sinsert k.saved lc }) with tick := tick + 2 + 2 * ts.length }
    if own then l.clearSlice core else l

/-- The save area holds what the save wrote (R315). -/
def Live.saveIntact (b : Boot) (l : Live) (k : Kernel) (s : Saved) : Bool :=
  s.image.all fun p => (match l.fwReachAll b k.ctx p.1 false (p.2.1 / 16 - 1) with
    | .ok _ => true
    | _ => false) && l.fwRead b k.ctx p.1 p.2.1 == p.2.2

/-- Where a saved thread goes on a core: the lowest free slot of its sort, its window as R106 (R316). -/
def Dev.restorePlace (d : Dev) (core : Nat) (s : SavedThread) : Option (Nat × Nat) :=
  if s.guest then (d.freeSlot core 56 7).map fun sl => (core * 64 + sl, 1904 + 16 * (sl - 56))
  else match d.freeSlot core 0 56, d.freeWindow core s.thread.wsize with
    | some sl, some w => some (core * 64 + sl, w)
    | _, _ => none

/-- A record of a thread's trap has still to be written, after which the thread resumes (R313). -/
def Dev.resumePending (d : Dev) (s : SavedThread) : Bool :=
  (d.collector s.thread.ctx).queue.any fun r => r.resume == some s.tid && r.knum == s.thread.knum && r.lt == s.thread.lthread

/-- Restores the threads of a save on a kernel's new cores (R316); the new slot of each old one, or none when a core lacks resources. -/
def Dev.restoreThreads (d : Dev) (k : Kernel) : List SavedThread → List (Nat × Nat) → Option (Dev × List (Nat × Nat))
  | [], m => some (d, m)
  | s :: rest, m =>
    let core := k.cores.getD s.lc 0
    match d.restorePlace core s with
    | none => none
    | some (tid, w) =>
      let cause := wbits s.thread.faultInfo 7 0
      let done := s.trapped && (cause == 6 || cause == 7) && k.fpol / 4 % 2 == 1 && !d.resumePending s
      let t := k.number core { s.thread with wbase := w, busy := 0, hold := none, toGang := 0, st := if s.trapped && !done then .trapped else .ready }
      let t := if done then { t with pc := t.resumeAt.getD t.pc, resumeAt := none } else t
      (d.placeThread tid t s.regs).restoreThreads k rest (m ++ [(s.tid, tid)])

/-- Restores a core block but for its threads (R316). -/
def Dev.restoreCore (d : Dev) (k : Kernel) (alone : Bool) (s : SavedCore) : Dev :=
  let core := k.cores.getD s.lc 0
  let d := if alone then { d with cregs := s.cregs.zipIdx.foldl (fun t e => tset t 0 (core * 16 + e.2) e.1) d.cregs } else d
  let d := d.zeroTiles k core
  let d := { d with
    tiles := tpaste d.tiles (tileRowKey core k.tbase 0) s.tiles
    scales := tpaste d.scales (tileRowKey core k.tbase 0) s.scales
    books := tpaste d.books (tileKey core k.tbase) s.books
    descs := tpaste d.descs (tileKey core k.tbase) s.descs }
  let d := match s.work with
    | none => d
    | some w => if (tget d.work {} core).holder.isSome then d.onKernel k.ctx k.knum fun k => { k with wldisc := k.wldisc + w.items.length }
                else { d with work := tput d.work core w }
  if d.ownsSlice k.ctx k.knum core then
    { d with slices := tset d.slices {} core s.slice
             accs := tpaste (tclear d.accs (accKey core 0 0 0) 1024) (accKey core 0 0 0) s.accs
             banks := tset (tset d.banks {} (core * 2) s.bank0) {} (core * 2 + 1) s.bank1 }
  else d

/-- Where one granule of a sealed tensor lies when a replay reads it (R351, R358). -/
def Live.sealedSpot (b : Boot) (l : Live) (ctx va : Nat) : Option Nat :=
  match l.walk b ctx va with
  | .leaf pte big =>
    if pteTier pte = 0 || pteVerdict pte 5 0x66 != .ok then none
    else
      let pa := leafPa pte big va
      if (paHome b pa).isNone || l.mem.isPoisoned (pa / 16) then none else some pa
  | _ => none

/-- The parts of a run of granules of a sealed tensor; none when one cannot be reached. -/
def Live.sealedParts (b : Boot) (l : Live) (ctx va : Nat) (offs : List (Nat × Nat)) : Option (List Part) :=
  let ps := offs.map fun o => (l.sealedSpot b ctx (va + o.1), o.2)
  if ps.all fun p => p.1.isSome then some (ps.map fun p => { pa := p.1.getD 0, n := p.2 }) else none

/-- SEALED_REPLAY (R358): a saved sealed bank is LOADING again, and its reads set out; one that cannot be read is FAILED and its gang traps. -/
def Live.replayBank (b : Boot) (l : Live) (k : Kernel) (core n : Nat) : Live :=
  let bank := l.dev.bank core n
  match bank.sealed, bank.desc with
  | true, some (a, ctl, blk) =>
    let va := wbits a 47 0
    let fail := fun (l : Live) => sealedBankFail b l core n true 0x6B a
    match tfind (l.dev.ctx k.ctx).keyW (ctlKe ctl), l.sealedParts b k.ctx va (granulesOf 0 128) with
    | some _, some hp =>
      let h : SealHeader := ⟨readParts l hp⟩
      match l.sealedParts b k.ctx va (chunkGranules h.nstep blk.toNat (wbits ctl 47 16) (ctlCount ctl)) with
      | none => fail l
      | some ps =>
        let l := l.setBank core n { bank with st := 1, valid := 0 }
        (l.addReq fun id => { id, kind := .chunks core n true (ctlKe ctl) (ctlFirst ctl) (ctlCount ctl) (wbits ctl 47 16) h.nstep blk.toNat a
                              tid := noThread, ctx := k.ctx, pc := 0, va := a, cls := .plain, parts := hp ++ ps, src := core / 8, dest := .cluster (core / 8) }).2
    | _, _ => fail l
  | _, _ => l

/-- Copies 4 KiB with the states of its granules. -/
def Live.copyBlock (l : Live) (dst src : Nat) : Live :=
  (List.range 256).foldl (fun l i => l.setFull (dst / 16 + i) (l.mem.isFull (src / 16 + i))) (l.store dst 4096 (l.mem.read src 4096))

/-- A spilled window returns to a cluster where the context holds none (R347). -/
def Live.unspill (b : Boot) (l : Live) (ctx old new : Nat) : Live :=
  let c := l.dev.ctx ctx
  match c.spilled.find? fun s => s.1 == old with
  | none => l
  | some (_, _, base, size) =>
    let off := tget c.offs 0 old
    let l := (List.range (16 * size)).foldl (fun l i => match l.fwReach b ctx (c.spill.toNat + 65536 * off + 4096 * i) false with
      | .ok pa => l.copyBlock (clusterPa new (65536 * base + 4096 * i)) pa
      | _ => l) l
    l.onCtx ctx fun c => { c with spilled := c.spilled.filter (fun s => s.1 != old), offs := tput (tdel c.offs old) new off
                                  attached := c.attached.map fun a => if a.1 == new then (new, a.2.1, base, size) else a }

/-- Restores a kernel's gangs, phasers and copy jobs on its new cores (R206, R266, R295). m maps old slots to new ones. -/
def Live.restoreRest (b : Boot) (l : Live) (k : Kernel) (old : Kernel) (s : Saved) (m : List (Nat × Nat)) : Live :=
  let new := fun (tid : Nat) => (m.find? fun e => e.1 == tid).elim tid Prod.snd
  let l := s.gangs.foldl (fun l g =>
    let head := k.cores.getD g.1 0
    let l := l.map fun d => { d with gangs := tput d.gangs head { g.2 with st := if g.2.st == 4 then 2 else g.2.st, threads := g.2.threads.map fun p => (p.1, new p.2) } }
    if g.2.st == 4 then l.lockClocks (gangCores head g.2.n) else l) l
  let l := l.map fun d => { d with
    phasers := s.phasers.foldl (fun t p => tput t (k.clusters.getD p.1 0 * 32 + p.2.1) p.2.2) d.phasers
    collectors := d.collectors.map fun e => (e.1, { e.2 with queue := e.2.queue.map fun r =>
      if r.ctx == k.ctx && r.knum == k.knum then { r with resume := r.resume.map new } else r }) }
  l.dev.jobs.foldl (fun l e =>
    if e.2.ctx == k.ctx && e.2.knum == k.knum && e.2.st == 6 then
      let c := k.clusters.getD e.2.lclu 0
      l.setJob b e.1 fun j => { j with st := 0, queue := .copy c, core := k.cores.getD (old.lcOf j.core) (8 * c) }
    else l) l

/-- The restore of R316, in one step, as no thread issues until every core is restored. None when a core lacks the resources (R311). -/
def Live.restore (b : Boot) (l : Live) (k : Kernel) (cores : List Nat) : Option Live :=
  let s := (l.dev.save? k.ctx k.knum).getD { ctx := k.ctx, knum := k.knum }
  if !l.saveIntact b k s then some ((l.hardRecord b k.ctx 0xE9 5 0 0 (BitVec.ofNat 64 k.savea)).endSaved k.ctx k.knum)
  else
    let k' := { k with cores, st := 1, saved := [], restored := true }
    let used := s.cores.map fun c => cores.getD c.lc 0
    let taken := s.phasers.any fun p => (tget l.dev.phasers {} (k'.clusters.getD p.1 0 * 32 + p.2.1)).st != 0
    let alone := used.filter fun c => l.dev.aloneOn k.ctx k.knum c
    if taken || !used.all fun c => l.dev.coreFits k c then none
    else
      match l.dev.restoreThreads k' s.threads [] with
      | none => none
      | some (d, m) =>
        let pairs := distinct (k.cores.map (· / 8)) |>.zip (distinct (cores.map (· / 8)))
        let d : Dev := d.onKernel k.ctx k.knum fun _ => k'
        let l := { l with dev := s.cores.foldl (fun d (c : SavedCore) => d.restoreCore k' (alone.contains (cores.getD c.lc 0)) c) d }
        let l := pairs.foldl (fun l p => if p.1 == p.2 then l else l.unspill b k.ctx p.1 p.2) l
        let l := used.foldl (fun l c => ((l.onCore c fun r => { r with icache := [], code := (s.cores.find? fun x => cores.getD x.lc 0 == c).elim r.code SavedCore.code, late := [] }).onCluster (c / 8) fun r => { r with robuf := [] }).bindCore k.ctx c) l
        let l := (l.restoreRest b k' k s m).dropSave k.ctx k.knum
        let l := used.foldl (fun l c => (l.replayBank b k' c 0).replayBank b k' c 1) l
        some (if k'.populated < cores.length then l
              else l.map fun d => (d.onKernel k.ctx k.knum fun k => { k with st := if k.st == 1 then 2 else k.st }).drainKernel k.ctx k.knum)

end Sys2Proof.Machine
end

