-- ==== Sys2Proof/Machine/Drain.lean ====
section
/-!
DEFINITION. How a context is drained (R340, R345, R349), and the end of a recall (R347).
-/

namespace Sys2Proof.Machine

/-- The numbers of a context's circuits that are not FREE (R289). -/
def Live.openCircuits (l : Live) (ctx : Nat) : List Nat :=
  (l.dev.circuits.filter fun e => e.2.ctx == ctx && e.2.st != 5).map Prod.fst

/-- The security core on G0 asks the connection manager to close every circuit of a context (R349). -/
def Live.closeCircuits (b : Boot) (l : Live) (ctx : Nat) : Live :=
  (l.openCircuits ctx).foldl (fun l n =>
    let c := l.circuit n
    if c.st == 4 then l else l.sendOwn b ctx 192 (.circuit 2 (c.handle n 0) 0 n 0 0) (.gateway 1 38) 1) l

/-- A context enters DRAINING (R349): queues disabled, submitted packets dropped from the heap, circuits closed. -/
def Live.beginDrain (b : Boot) (l : Live) (ctx : Nat) : Live :=
  let l := l.dev.sched.queues.foldl (fun l q => if q.2.en && q.2.ctx == ctx then l.writeQcfg b q.1 0 else l) l
  let l := l.onSched fun s => { s with heap := s.heap.filter fun h => h.ctx != ctx }
  ((l.onCtx ctx fun c => { c with st := 6, rekey := none, destroy := false }).closeCircuits b ctx).retestQueues

/-- DESTROY or an expired suspension (R349): every kernel ends as under KEND, every job is cancelled. -/
def Live.drainContext (b : Boot) (l : Live) (ctx : Nat) : Live :=
  let l := l.dev.kernels.foldl (fun l k => if k.ctx == ctx && k.st != 7 then l.map fun d => d.endKernel ctx k.knum else l) l
  let l := l.dev.jobs.foldl (fun l j => if j.2.ctx == ctx && !j.2.ended then l.cancelJob b j.1 else l) l
  l.beginDrain b ctx

/-- A context is trapped (R340, R345): its threads halt and none is saved, its jobs end FAILED, injection stops, and it drains. -/
def Live.trapContext (b : Boot) (l : Live) (ctx : Nat) : Live :=
  let ks := (l.dev.kernels.filter fun k => k.ctx == ctx && k.st != 7).map Kernel.knum
  let l := l.map fun d => ks.foldl (fun d n => (d.onKernel ctx n fun k => { k with st := 6, end_ := 2, endAfter := false }).haltKernel ctx n) d
  let l := ks.foldl (fun l n => l.discardSave ctx n) l
  let l := l.dev.jobs.foldl (fun l j => if j.2.ctx == ctx && !j.2.ended then l.killJob b j.1 else l) l
  let l := l.map fun d => { d with copies := d.copies.map fun e => if e.2.ctx == ctx then (e.1, { e.2 with slots := [], rslots := [] }) else e }
  l.beginDrain b ctx

/-- A context may be trapped or destroyed: it is neither FREE nor drained already. -/
def Ctx.lives (c : Ctx) : Bool := c.st != 0 && c.st != 6 && c.st != 7

/-- Copies a window to the spill area, 4 KiB at a time (R347); the cause of a failure, if there is one. -/
def Live.spillWindow (b : Boot) (l : Live) (ctx cluster base size : Nat) : Except Nat Live :=
  let c := l.dev.ctx ctx
  let a := c.spill.toNat + 65536 * tget c.offs 0 cluster
  (List.range (16 * size)).foldl (fun r i => match r with
    | .error e => .error e
    | .ok l => match l.fwReach b ctx (a + 4096 * i) true with
      | .ok pa => .ok (l.copyBlock pa (clusterPa cluster (65536 * base + 4096 * i)))
      | .wait => .error 0
      | .fail e => .error e) (.ok l)

/-- A circuit of a context begins or ends in a cluster. -/
def Circuit.touches (b : Boot) (c : Circuit) (ctx cluster : Nat) : Bool :=
  c.ctx == ctx && c.st != 5 && (c.src == cluster || (epKind c.entry == 0 && epPkg c.entry == b.pkg && epUnit c.entry == cluster))

/-- Everything that cores of a context hold becomes zero (R347): registers, tiles, slices, caches, TLB entries. -/
def Live.zeroCores (l : Live) (ctx : Nat) (cores : List Nat) : Live :=
  cores.foldl (fun l c =>
    let l := l.map fun d => { d with
      regs := tclear d.regs (c * 2048) 2048
      cregs := tclear d.cregs (c * 16) 16
      tiles := tclear d.tiles (tileRowKey c 0 0) 512
      scales := tclear d.scales (tileRowKey c 0 0) 512
      books := tclear d.books (tileKey c 0) 16
      descs := tclear d.descs (tileKey c 0) 16 }
    let l := (l.clearSlice c).onCore c fun r => { r with ctxnum := 0, cmwin := 0, ptroot := 0, icache := [], code := [], late := [], tileWrites := [], held := [], past := [] }
    (l.flushCluster (c / 8) fun e => e.ctx == ctx).onCluster (c / 8) fun r => { r with robuf := r.robuf.filter fun e => e.1 != ctx }) l

/-- The recall of one context from a cluster (R347 steps 3 to 6); none when it must wait. -/
def Live.evictContext (b : Boot) (l : Live) (ctx cluster : Nat) : Option Live :=
  match (l.dev.ctx ctx).attached.find? fun a => a.1 == cluster with
  | none => some l
  | some (_, mask, base, size) =>
    match l.spillWindow b ctx cluster base size with
    | .error 0 => none
    | .error c => some ((l.ctxRecord b ctx 0xEA c 0 0 0 0 0).trapContext b ctx)
    | .ok l =>
      let cores := ((List.range 8).filter fun i => mask / 2 ^ i % 2 == 1).map fun i => cluster * 8 + i
      let l := l.write (.clean (clusterPa cluster (65536 * base) / 16) (4096 * size))
      let l := l.zeroCores ctx cores
      let l := l.dev.circuits.foldl (fun l e => if e.2.touches b ctx cluster then l.failCircuit b e.1 5 else l) l
      some (l.onCtx ctx fun c =>
        { c with attached := c.attached.filter fun a => a.1 != cluster
                 endpoints := tclear c.endpoints (cluster * 64) 64
                 spilled := if size = 0 then c.spilled else c.spilled ++ [(cluster, mask, base, size)] })

/-- A kernel still has to leave a cluster that is being recalled. -/
def Kernel.stays (k : Kernel) (cluster : Nat) : Bool :=
  k.cores.any (fun c => c / 8 == cluster) && (k.st == 1 || k.st == 2 || k.st == 3 || k.st == 5 || k.st == 6)

/-- The end of a recall, once no kernel is left in the cluster and no scrub holds it (R347, R349). -/
def Live.tryRecall (b : Boot) (l : Live) (cluster : Nat) : Live :=
  let r := l.dev.cluster cluster
  if !r.rcl || r.held || l.dev.kernels.any (fun k => k.stays cluster || (k.st == 0 && (l.boundCores k).any fun c => c / 8 == cluster)) then l
  else
    let guests := (l.dev.ctxs.filter fun e => e.2.owner != r.home && e.2.st != 0 && e.2.attached.any fun a => a.1 == cluster).map Prod.fst
    match guests.foldl (fun (o : Option Live) c => o.bind fun l => l.evictContext b c cluster) (some l) with
    | none => l
    | some l => l.onCluster cluster fun r => { r with user := r.home, lent := false, rcl := false }

/-- Ends every recall that can end. -/
def Live.tryRecalls (b : Boot) (l : Live) : Live :=
  l.dev.clusters.foldl (fun l e => if e.2.rcl then l.tryRecall b e.1 else l) l

end Sys2Proof.Machine
end

