-- ==== Sys2Proof/Machine/Reply.lean ====
section
/-!
DEFINITION. Replies as they reach their issuers (R221, R371), and the reports of messages that failed (R229, R290).
-/

namespace Sys2Proof.Machine

/-- The item of a CPYN job that asked for a leaf. -/
def leafItem (j : Job) (leaf : Nat) : Nat := leaf - shapeField j.shape 16 8

/-- The line of a leaf has come (R301): the item's writes begin. -/
def leafLanded (b : Boot) (l : Live) (r : Req) (job k : Nat) (j : Job) (line : BitVec 1024) : Live :=
  let core := l.missCore j.ctx (j.core / 8)
  let dst := plainDst j k
  match jobSpots b l core j.ctx 4 true dst (spotsOf dst 128) [] with
  | .miss l' va kind => itemMiss l (l'.dropReq r.id) job k core j ⟨dst, dst, 128⟩ va kind
  | .fail l c _ => (l.onJob job fun j => j.failItem k c 0 dst).endItem b job k
  | .all l ws =>
    match itemCircuits b l j ws with
    | some (c, d) => (l.onJob job fun j => j.failItem k c d dst).endItem b job k
    | none =>
      let cl := j.core / 8
      launch b (l.onReq r.id fun q => { q with kind := .piece job k, va := dst, stage := .home, dest := .cluster cl, parts := cutParts b l j (fillParts line.toNat ws) }) r.id

/-- The reply to a request of CPYN (R301): the leaf of an item, or the reference on the root name. -/
def takeLeaf (b : Boot) (l : Live) (r : Req) (op job : Nat) (block : BitVec 1024) (y : BitVec 128) (step : Nat) : Live :=
  match l.job? job with
  | none => l.dropReq r.id
  | some j =>
    if op == 7 then
      let k := leafItem j y.toNat
      if !j.items.any fun i => i.idx == k && i.req == some r.id then l.dropReq r.id
      else match r.fail with
        | some (c, d, _) => (l.onJob job fun j => j.failItem k (if c == 0x47 then 0x46 else c) (if c == 0x47 then 0 else d) (plainDst j k)).endItem b job k
        | none => leafLanded b l r job k j block
    else
      let l := l.dropReq r.id
      match (if step == 0 then r.fail else none) with
      | some (c, d, _) => (l.onJob job fun j => { j with name := (0, 0) }).failRest b job (if c == 0x47 then 0x46 else c) (if c == 0x47 then 0 else d)
      | none => l

/-- The acceptance of a stream descriptor, or its refusal, reaches the copy unit (R301). -/
def takeStream (b : Boot) (l : Live) (r : Req) (job : Nat) : Live :=
  let l := l.dropReq r.id
  match r.fail with
  | some (c, _, _) => l.failRest b job (if c == 0x47 then 0x46 else c) 0
  | none => l.onJob job fun j => { j with stream := 2 }

/-- The engine's reply to a COLL or QFENCE enqueue (R300): G[D] takes the handle. -/
def takeColl (l : Live) (r : Req) (dst : Nat) : Live :=
  match l.awaits r with
  | none => l.dropReq r.id
  | some next => ((l.dropReq r.id).land r.tid r.ctx dst r.out).complete r.tid next

/-- A request's step at a root slot (R375, R376), as against one at an Attic engine. -/
def atRootSlot (op step : Nat) : Bool := (op == 5 && step == 1) || (op == 6 && step % 2 == 0)

/-- REMOTE_REPLY_ARRIVE (R219, R221): a reply that brings a value; a reply of a request that has several, or its last. -/
def execRemoteReplyArrive (req : Nat) (s : State) : Host.Outcome State Fault Refusal :=
  event s fun b l =>
    match l.req? req with
    | none => l
    | some r =>
      match r.kind with
      | .mem _ _ => takeReply b l req fun op cls => op.returns && cls != .red
      | .tile _ _ _ _ => takeTile b l req
      | .attic op _ _ _ _ step _ => if atRootSlot op step then takeAttic b l req else l
      | .coll _ dst => if r.reported then l else match l.reachBack r with
        | some l => takeColl l r dst
        | none => l
      | .stream job => if r.reported then l else match l.reachBack r with
        | some l => takeStream b l r job
        | none => l
      | .piece _ _ => launch b (l.pieceBack r false) req
      | .tlbi _ _ ws => match ws.findSome? fun w => (l.atEndOf req (w.1 + 1) true false).map fun m => (w.1, m) with
        | some (c, m) => (l.takeMsg m).tlbiDone req c
        | none => l
      | .operand _ => if r.parts.all Part.done then (if (l.awaits r).isSome then l.onThread r.tid fun t => { t with flight := .none } else l.dropReq req) else l
      | _ => l

/-- ATTIC_REPLY (R371, R301): an Attic engine's reply reaches the thread or the copy unit that asked. -/
def execAtticReply (req : Nat) (s : State) : Host.Outcome State Fault Refusal :=
  event s fun b l =>
    match l.req? req with
    | none => l
    | some r =>
      match r.kind with
      | .attic op _ block x y step _ =>
        if op < 7 then (if atRootSlot op step then l else takeAttic b l req)
        else if op ≤ 8 && !r.reported then match l.reachBack r with
          | some l => takeLeaf b l r op x.toNat block y step
          | none => l
        else l
      | _ => l

/-- A part of a request that is not in its own cluster and not performed: its number. -/
def awayPart (b : Boot) (r : Req) : Option Nat :=
  let i := r.parts.findIdx fun p => !p.done && paHome b p.pa != some (.bank r.src)
  if i < r.parts.length then some i else none

/-- A message of a request of several granules fails: before its home the access is not performed; after it, the reply is lost (R229). -/
def losePart (b : Boot) (l : Live) (r : Req) (lost : Bool) : Live :=
  match awayPart b r with
  | none => l
  | some i =>
    if !lost then (l.failPart r.id i 0x46).closeParts r.id
    else
      let write := (r.parts[i]?).elim false Part.write
      let l := servePart b l r i false
      l.onReq r.id fun q => { q with fail := some (q.fail.getD (0x47, if write then 2 else 1, true)) }

/-- What the failure of a message means for the sender of its request (R229, R230, R273, R274, R289, R300, R371, R424). R124 names the refusal and
the failed message of a cross-cluster SPAWN; the loss of its reply is a deferred lost-reply fault with DETAIL 0, g[D] staying absent, as for a relaxed
load (assumption 88). -/
def reportTo (b : Boot) (l : Live) (r : Req) (cause detail : Nat) (perf : Bool) : Live :=
  let trap := fun (l : Live) (handle : Word) => match l.awaits r with
    | none => l.dropReq r.id
    | some _ => takeTrap b r.tid cause detail 0 (if perf then 2 else 0) (l.dev.thread r.tid).pc r.va handle none (l.dropReq r.id)
  let defer := fun (l : Live) => if (l.dev.thread r.tid).live && l.dev.ctxOf r.tid == r.ctx then deferFault b r.tid cause detail r.pc r.va perf l else l
  match r.kind with
  | .mem op dst => finishMem b l r op dst
  | .phaser op h mode _ =>
    if op == 8 then
      (l.dropReq r.id).ctxRecord b r.ctx cause detail r.va.toNat (if perf then 2 else 0) h (mode / 65536) (mode % 65536)
    else
      let wait := l.awaits r
      let l := if op == 9 && wait.isSome then spawnAfterPhaser b l r.tid mode false else l
      match wait with
      | none => l.dropReq r.id
      | some _ => (l.dropReq r.id).trapFlight b r.tid cause detail 0 perf
  | .circuit op _ _ _ _ job =>
    let l := l.dropReq r.id
    if op == 9 then
      let l := if perf && r.out.getLsbD 63 then l.sendOwn b r.ctx r.src (.circuit 2 r.out 0 (handleCnum r.out) 0 job) (.gateway 1 38) 1 else l
      l.failRest b job 0x81 3
    else if r.tid == noThread then l else defer l
  | .coll job _ =>
    if perf then trap l ((l.job? job).elim 0 Job.handle)
    else trap (l.setJob b job fun j => { j with st := 5, done := 0, nfail := 0, pending := false }) 0
  | .ringCredit _ _ => l.dropReq r.id
  | .attic op _ block x y step _ =>
    if op < 7 then atticRun b r.id 4 (l.onReq r.id fun q => { q with stage := .replied })
    else if op ≤ 8 then takeLeaf b l r op x.toNat block y step
    else if op == 9 then l
    else l.dropReq r.id
  | .migrate _ _ _ n place =>
    match perf, place with
    | true, some tid => acceptMigration b l r n tid
    | _, _ => takeTrap b r.tid 0xA3 0 0 0 (l.dev.thread r.tid).pc 0 0 none (l.dropReq r.id)
  | .spawn _ _ _ _ _ dst =>
    let l := l.dropReq r.id
    if perf then defer l
    else undoSpawnJoin b (l.land r.tid r.ctx dst 0xFFFFFFFFFFFFFFFE) r
  | .joinMsg target _ =>
    let l := l.dropReq r.id
    if (l.dev.thread target).live then
      deferFault b target 0xA6 0 (l.dev.thread target).pc 0 false (l.onThread target fun t => { t with join := none, landing := false })
    else l
  | .stream job => takeStream b l { r with fail := some (cause, detail, perf) } job
  | .rows job rows =>
    rows.foldl (fun l e => rowEnds b l job (e / 256) (some 0x46)) (l.dropReq r.id)
  | _ => l

/-- The report of one message of a request that has several (R229, R298, R389): the piece of a copy item fails; a TLBI traps, the lost-reply cause with DETAIL 7
when the message was a reply, and the clusters that have not answered go on without it. -/
def reportOne (b : Boot) (l : Live) (r : Req) (m : Msg) : Live :=
  let l := l.takeMsg m
  match r.kind with
  | .piece _ _ =>
    (l.onParts r.id (fun p => p.grp == m.grp) fun p => { p with done := true, bad := true, leg := 0 }).onReq r.id fun q => { q with fail := some (q.fail.getD (0x46, 0, false)) }
  | .tlbi _ _ _ =>
    let l := match l.awaits r with
      | none => l
      | some _ => takeTrap b r.tid (if m.lost then 0x47 else 0x46) (if m.lost then 7 else 0) 0 (if m.lost then 2 else 0) (l.dev.thread r.tid).pc r.va 0 none l
    (l.onReq r.id fun q => { q with tid := noThread }).tlbiDone r.id (m.grp - 1)
  | _ => l

/-- RELAY_FAILURE_REPORT (R229, R290): a report reaches the sender of the message that failed. Requests whose messages the model does not
follow hop by hop fail here at once: lost says whether the reply was the message. -/
def execRelayFailureReport (req : Nat) (lost : Bool) (s : State) : Host.Outcome State Fault Refusal :=
  event s fun b l =>
    match l.req? req with
    | none => l
    | some r =>
      if r.reported && r.stage == .back then
        match r.fail, l.reachBack r with
        | some (c, d, p), some l => reportTo b l r c d p
        | _, _ => l
      else match r.kind with
        | .tile _ _ _ _ => losePart b l r lost
        | .weights _ _ _ _ _ => if r.stage == .home then losePart b l r lost else l
        | .chunks _ _ _ _ _ _ _ _ _ _ => if r.stage == .home then losePart b l r lost else l
        | .operand _ => losePart b l r lost
        | _ => (l.dev.msgs.find? fun m => m.req == req && m.rep && l.arrived m).elim l (reportOne b l r)

end Sys2Proof.Machine
end

