-- ==== Sys2Proof/Machine/Sched.lean ====
section
/-!
DEFINITION. Command queues, admission, the deadline heap, bind records, control packets, retirement, the journal and take-over
(16_kernel.md, 17_queue.md): the steps of the scheduler and of dispatch.
-/

namespace Sys2Proof.Machine

/-- A packet's bytes (R319): n bytes from byte i. -/
def pktField (p i n : Nat) : Nat := bitsAt p (8 * (i + n) - 1) (8 * i)

/-- n bytes of host memory from a bus address. -/
def Dev.hostRead (d : Dev) (a : Nat) : Nat → Nat
  | 0 => 0
  | n + 1 => (tget d.host (0 : Byte) a).toNat + 256 * d.hostRead (a + 1) n

/-- Writes n bytes of host memory. -/
def Dev.hostWrite (d : Dev) (a : Nat) : Nat → Nat → Dev
  | 0, _ => d
  | n + 1, v => ({ d with host := tset d.host (0 : Byte) a (BitVec.ofNat 8 v) } : Dev).hostWrite (a + 1) n (v / 256)

/-- The cause for an area address that is not a legal path 0x0 address (R209). -/
def areaFault (a : Word) : Option Nat := if wbits a 63 60 != 0 then some 0x41 else if wbits a 59 48 != 0 then some 0x40 else none

/-- Reads the packet at a queue's head (R318, R436); none when the ring read faults. -/
def Live.packet (b : Boot) (l : Live) (r : Queue) : Option Nat :=
  let off := 256 * (r.head % r.size)
  if r.base.getLsbD 63 then some (l.dev.hostRead (wbits r.base 62 0 + off) 256)
  else if (areaFault r.base).isSome then none
  else match l.fwReachAll b r.ctx (r.base.toNat + off) false 15 with
    | .ok _ => some (l.fwRead b r.ctx (r.base.toNat + off) 256)
    | _ => none

/-- ECODE of a malformed packet (R319, R321). -/
def packetFault (p : Nat) : Option Nat :=
  let ty := pktField p 0 1
  if ty = 0 || 4 < ty then some 1
  else if pktField p 1 1 / 8 != 0 || pktField p 2 6 != 0 || pktField p 32 32 != 0 || pktField p 192 64 != 0 || pktField p 8 8 % 16 != 0 then some 2
  else none

/-- A control packet names a kernel of another context (R321, assumption 26). -/
def Live.foreign (l : Live) (ctx knum : Nat) : Bool :=
  !l.dev.kernels.any (fun k => k.ctx == ctx && k.knum == knum) && decide ((l.dev.ctx ctx).nextKnum ≤ knum) && l.dev.kernels.any fun k => k.ctx != ctx && k.knum == knum

/-- The head packet of a queue, or its ECODE. -/
def Live.headPacket (b : Boot) (l : Live) (r : Queue) : Except Nat Nat :=
  match l.packet b r with
  | none => .error 4
  | some p =>
    match packetFault p with
    | some e => .error e
    | none => if pktField p 0 1 != 1 && l.foreign r.ctx (pktField p 24 4) then .error 5 else .ok p

/-- The scheduler serves no queue. -/
def Live.serveNone (l : Live) : Live := l.onSched fun s => { s with serving := none }

/-- A queue enters ERROR (R321, R322). -/
def Live.queueError (l : Live) (q e : Nat) : Live := (l.onQueue q fun r => { r with st := 3, ecode := e }).serveNone

/-- What follows the taking of a packet (R321, R322): the queue is IDLE once its head has reached the tail, the scan ends at the tail that was
read, and the next packet must be well formed. -/
def Live.checkHead (b : Boot) (l : Live) (q : Nat) : Live :=
  let r := l.queue q
  match l.dev.sched.serving with
  | none => l
  | some (_, tail) =>
    if r.head == tail then
      if r.head == r.tail then (l.onQueue q fun r => { r with st := 0 }).serveNone else l.serveNone
    else if r.base.getLsbD 63 && !l.dev.hostUp then l
    else match l.headPacket b r with
      | .error e => l.queueError q e
      | .ok _ => l

/-- The scheduler takes packets and writes bind records: not before the part has booted, nor in a take-over, nor without a usable core or an
accepted image (R20, R329 to R331). -/
def Live.schedRuns (b : Boot) (l : Live) : Bool :=
  let s := l.dev.sched
  !s.hold && !s.tko && !s.lost && wbits s.fwrld 63 62 == 3 && b.status == 1

/-- An entry is written into both copies of the journal, with its CRC (R327). -/
def Sched.enter (s : Sched) (kind queue ring knum value cls : Nat) : Sched :=
  let e : JournalEntry := { seq := s.seq, kind, queue, ring, knum, value, cls, crc := Config.journalCrc s.seq kind queue ring knum (value * 2 + cls), done := true }
  let j := (s.journal ++ [e]).drop (s.journal.length + 1 - 4096)
  { s with journal := j, journal2 := j, seq := s.seq + 1 }

/-- A journal entry is written (R327); a checkpoint comes first when 1,024 entries have followed the last. -/
def Live.journal (l : Live) (kind queue ring knum value cls : Nat) : Live :=
  let counts := (List.range 256).map l.inUse
  let knums := l.dev.ctxs.map fun c => (c.1, c.2.nextKnum)
  l.onSched fun s =>
    let last := (s.ckpts.head?).elim 0 Checkpoint.seq
    let s : Sched := if 1023 ≤ s.seq - last then
        let c : Checkpoint := { seq := s.seq, heap := s.heap, heads := s.queues.map fun q => (q.1, q.2.head), knums, counts, crc := Config.bufferCrc s.seq }
        { s.enter 5 0 0 0 (s.seq / 1024 % 2) 0 with ckpts := c :: s.ckpts.take 1, ckpts2 := c :: s.ckpts.take 1 }
      else s
    s.enter kind queue ring knum value cls

/-- DOORBELL_WRITE (R320, R322): a write by the host, which its link brings while it is up and its IDE stream secure (R342, R407). -/
def execDoorbellWrite (q : Nat) (v : BitVec 32) (s : State) : Host.Outcome State Fault Refusal :=
  event s fun _ l =>
    if !(l.queue q).en || !l.dev.hostUp then l
    else
      (l.onQueue q fun r => { r with tail := v.toNat, st := if r.st == 2 || (r.st == 0 && r.head != v.toNat) then 1 else r.st }).onSched fun s =>
        { s with kicks := sinsert s.kicks q }

/-- A queue can be read: one on the host only while the host link is up (R342). -/
def Live.readable (l : Live) (r : Queue) : Bool := l.dev.hostUp || !r.base.getLsbD 63

/-- The queue that is served may still give packets. -/
def Live.servedNow (l : Live) : Option Nat :=
  match l.dev.sched.serving with
  | some (q, _) => if (l.queue q).en && (l.queue q).st == 1 && l.readable (l.queue q) then some q else none
  | none => none

/-- A scan that the host link cut off is taken up again by a later one. -/
def Live.endCutScan (l : Live) : Live :=
  match l.dev.sched.serving with
  | some (q, _) => if (l.queue q).en && (l.queue q).st == 1 && !l.readable (l.queue q) then l.onSched fun s => { s with kicks := sinsert s.kicks q, serving := none } else l
  | none => l

/-- QUEUE_SCAN (R321): the next kicked queue after the one last served; a queue on the host waits for the host link (R342). -/
def execQueueScan (s : State) : Host.Outcome State Fault Refusal :=
  event s fun b l =>
    if !l.schedRuns b || l.servedNow.isSome then l
    else
      let l := l.endCutScan
      let s := l.dev.sched
      let ready := s.kicks.filter fun q => l.readable (l.queue q) || !(l.queue q).en
      match (ready.find? fun q => s.lastServed < q).or ready.head? with
      | none => l
      | some q =>
        let l := l.onSched fun s => { s with kicks := serase s.kicks q, lastServed := q, serving := none }
        let r := l.queue q
        if !r.en || r.st == 3 then l
        else if r.head == r.tail then l.onQueue q fun r => { r with st := 0 }
        else if r.size < (r.tail + 2 ^ 32 - r.head) % 2 ^ 32 then l.queueError q 3
        else
          let l := l.onQueue q fun r => { r with st := 1 }
          (l.onSched fun s => { s with serving := some (q, r.tail) }).checkHead b q

/-- Takes the head packet of the queue that is served, when it has this type. A packet with BARRIER waits until every earlier one has
completed (R319, R322). -/
def Live.takeHead (b : Boot) (l : Live) (q ty : Nat) (k : Live → Queue → Nat → Live) : Live :=
  if !l.schedRuns b || l.servedNow != some q then l
  else
    let r := l.queue q
    match l.headPacket b r with
      | .error e => l.queueError q e
      | .ok p =>
        if pktField p 0 1 != ty then l
        else if pktField p 1 1 / 2 % 2 == 1 && !r.open_.isEmpty then (l.onQueue q fun r => { r with st := 2 }).serveNone
        else k l r p

/-- The head packet of a queue has been taken. -/
def Live.advance (b : Boot) (l : Live) (q : Nat) : Live :=
  (l.onQueue q fun r => { r with head := (r.head + 1) % 2 ^ 32 }).checkHead b q

/-- Cores bound to some kernel, or named by a heap entry. -/
def Live.takenCores (l : Live) : List Nat := (l.dev.kernels.flatMap l.boundCores) ++ l.dev.sched.heap.flatMap HeapEntry.cores

/-- S_o as R324 gives it for an owner with weight; where no owner counts, Σ is 0 and the value is free (assumption 27). -/
def Live.shareValue (b : Boot) (l : Live) (o : Nat) : Nat :=
  let sum := (((List.range 256).filter l.active).map l.weight).sum
  if l.weight o = 0 then 0 else if sum = 0 then Config.shareOfNone l.dev.tick else wbits b.capdie 54 44 * l.weight o / sum

/-- SHARE is recomputed at every admission test, for every owner with weight (R324). -/
def Live.testShares (b : Boot) (l : Live) : Live :=
  l.onSched fun s => { s with shares := ((List.range 256).filter fun o => l.weight o != 0).foldl (fun t o => tset t 0 o (l.shareValue b o)) [] }

/-- The kernel that the head LAUNCH of a queue makes; none when it waits (R310, R322, R324). A record that fails R308 is admitted with no cores, to be
retired REFUSED. -/
def Live.admission (b : Boot) (l : Live) (q : Nat) (r : Queue) (p : Nat) : Option Kernel :=
  let lrec := BitVec.ofNat 1024 (pktField p 64 128)
  let bad := (l.lrecFault b lrec r.ctx r.owner).isSome
  let cores := if bad then [] else (l.coreSet b lrec).getD []
  let inShare := decide (l.inUse r.owner + cores.length ≤ l.shareValue b r.owner)
  let idle := cores.all fun c => !l.takenCores.contains c
  if 256 ≤ l.dev.sched.heap.length || !(bad || inShare || idle) then none
  else
    let k : Kernel :=
      { ctx := r.ctx, knum := (l.dev.ctx r.ctx).nextKnum, owner := r.owner, queue := q, ring := r.head, lrec, flags := pktField p 1 1,
        cmpaddr := BitVec.ofNat 64 (pktField p 8 8), cmpval := BitVec.ofNat 64 (pktField p 16 8), cores, surplus := !inShare }
    some { k with lstks := k.launchStacks }

/-- ADMIT (R327): what it precedes. A kernel that is there already changes nothing. -/
def Live.enterKernel (b : Boot) (l : Live) (q : Nat) (k : Kernel) : Live :=
  if (l.dev.kernel? k.ctx k.knum).isSome then l
  else
    let l := l.map fun d => { d with kernels := d.kernels ++ [k] }
    let l := l.onCtx k.ctx fun c => { c with nextKnum := (k.knum + 1) % 2 ^ 32 }
    let l := l.onSched fun s => { s with heap := heapInsert s.heap k.heapEntry }
    (l.onQueue q fun r => { r with open_ := r.open_ ++ [r.head] }).advance b q

/-- The journal entry of an admission. -/
def Live.enterAdmit (l : Live) (q : Nat) (k : Kernel) : Live := l.journal 0 q k.ring k.knum ((k.ring + 1) % 2 ^ 32) (if k.surplus then 1 else 0)

/-- LAUNCH (R310, R324): in share, as surplus, or it waits. -/
def execLaunch (q : Nat) (s : State) : Host.Outcome State Fault Refusal :=
  event s fun b l => l.takeHead b q 1 fun l r p =>
    match l.admission b q r p with
    | none => ((l.testShares b).onQueue q fun r => { r with st := 2 }).serveNone
    | some k => ((l.testShares b).enterAdmit q k).enterKernel b q k

/-- Makes a completion (R319, R326, R436): the write, then the interrupt. What needs the host link waits for it (R342): none when nothing can
be done, else what remains. A poisoned context's completion is withheld (R340). -/
def Live.complete' (b : Boot) (l : Live) (c : Completion) : Option (Live × Option Completion) :=
  if (l.dev.ctx c.ctx).poison then some (l, none)
  else
    let v := c.val.toNat + 2 ^ 64 * c.info.toNat
    let irq := fun (l : Live) =>
      if c.flags % 2 == 0 then some (l, none)
      else if l.dev.hostUp then some (l.map fun d => { d with out := d.out ++ [.irq (wbits (l.queue c.queue).cfg 23 16)] }, none)
      else some (l, some { c with addr := 0, knum := 0 })
    if c.addr = 0 then (if c.flags % 2 == 1 && !l.dev.hostUp then none else irq l)
    else if c.flags / 4 % 2 == 1 then
      if l.dev.hostUp then irq (l.map fun d => d.hostWrite c.addr.toNat 16 v) else none
    else
      let drop := fun (cause : Nat) => irq (l.hardRecord b 0 cause 5 0 0 c.addr)
      match areaFault c.addr with
      | some cause => drop cause
      | none => match l.fwReach b c.ctx c.addr.toNat true with
        | .wait => none
        | .fail cause => drop cause
        | .ok _ => irq (l.fwWrite b c.ctx c.addr.toNat v 16)

/-- A packet has completed: its queue's BARRIER no longer waits for it. -/
def Live.closePacket (l : Live) (q ring : Nat) : Live := l.onQueue q fun r => { r with open_ := r.open_.erase ring }

/-- The completion of a control packet (R319): END 1 with the target's KNUM when it was applied, END 3 when it was refused. -/
def Live.controlDone (b : Boot) (l : Live) (q : Nat) (r : Queue) (p : Nat) (applied : Bool) : Live :=
  let info := if applied then 1 + 2 ^ 32 * pktField p 24 4 else 3
  let addr := BitVec.ofNat 64 (pktField p 8 8)
  let val := BitVec.ofNat 64 (pktField p 16 8)
  let c : Completion := { ctx := r.ctx, knum := 0, queue := q, ring := r.head, flags := pktField p 1 1, addr, val, info := BitVec.ofNat 64 info }
  let l := l.journal 3 q r.head (pktField p 24 4) 0 0
  let l := match l.complete' b c with
    | some (l, none) => l
    | some (l, some c) => l.onSched fun s => { s with fifo := s.fifo ++ [c] }
    | none => (l.onQueue q fun r => { r with open_ := r.open_ ++ [r.head] }).onSched fun s => { s with fifo := s.fifo ++ [c] }
  l.advance b q

/-- The target thread of a control packet: its THREADID (R319). -/
def Live.target (l : Live) (r : Queue) (p : Nat) : Option Nat :=
  (l.dev.threads.find? fun e => e.1 % 64 != 63 && e.2.ctx == r.ctx && e.2.knum == pktField p 24 4 && e.2.live &&
    e.2.lcore == pktField p 28 2 && e.2.lthread == pktField p 30 2).map Prod.fst

/-- The causes after which a thread cannot be resumed (R416). -/
def unresumable : List Nat := [0x34, 0x35, 0x37, 0xAC, 0xAE]

/-- Writes a bind record (R326). -/
def Live.putBind (l : Live) (r : Bind) : Live :=
  l.onSched fun s => { s with binds := s.binds ++ [r], bound := if r.kind == 2 then s.bound else s.bound ++ [(r.ctx, r.knum)] }

/-- The scheduler ends a kernel (R310, R323): it is ENDING, it leaves the heap, and an end record goes to dispatch (R326). -/
def Live.endBySched (l : Live) (ctx knum : Nat) : Live :=
  match l.dev.kernel? ctx knum with
  | none => l
  | some k =>
    let l := (l.map fun d => d.endKernel ctx knum).putBind { kind := 2, ctx, knum, queue := k.queue, ring := k.ring, cores := [] }
    (l.onSched fun s => { s with heap := s.heap.filter fun h => !(h.ctx == ctx && h.knum == knum) }).retestQueues

/-- An end record has room in the bind table (R326). -/
def Live.bindRoom (l : Live) : Bool := decide (l.dev.sched.binds.length < 64)

/-- THRESUME applies to its target (R313, R323, R416). -/
def Live.resumable (l : Live) (r : Queue) (p : Nat) : Option Nat :=
  let hold := (l.dev.kernel? r.ctx (pktField p 24 4)).elim false fun k => k.fpol % 4 == 1
  (l.target r p).filter fun tid =>
    let t := l.dev.thread tid
    hold && t.st == .trapped && !unresumable.contains (wbits t.faultInfo 7 0)

/-- What a control packet needs before it can be applied or refused (R323): nothing of a thread that it ends is under way, and an end record has
room. -/
def Live.controlReady (l : Live) (r : Queue) (p : Nat) : Bool :=
  match pktField p 0 1 with
  | 3 => match l.target r p with
    | none => true
    | some tid => if (l.dev.gangOf tid).isSome then l.bindRoom else (l.dev.thread tid).still && !l.dev.reqs.any fun x => x.tid == tid
  | 4 => l.bindRoom
  | _ => true

/-- A control packet applies to what it names; it is refused otherwise (R323). -/
def Live.controlApplies (l : Live) (r : Queue) (p : Nat) : Bool :=
  match pktField p 0 1 with
  | 2 => (l.resumable r p).isSome
  | 3 => (l.target r p).isSome && (l.dev.kernel? r.ctx (pktField p 24 4)).isSome
  | _ => (l.dev.kernel? r.ctx (pktField p 24 4)).isSome

/-- CTRL (R323, R327): what it precedes. -/
def Live.applyControl (b : Boot) (l : Live) (q : Nat) (r : Queue) (p : Nat) : Live :=
  let knum := pktField p 24 4
  let l := match pktField p 0 1, l.target r p with
    | 2, some tid => resumeThread tid l
    | 3, some tid =>
      if (l.dev.gangOf tid).isSome then l.endBySched r.ctx knum
      else
        let l := match (l.dev.thread tid).join with
          | some h => dropJoin b tid h l
          | none => l
        l.map fun d => d.endThread tid
    | 4, _ => l.endBySched r.ctx knum
    | _, _ => l
  l.controlDone b q r p true

/-- A control packet at the head of a queue (R323): a thread ends as by EXIT, and a gang thread's end ends its kernel. -/
def Live.control (b : Boot) (l : Live) (q : Nat) (r : Queue) (p : Nat) : Live :=
  if !l.controlReady r p then l
  else if !l.controlApplies r p then l.controlDone b q r p false
  else (l.journal 2 q r.head (pktField p 24 4) (pktField p 0 1) 0).applyControl b q r p

/-- THRESUME (R313, R323, R416). -/
def execThresume (q : Nat) (s : State) : Host.Outcome State Fault Refusal := event s fun b l => l.takeHead b q 2 fun l r p => l.control b q r p

/-- THEND (R323). -/
def execThend (q : Nat) (s : State) : Host.Outcome State Fault Refusal := event s fun b l => l.takeHead b q 3 fun l r p => l.control b q r p

/-- KEND (R310, R323). -/
def execKend (q : Nat) (s : State) : Host.Outcome State Fault Refusal := event s fun b l => l.takeHead b q 4 fun l r p => l.control b q r p

/-- Kernels of a context may be bound (R336, R343). -/
def Live.bindable (l : Live) (ctx : Nat) : Bool := (l.dev.ctx ctx).st == 3 || (l.dev.ctx ctx).st == 5

/-- A core's cluster is open to an owner's kernels (R346, R347, R349). -/
def Live.openTo (l : Live) (owner core : Nat) : Bool :=
  let c := l.dev.cluster (core / 8)
  c.user == owner && !c.held && !c.rcl && !c.xfer && !c.lost && !(l.dev.core core).lost

/-- The cores that a kernel may be bound to now. -/
def Live.freeCore (l : Live) (owner : Nat) (bound : List Nat) (core : Nat) : Bool := (farCore core || l.openTo owner core) && !bound.contains core

/-- A holder of cores of the heap's first entry that this entry pre-empts (R325): a surplus kernel, or one of the same owner with a later deadline. -/
def Live.yields (l : Live) (h : HeapEntry) (k : Kernel) : Bool :=
  (k.st == 1 || k.st == 2) && (l.boundCores k).any h.cores.contains && (k.surplus || (k.owner == h.owner && decide (h.deadline < k.deadline)))

/-- The first entry of the heap is in share: the holders of its cores that yield to it are pre-empted (R325). -/
def Live.evictFor (b : Boot) (l : Live) (h : HeapEntry) : Live :=
  l.dev.kernels.foldl (fun l k => if l.yields h k then (l.journal 4 k.queue k.ring k.knum 0 0).preempt b k.ctx k.knum else l) l

/-- A window may be placed in a cluster for a context: it overlaps no other context's there (R332, R347). -/
def Live.windowFree (l : Live) (ctx cluster base size : Nat) : Bool :=
  l.dev.ctxs.all fun e => e.1 == ctx || e.2.attached.all fun a => a.1 != cluster || a.2.2.2 == 0 || size == 0 || decide (a.2.2.1 + a.2.2.2 ≤ base) || decide (base + size ≤ a.2.2.1)

/-- The first cores of a set may take a SAVED kernel's first logical cores (R316, R347). Those on another package are its package's to give. -/
def Live.resumeFits (l : Live) (k : Kernel) (s : Saved) (bound : List Nat) (cores : List Nat) : Bool :=
  let old := k.cores.zip cores
  let c := l.dev.ctx k.ctx
  let units := distinct (cores.map (· / 8))
  let lstk := fun (x : Nat) => k.lstks.getD (k.lcluOf (x / 8)) 0
  decide cores.Nodup && cores.all (fun x => (farCore x || l.attachedCore k.ctx x) && l.freeCore k.owner bound x) &&
  old.all (fun p => farCore p.1 == farCore p.2) &&
  old.all (fun p => old.all fun q => (p.1 / 8 == q.1 / 8) == (p.2 / 8 == q.2 / 8)) &&
  old.all (fun p => old.all fun q => lstk p.1 != lstk q.1 || stackOf (p.2 / 8) == stackOf (q.2 / 8)) &&
  s.phasers.all (fun p => units.length ≤ p.1 || (l.dev.phaser (units.getD p.1 0) p.2.1).st == 0) &&
  old.all (fun p => match c.spilled.find? fun w => w.1 == p.1 / 8 with
    | none => true
    | some w => c.attached.any (fun a => a.1 == p.2 / 8 && a.2.2.2 == 0) && l.windowFree k.ctx (p.2 / 8) w.2.2.1 w.2.2.2) &&
  s.gangs.all (fun g => cores.length ≤ g.1 ||
    (let head := cores.getD g.1 0
     chainLin head / 48 == (chainLin head + g.2.n - 1) / 48 &&
       (List.range g.2.n).all fun i => (old.find? fun p => p.1 == chainCore (k.cores.getD g.1 0) i).elim true fun p => p.2 == chainCore head i))

/-- A core set on which a SAVED kernel may resume (R316). -/
def Live.resumeOk (l : Live) (k : Kernel) (s : Saved) (bound : List Nat) (cores : List Nat) : Bool :=
  cores.length == k.cores.length && l.resumeFits k s bound cores

/-- The ways to take so many members of a list, in its order. -/
def pick (n : Nat) : List Nat → List (List Nat)
  | [] => if n = 0 then [[]] else []
  | x :: rest => if n = 0 then [[]] else (pick (n - 1) rest).map (x :: ·) ++ pick n rest

/-- The first core set, over the logical clusters in turn, all of whose beginnings fit. -/
def firstSet (fits : List Nat → Bool) : List (List (List Nat)) → List Nat → Option (List Nat)
  | [], acc => some acc
  | opts :: rest, acc => opts.findSome? fun o => if fits (acc ++ o) then firstSet fits rest (acc ++ o) else none

/-- The cores that may take a logical cluster's: so many free ones of one cluster, the lowest first; those of another package stay (R316). -/
def Live.clusterSets (l : Live) (k : Kernel) (bound : List Nat) (c : Nat) : List (List Nat) :=
  let mine := k.cores.filter fun x => x / 8 == c
  if 256 ≤ c then [mine]
  else (List.range 192).flatMap fun x =>
    pick mine.length (((List.range 8).map (8 * x + ·)).filter fun y => l.attachedCore k.ctx y && l.freeCore k.owner bound y)

/-- The core set on which the scheduler resumes a SAVED kernel (R316): its own cores if they are legal, else the first legal set in order
(assumption 28); none while there is none. -/
def Live.resumeSet (l : Live) (k : Kernel) : Option (List Nat) :=
  let s := (l.dev.save? k.ctx k.knum).getD { ctx := k.ctx, knum := k.knum }
  let bound := l.takenCores
  if l.resumeOk k s bound k.cores then some k.cores
  else firstSet (l.resumeFits k s bound) (k.clusters.map (l.clusterSets k bound)) []

/-- The copy jobs of a SAVED kernel have no item left that has begun (R295). -/
def Live.jobsSaved (l : Live) (ctx knum : Nat) : Bool :=
  l.dev.jobs.all fun e => e.2.ctx != ctx || e.2.knum != knum || e.2.st != 6 || e.2.items.all fun i => i.req.isNone && i.fail.isNone

/-- The bind record that the scheduler writes next (R316, R325): for the first heap entry whose cores are all free, else for a SAVED kernel for which
a placement is free. -/
def Live.nextBind (l : Live) : Option Bind :=
  let bound := l.dev.kernels.flatMap l.boundCores
  match l.dev.sched.heap.find? fun h => l.bindable h.ctx && h.cores.all (l.freeCore h.owner bound) with
  | some h => (l.dev.kernel? h.ctx h.knum).map fun k => { kind := 0, ctx := k.ctx, knum := k.knum, queue := k.queue, ring := k.ring, cores := h.cores }
  | none =>
    let saved := l.dev.kernels.filter fun k => k.st == 4 && l.bindable k.ctx && l.jobsSaved k.ctx k.knum &&
      !l.dev.sched.bound.contains (k.ctx, k.knum) && (l.resumeSet k).isSome
    (saved.find? fun k => saved.all fun q => !(q.heapEntry.before k.heapEntry)).map fun k =>
      { kind := 1, ctx := k.ctx, knum := k.knum, queue := k.queue, ring := k.ring, list := Config.bindList l.dev.tick, cores := (l.resumeSet k).getD [] }

/-- BIND (R327): what it precedes; the kernel's heap entry leaves. A bind that has been made changes nothing. -/
def Live.makeBind (l : Live) (r : Bind) : Live :=
  if l.dev.sched.bound.contains (r.ctx, r.knum) then l
  else
    let l := l.putBind r
    if r.kind != 0 then l
    else (l.onSched fun s => { s with heap := s.heap.filter fun x => !(x.ctx == r.ctx && x.knum == r.knum) }).retestQueues

/-- HEAP_BIND (R316, R325): pre-emption for the first entry, then the next bind record. -/
def execHeapBind (s : State) : Host.Outcome State Fault Refusal :=
  event s fun b l =>
    if !l.schedRuns b || !l.bindRoom then l
    else
      let l := match l.dev.sched.heap with
        | h :: _ => if h.surplus then l else l.evictFor b h
        | [] => l
      match l.nextBind with
      | none => l
      | some r => (l.journal 1 r.queue r.ring r.knum r.kind 0).makeBind r

/-- The retirement record of a kernel as its first 28 bytes (R317). -/
def Kernel.record (k : Kernel) (turn : Nat) : Nat :=
  k.end_ + k.cause % 256 * 2 ^ 8 + k.refoff % 65536 * 2 ^ 16 + k.knum % 2 ^ 32 * 2 ^ 32 + turn % 2 ^ 64 * 2 ^ 64 +
    k.ntrap % 2 ^ 32 * 2 ^ 128 + k.wldisc % 2 ^ 32 * 2 ^ 160 + k.jfail % 2 ^ 32 * 2 ^ 192

/-- A kernel retires (R317): its threads, lists, gangs and phasers are given up, the retirement record is written, and the completion goes to
the scheduler. -/
def Live.retire (b : Boot) (l : Live) (k : Kernel) : Live :=
  let l := l.discardSave k.ctx k.knum
  let saved := ((l.dev.kernel? k.ctx k.knum).elim 0 Kernel.wldisc) - k.wldisc
  let lists := (l.dev.work.filter fun w => w.2.holder == some (k.ctx, k.knum))
  let left := (lists.map fun w => w.2.items.length).sum
  let ended := distinct ((l.dev.threads.filter fun e => e.1 % 64 != 63 && e.2.of k.ctx k.knum && e.2.live).map fun e => e.1 / 64)
  let l := (l.giveUp k).map fun d => ended.foldl (fun d c => d.reportGroups k.ctx k.knum c) d
  let k := { k with wldisc := k.wldisc + saved + left }
  let v := k.record (l.turn b)
  let l : Live := match areaFault (BitVec.ofNat 64 k.savea), l.fwReachAll b k.ctx (k.savea + 128) true 7 with
    | none, .ok _ => l.fwWrite b k.ctx (k.savea + 128) v 128
    | _, _ => l
  let l : Live := l.map fun d => d.onKernel k.ctx k.knum fun _ => { k with st := 7 }
  let l := if k.deadline < l.turn b then l.onQueue k.queue fun r => { r with miss := Nat.min (r.miss + 1) (2 ^ 32 - 1) } else l
  ((l.onSched fun s => { s with fifo := s.fifo ++
    [{ ctx := k.ctx, knum := k.knum, queue := k.queue, ring := k.ring, flags := k.flags, addr := k.cmpaddr, val := k.cmpval, info := BitVec.ofNat 64 (v % 2 ^ 64) }] }).retestQueues).tryRecalls b

/-- The page of a kernel's retirement record migrates: the retirement waits (R393, R436). -/
def Live.recordWaits (b : Boot) (l : Live) (k : Kernel) : Bool :=
  (areaFault (BitVec.ofNat 64 k.savea)).isNone && (match l.fwReachAll b k.ctx (k.savea + 128) true 7 with
    | .wait => true
    | _ => false)

/-- Dispatch can report another retirement (R326). -/
def Live.fifoRoom (l : Live) : Bool := decide (l.dev.sched.fifo.length < 1024)

/-- A bind record of a kernel that is SUBMITTED (R308 to R311): its launch record is checked, its job status area zeroed, and population
begins. One whose record failed when it was admitted, and passes now, takes its core set now, if those cores are free. -/
def Live.bindLaunch (b : Boot) (l : Live) (k : Kernel) : Live :=
  let off := l.lrecFault b k.lrec k.ctx k.owner
  match off with
  | some o => l.retire b { k with end_ := 3, refoff := o, cores := [] }
  | none =>
    let cores := if k.cores.isEmpty then (l.coreSet b k.lrec).getD [] else k.cores
    let free := !k.cores.isEmpty || cores.all (l.freeCore k.owner (l.dev.kernels.flatMap l.boundCores))
    let k := { k with cores, lstks := ({ k with cores } : Kernel).launchStacks }
    let l := l.map fun d => d.onKernel k.ctx k.knum fun _ => k
    if !free then l.releaseBind k
    else
      let l := l.zeroArea b k.ctx k.jsa (32 * k.nclu)
      l.map fun d => d.onKernel k.ctx k.knum fun k => { k with st := 1, populated := 0, nextLt := [] }

/-- The kernel that dispatch is populating: the next core is its turn (R311). -/
def Live.populating (l : Live) : Option Kernel := l.dev.kernels.find? fun k => k.st == 1 && decide (k.populated < k.cores.length)

/-- Dispatch takes a bind record, and reports that it has (R326). -/
def Live.takeBind (l : Live) (r : Bind) (rest : List Bind) : Live :=
  l.onSched fun s => { s with binds := rest, fifo := s.fifo ++
    [{ ctx := r.ctx, knum := r.knum, queue := r.queue, ring := r.ring, flags := 0, addr := 0, val := 0, info := 0, taken := true }] }

/-- BIND_RECORD (R311, R316, R326): dispatch populates the next core of a kernel, or takes the next bind record. It checks nothing that the scheduler
has decided. A kernel whose bind record was written before a recall of a cluster began is pre-empted there at once (R347). -/
def execBindRecord (s : State) : Host.Outcome State Fault Refusal :=
  event s fun b l =>
    match l.populating with
    | some k =>
      let core := k.cores.getD k.populated 0
      match (if farCore core || (l.dev.core core).lost then some (l.map fun d => d.onKernel k.ctx k.knum fun k => { k with populated := k.populated + 1 }) else l.populateCore k core) with
      | none => if k.restored then l else l.releaseBind k
      | some l =>
        if (l.dev.cluster (core / 8)).rcl then l.preempt b k.ctx k.knum
        else if k.populated + 1 < k.cores.length then l
        else l.map fun d => (d.onKernel k.ctx k.knum fun k => { k with st := 2 }).drainKernel k.ctx k.knum
    | none =>
      match l.dev.sched.binds with
      | [] => l
      | r :: rest =>
        if l.dev.sched.tko || !l.fifoRoom then l
        else
          let l' := l.takeBind r rest
          match l.dev.kernel? r.ctx r.knum with
          | none => l'.unbind r.ctx r.knum
          | some k =>
            match r.kind with
            | 0 =>
              if k.st != 0 then l'
              else if l.areaWaits b k.ctx k.jsa (32 * k.nclu) || ((l.lrecFault b k.lrec k.ctx k.owner).isSome && l.recordWaits b k) then l
              else l'.bindLaunch b k
            | 1 =>
              if k.st != 4 then l'
              else
                let l := (l'.restore b k r.cores).getD (l'.unbind r.ctx r.knum)
                if r.cores.any fun c => (l.dev.cluster (c / 8)).rcl then l.preempt b r.ctx r.knum else l
            | _ => l'.map fun d => d.endKernel r.ctx r.knum

/-- PREEMPT_REQUEST (R310, R314). -/
def execPreemptRequest (ctx knum : Nat) (s : State) : Host.Outcome State Fault Refusal :=
  event s fun b l => (l.preempt b ctx knum).tryRecalls b

/-- CORE_SAVE (R111, R314): a halted core of a kernel is saved once everything that concerns the kernel has landed. -/
def execCoreSave (ctx knum lc : Nat) (s : State) : Host.Outcome State Fault Refusal :=
  event s fun b l =>
    match l.dev.kernel? ctx knum with
    | none => l
    | some k =>
      match k.cores[lc]? with
      | none => l
      | some core =>
        if k.st != 3 || k.populated ≤ lc || shas k.saved lc || farCore core || (l.dev.cluster (core / 8)).busy || !l.quiet ctx knum ||
            !l.dev.stillOn ctx knum (· == core) then l
        else l.saveCore b k lc core

/-- Every populated core of a kernel is saved (R310); those on other packages are as these report (assumption 1). -/
def Dev.coresSaved (d : Dev) (k : Kernel) : Bool :=
  (List.range k.populated).all fun i => shas k.saved i || (farCore (k.cores.getD i 0) && Config.farDone d.tick)

/-- KERNEL_SAVED (R274, R310): every core, phaser, copy job and list is saved. -/
def execKernelSaved (ctx knum : Nat) (s : State) : Host.Outcome State Fault Refusal :=
  event s fun b l =>
    match l.dev.kernel? ctx knum with
    | none => l
    | some k =>
      if k.st == 3 && l.dev.coresSaved k && l.jobsSaved ctx knum && l.quiet ctx knum then (l.saveRest b k).tryRecalls b else l

/-- Every job of a kernel has ended (R295, R310). -/
def Live.jobsOver (l : Live) (ctx knum : Nat) : Bool := l.dev.jobs.all fun e => e.2.ctx != ctx || e.2.knum != knum || e.2.ended

/-- Jobs that only wait to be counted as ended are ended. -/
def Live.settleJobs (b : Boot) (l : Live) (ctx knum : Nat) : Live :=
  l.dev.jobs.foldl (fun l e => if e.2.ctx == ctx && e.2.knum == knum then l.settleJob b e.1 else l) l

/-- KERNEL_RETIRE (R310, R317): a DRAINING kernel whose jobs have ended, or an ENDING one whose cores have halted and jobs have ended; with
the FIFO full it stays (R326). -/
def execKernelRetire (ctx knum : Nat) (s : State) : Host.Outcome State Fault Refusal :=
  event s fun b l =>
    let l := (l.settleJobs b ctx knum).map fun d => d.drainKernel ctx knum
    match l.dev.kernel? ctx knum with
    | none => l
    | some k =>
      let moved := !l.dev.clusters.any fun c => c.2.moves.any fun m => m.ctx == ctx && m.knum == knum
      let held := l.dev.threads.any fun e => e.2.of ctx knum && e.1 % 64 != 63 && (l.dev.cluster (e.1 / 512)).busy
      let ready := (k.st == 5 && l.dev.domainEmpty ctx knum && moved) || (k.st == 6 && l.dev.stillOn ctx knum (fun _ => true) && l.quiet ctx knum && !held)
      if ready && l.jobsOver ctx knum && l.fifoRoom && !l.recordWaits b k then
        let l := l.takeDue b ctx knum fun _ => true
        l.retire b ((l.dev.kernel? ctx knum).getD k)
      else l

/-- A completion that can be made now: no earlier one of its queue is held up. -/
def Live.nextReport (b : Boot) (l : Live) : List Completion → List Nat → Option (Completion × Live × Option Completion)
  | [], _ => none
  | c :: rest, seen =>
    if c.taken then some (c, l, none)
    else if seen.contains c.queue then l.nextReport b rest seen
    else match l.complete' b c with
      | some r => some (c, r)
      | none => l.nextReport b rest (c.queue :: seen)

/-- The scheduler takes the next report of a bind taken, or makes the next completion it can (R319, R326). -/
def Live.report (b : Boot) (l : Live) : Live :=
  match l.nextReport b l.dev.sched.fifo [] with
  | none => l
  | some (c, l, more) =>
    let rest := l.dev.sched.fifo.erase c
    if c.taken then l.onSched fun s => { s with fifo := rest }
    else
    let l := if c.knum = 0 then l else l.journal 3 c.queue c.ring c.knum 0 0
    let l := (l.onSched fun s => { s with fifo := match more with
      | none => rest
      | some m => m :: rest }).closePacket c.queue c.ring
    let l := ((l.unbind c.ctx c.knum).onSched fun s => { s with groups := s.groups.filter fun g => g.2.2 != (c.ctx, c.knum) }).map fun d =>
      { d with kernels := d.kernels.filter fun k => !(k.ctx == c.ctx && k.knum == c.knum && k.st == 7) }
    if c.addr = 0 && c.knum = 0 then l else l.retestQueues

/-- RETIRE_REPORT (R319, R326, R329): held in a take-over. -/
def execRetireReport (s : State) : Host.Outcome State Fault Refusal := event s fun b l => if l.dev.sched.hold then l else l.report b

/-- What the scheduler core may be about to do: the actions for which it may have written the entry (R327). -/
def Live.nextActions (b : Boot) (l : Live) : List Redo :=
  let head := match l.servedNow with
    | none => []
    | some q =>
      let r := l.queue q
      match l.headPacket b r with
      | .error _ => []
      | .ok p =>
        if pktField p 1 1 / 2 % 2 == 1 && !r.open_.isEmpty then []
        else if pktField p 0 1 == 1 then ((l.admission b q r p).toList.map fun k => Redo.admission q k)
        else if l.controlReady r p && l.controlApplies r p then [.ctrl q] else []
  let binds := if l.bindRoom then (l.nextBind.toList.map Redo.bind) else []
  let evicts := match l.dev.sched.heap with
    | h :: _ => if h.surplus then [] else (l.dev.kernels.filter (l.yields h)).map fun k => .evict k.ctx k.knum
    | [] => []
  let done := match l.nextReport b l.dev.sched.fifo [] with
    | some (c, _) => if c.taken || c.knum = 0 then [] else [.cmpl c]
    | none => []
  if l.schedRuns b then head ++ binds ++ evicts ++ done else []

/-- The journal entry of an action. -/
def Live.enterRedo (l : Live) (a : Redo) : Live :=
  let l := match a with
    | .admission q k => l.enterAdmit q k
    | .ctrl q => l.journal 2 q (l.queue q).head 0 0 0
    | .bind r => l.journal 1 r.queue r.ring r.knum r.kind 0
    | .cmpl c => l.journal 3 c.queue c.ring c.knum 0 0
    | .evict ctx knum => (l.dev.kernel? ctx knum).elim l fun k => l.journal 4 k.queue k.ring knum 0 0
  l.onSched fun s => { s with redo := some a }

/-- The take-over redoes the action whose effect is missing (R327, R329). -/
def Live.performRedo (b : Boot) (l : Live) : Live :=
  let l' := l.onSched fun s => { s with redo := none }
  match l.dev.sched.redo with
  | none => l
  | some (.admission q k) => l'.enterKernel b q k
  | some (.ctrl q) => match l.headPacket b (l.queue q) with
    | .ok p => if (l.queue q).en && l.controlApplies (l.queue q) p then l'.applyControl b q (l.queue q) p else l'
    | .error _ => l'
  | some (.bind r) => l'.makeBind r
  | some (.evict ctx knum) => l'.preempt b ctx knum
  | some (.cmpl _) => l'

/-- The active scheduler core fails (R329, R330): the standby takes over, or no core is usable and completions are held. It may fail after the entry
of an action and before the action; which is a free choice. -/
def Live.schedFails (b : Boot) (l : Live) : Live :=
  let acts := l.nextActions b
  let c := l.choose (acts.length + 1)
  let l := if l.dev.sched.lost || l.dev.sched.tko then l else match acts[c.1]? with
    | some a => c.2.enterRedo a
    | none => c.2
  let s := l.dev.sched
  if s.lost then l
  else if s.sbyok then
    (l.onSched fun s => { s with hold := true, tko := true, sbyok := false, act := !s.act, tkocnt := Nat.min (s.tkocnt + 1) 65535, serving := none }).hardRecord b 0 0xF0 5 0 0 0
  else (l.onSched fun s => { s with lost := true, hold := true, serving := none }).hardRecord b 0 0xF1 5 0 0 0

/-- SCHED_HEARTBEAT_TIMEOUT (R329, R330). -/
def execSchedHeartbeatTimeout (s : State) : Host.Outcome State Fault Refusal := event s fun b l => l.schedFails b
/-- SCHED_IMEM_ERROR (R329, R330). -/
def execSchedImemError (s : State) : Host.Outcome State Fault Refusal := event s fun b l => l.schedFails b

/-- Makes every held completion that can be made, in FIFO order. -/
def Live.reportAll (b : Boot) (l : Live) : Nat → Live
  | 0 => l
  | n + 1 => if (l.nextReport b l.dev.sched.fifo []).isSome then (l.report b).reportAll b n else l

/-- TAKE_OVER_END (R329): the journal is replayed, kicks are reconciled, held completions written, HOLD and TKO cleared. -/
def execTakeOverEnd (s : State) : Host.Outcome State Fault Refusal :=
  event s fun b l =>
    if !l.dev.sched.tko || l.dev.sched.lost then l
    else
      let l := l.performRedo b
      let behind := (l.dev.sched.queues.filter fun q => q.2.en && q.2.tail != q.2.head).map Prod.fst
      let l := l.onSched fun s => { s with kicks := behind.foldl sinsert s.kicks }
      (l.reportAll b l.dev.sched.fifo.length).onSched fun s => { s with hold := false, tko := false }

/-- STANDBY_READY (R330). -/
def execStandbyReady (s : State) : Host.Outcome State Fault Refusal :=
  event s fun _ l => if l.dev.sched.tko || l.dev.sched.lost then l else l.onSched fun s => { s with sbyok := true }

/-- What an owner's CORECYC should have grown by, and did (R347). -/
def Live.lag (b : Boot) (l : Live) (cycles o : Nat) : Nat × Nat :=
  (l.share b o * cycles, (tget l.dev.usage 0 (o * 16)).toNat - tget l.dev.sched.progress 0 o)

/-- PROGRESS_CHECK (R347): with one owner more than 5 % behind its share and another more than 5 % ahead, XFER may be set on one cluster the
leader uses; a free choice says whether and on which. The window's cycles are those of the lowest present cluster (assumption 29). -/
def execProgressCheck (s : State) : Host.Outcome State Fault Refusal :=
  event s fun b l =>
    let now := (l.dev.cluster (((List.range 192).find? b.hasCluster).getD 0)).cycle
    let cycles := now - l.dev.sched.progressAt
    let owners := (List.range 256).filter fun o => l.share b o != 0
    let behind := owners.find? fun o => let x := l.lag b cycles o; 100 * x.2 < 95 * x.1
    let ahead := owners.find? fun o => let x := l.lag b cycles o; 105 * x.1 < 100 * x.2
    let l := match behind, ahead with
      | some t, some o =>
        let cs := (List.range 192).filter fun c => b.hasCluster c && (l.dev.cluster c).user == o && !(l.dev.cluster c).xfer && !(l.dev.cluster c).rcl && !(l.dev.cluster c).held
        let n := l.choose (cs.length + 1)
        match cs[n.1]? with
        | some c => n.2.onCluster c fun r => { r with xfer := true, xferTo := t }
        | none => n.2
      | _, _ => l
    l.onSched fun s => { s with progressAt := now, progress := (List.range 256).foldl (fun t o => tset t 0 o (tget l.dev.usage 0 (o * 16)).toNat) s.progress }

/-- BORDER_MOVE (R252, R347): every kernel in the cluster has completed there, and USER passes on. -/
def execBorderMove (cluster : Nat) (s : State) : Host.Outcome State Fault Refusal :=
  event s fun _ l =>
    let r := l.dev.cluster cluster
    let busy := l.dev.threads.any (fun e => e.1 / 512 == cluster && e.1 % 64 != 63 && e.2.live) ||
      l.dev.kernels.any fun k => (l.boundCores k).any fun c => c / 8 == cluster
    if !r.xfer || busy then l else l.onCluster cluster fun r => { r with xfer := false, user := r.xferTo }

end Sys2Proof.Machine
end

