-- ==== Sys2Proof/Machine/Context.lean ====
section
/-!
DEFINITION. Contexts (18_context.md): the commands of the security core, rekeying, poison, hot reset, suspension and the scrub.
-/

namespace Sys2Proof.Machine

/-- The result of a command, at the mailbox of the security core (R335). -/
def Live.result (l : Live) (cmd res : Nat) : Live := l.map fun d => { d with out := d.out ++ [.mailbox cmd res] }

/-- A command on a context in one of some states (R335): BADARG for a number that names none, BADSTATE in any other state. -/
def Live.command (l : Live) (cmd ctx : Nat) (states : List Nat) (k : Ctx → Live) : Live :=
  if ctx = 0 || 1023 < ctx then l.result cmd 3
  else if !states.contains (l.dev.ctx ctx).st then l.result cmd 1
  else k (l.dev.ctx ctx)

/-- A command that carries key material is accepted only in an SPDM session whose requester has attested the part (R335); otherwise it is DENIED, a result that the
rule does not name (assumption 96). -/
def Live.secured (l : Live) (cmd : Nat) (k : Unit → Live) : Live := if l.dev.sessions.any fun e => e.2 then k () else l.result cmd 5

/-- A page that can be given to a context: 64 KiB or 2 MiB of one DRAM tier, aligned (R332, R381). -/
def Page.ok (b : Boot) (p : Page) : Bool :=
  (p.bytes == 65536 || p.bytes == 2097152) && p.pa % p.bytes == 0 && decide (p.pa < 2 ^ 49) && (paHome b p.pa).isSome

/-- CREATE (R335, R336): memory handed to a context is zero and FULL (R215). -/
def execCreate (ctx owner : Nat) (prot : Bool) (spill ptroot : Word) (pages : List Page) (s : State) : Host.Outcome State Fault Refusal :=
  event s fun b l => l.command 1 ctx [0] fun _ =>
    let held := pages.any fun p => l.pageTaken p (fun c => c.st == 7) || l.paLost b p.pa
    let taken := pages.any fun p => l.pageTaken p (fun c => c.st != 0) || l.poolLines.any fun a => runsMeet p.pa p.bytes a 128
    if 256 ≤ owner || !pages.all (Page.ok b) then l.result 1 3
    else if held then l.result 1 2
    else if taken then l.result 1 3
    else
      let l := pages.foldl (fun l p => l.write (.clean (p.pa / 16) (p.bytes / 16))) l
      let l := l.onCtx ctx fun _ => { st := 1, owner, prot, spill, ptroot, pages }
      (pages.foldl (fun l p => l.touchPa b ctx p.pa) l).result 1 0

/-- ATTACH (R42, R332, R333, R335, R346, R349). -/
def execAttach (ctx cluster : Nat) (mask : BitVec 8) (base size : Nat) (s : State) : Host.Outcome State Fault Refusal :=
  event s fun b l => l.command 2 ctx [1, 2, 3] fun c =>
    let r := l.dev.cluster cluster
    let m := mask.toNat
    if !b.hasCluster cluster || m = 0 || 64 < base + size then l.result 2 3
    else if r.held || r.rcl || r.lost || l.dev.links.diesLost.contains (dieOf cluster) then l.result 2 2
    else if r.user != c.owner then l.result 2 5
    else
      let mine := c.attached.find? fun a => a.1 == cluster
      let clash := l.dev.ctxs.any fun e => e.1 != ctx && e.2.st != 0 && e.2.attached.any fun a => a.1 == cluster && a.2.1 &&& m != 0
      let other := mine.elim false fun a => a.2.2.1 != base || a.2.2.2 != size
      if clash || other || !l.windowFree ctx cluster base size then l.result 2 3
      else match (if c.relay then some l else l.grantPlaces b ctx (relayLinks b)) with
        | none => l.result 2 6
        | some l =>
          let l := l.onCtx ctx fun c =>
            { c with relay := true
                     attached := (c.attached.filter fun a => a.1 != cluster) ++ [(cluster, (mine.elim 0 fun a => a.2.1) ||| m, base, size)]
                     offs := if mine.isSome then c.offs else tput c.offs cluster c.spillNext
                     spillNext := if mine.isSome then c.spillNext else c.spillNext + size }
          (l.touch ctx [dieOf cluster]).result 2 0

/-- EPSET (R276, R335). -/
def execEpset (ctx cluster ep : Nat) (entry : Word) (s : State) : Host.Outcome State Fault Refusal :=
  event s fun _ l => l.command 3 ctx [1, 2, 3] fun c =>
    if 64 ≤ ep || !c.attached.any (fun a => a.1 == cluster) || entry &&& 0x7FCFFF000000FFFF != 0 then l.result 3 3
    else (l.onCtx ctx fun c => { c with endpoints := tset c.endpoints 0 (cluster * 64 + ep) entry }).result 3 0

/-- ACTIVATE (R335, R336). -/
def execActivate (ctx : Nat) (s : State) : Host.Outcome State Fault Refusal :=
  event s fun _ l => l.command 4 ctx [1, 2] fun c =>
    if c.st == 1 && c.prot then l.result 4 1 else (l.onCtx ctx fun c => { c with st := 3 }).result 4 0

/-- A key slot by its number (R337): 0 memory, 1 fabric, 2 to 5 weight keys 0 to 3. -/
def Ctx.key (c : Ctx) (slot : Nat) : Option (BitVec 256) :=
  match slot with
  | 0 => c.keyMem
  | 1 => c.keyFab
  | n => tfind c.keyW (n - 2)

/-- Installs a key. -/
def Ctx.setKey (c : Ctx) (slot : Nat) (key : BitVec 256) : Ctx :=
  match slot with
  | 0 => { c with keyMem := some key }
  | 1 => { c with keyFab := some key }
  | n => { c with keyW := tput c.keyW (n - 2) key }

/-- A WLDS of a context names a weight key (R341). -/
def Live.keyInUse (l : Live) (ctx w : Nat) : Bool :=
  l.dev.reqs.any fun r => r.ctx == ctx && (match r.kind with
    | .chunks _ _ _ kslot _ _ _ _ _ _ => kslot == w
    | _ => false)

/-- REKEY (R335, R341): a weight key's command waits until no WLDS of the context names it; the fabric key's begins a barrier. -/
def execRekey (ctx slot : Nat) (key : BitVec 256) (s : State) : Host.Outcome State Fault Refusal :=
  event s fun _ l => l.command 5 ctx [3] fun c =>
    if slot = 0 || 5 < slot then l.result 5 3
    else if (c.key slot).isNone then l.result 5 4
    else if slot = 1 then (l.onCtx ctx fun c => { c with st := 5, rekey := some (1, key) }).result 5 0
    else if l.keyInUse ctx (slot - 2) then l
    else (l.onCtx ctx fun c => c.setKey slot key).result 5 0

/-- EFWD (R335). -/
def execEfwd (ctx : Nat) (on : Bool) (s : State) : Host.Outcome State Fault Refusal :=
  event s fun _ l => l.command 6 ctx [1, 2] fun _ => (l.onCtx ctx fun c => { c with efwd := on }).result 6 0

/-- DESTROY (R335, R336, R349): of a context that rekeys, it is taken once the rekey has ended. -/
def execDestroy (ctx : Nat) (s : State) : Host.Outcome State Fault Refusal :=
  event s fun b l => l.command 7 ctx [1, 2, 3, 4, 5, 6] fun c =>
    (if c.st == 5 then l.onCtx ctx fun c => { c with destroy := true } else if c.st == 6 then l else l.drainContext b ctx).result 7 0

/-- RESUME (R335, R343). -/
def execResume (ctx : Nat) (s : State) : Host.Outcome State Fault Refusal :=
  event s fun _ l => l.command 8 ctx [4] fun c =>
    if c.prot then l.result 8 1 else (l.onCtx ctx fun c => { c with st := 3 }).result 8 0

/-- KEYLOAD (R335, R336, R343, R364): slot 6 only gives the Attic domain. A memory key is never replaced by another (R341). -/
def execKeyload (ctx slot : Nat) (key : BitVec 256) (adom : Nat) (s : State) : Host.Outcome State Fault Refusal :=
  event s fun _ l => l.secured 9 fun _ => l.command 9 ctx [1, 2, 3, 4] fun c =>
    let weight := decide (2 ≤ slot)
    if 6 < slot || 255 < adom then l.result 9 3
    else if (weight && slot != 6 && c.st != 3) || (c.st == 4 && (weight || !c.prot)) then l.result 9 1
    else if adom != 0 && (tfind l.dev.domains adom).isNone then l.result 9 4
    else if slot == 0 && c.keyMem.isSome && c.keyMem != some key then l.result 9 3
    else
      let c := if slot == 6 then c else c.setKey slot key
      let c := if adom == 0 then c else { c with adom }
      let c := if c.st == 1 && c.keyMem.isSome && c.keyFab.isSome then { c with st := 2 } else c
      let c := if c.st != 4 then c
        else
          let both := c.reloaded ||| 2 ^ slot
          if both == 3 then { c with st := 3, reloaded := 0 } else { c with reloaded := both }
      (l.onCtx ctx fun _ => c).result 9 0

/-- A cluster is idle: no kernel is bound there and no thread lives there (R347). -/
def Live.idleCluster (l : Live) (cluster : Nat) : Bool :=
  !l.dev.threads.any (fun e => e.1 / 512 == cluster && e.1 % 64 != 63 && e.2.live) && !l.dev.kernels.any fun k => (l.boundCores k).any fun c => c / 8 == cluster

/-- LEND (R346, R347). -/
def execLend (cluster borrower : Nat) (s : State) : Host.Outcome State Fault Refusal :=
  event s fun b l =>
    let r := l.dev.cluster cluster
    if !b.hasCluster cluster || 256 ≤ borrower || borrower = r.home then l.result 10 3
    else if r.held || r.rcl then l.result 10 2
    else if r.lent || r.xfer || r.user != r.home || !l.idleCluster cluster then l.result 10 1
    else (l.onCluster cluster fun r => { r with user := borrower, lent := true }).result 10 0

/-- RECALL (R347): RCL, then every kernel with a core in the cluster is pre-empted; the rest follows once they are SAVED. -/
def execRecallCluster (cluster : Nat) (s : State) : Host.Outcome State Fault Refusal :=
  event s fun b l =>
    let r := l.dev.cluster cluster
    if !b.hasCluster cluster then l.result 11 3
    else if !r.lent || r.rcl then l.result 11 1
    else
      let l := l.onCluster cluster fun r => { r with rcl := true }
      let l := l.dev.kernels.foldl (fun l k => if k.stays cluster then l.preempt b k.ctx k.knum else l) l
      (l.result 11 0).tryRecall b cluster

/-- SNAP (R348). -/
def execSnap (owner : Nat) (nonce : BitVec 128) (s : State) : Host.Outcome State Fault Refusal :=
  event s fun b l =>
    if 256 ≤ owner then l.result 12 3
    else
      let v := (List.range 9).map fun i => tget l.dev.usage 0 (owner * 16 + i)
      (l.map fun d => { d with snaps := d.snaps + 1, out := d.out ++ [.measurement owner d.snaps (BitVec.ofNat 64 (l.turn b)) v nonce] }).result 12 0

/-- Pool pages that can be granted: whole 64 KiB pages of a present stack, in no pool and in no context (R364). -/
def Live.poolOk (b : Boot) (l : Live) (p : AtticPool) : Bool :=
  b.hasStack p.stack && p.base % 65536 == 0 && p.lines % 512 == 0 && p.base / 2 ^ 36 == p.stack && decide (p.base % 2 ^ 36 + 128 * p.lines ≤ 64000000000) &&
    !l.pageTaken { pa := p.base, bytes := 128 * p.lines } (fun c => c.st != 0) && !l.poolLines.any fun a => runsMeet p.base (128 * p.lines) a 128

/-- ADOMCFG (R335, R364). -/
def execAdomcfg (adom : Nat) (dk : Option (BitVec 256)) (lines : List AtticPool) (s : State) : Host.Outcome State Fault Refusal :=
  event s fun b l => l.secured 13 fun _ =>
    let old := tfind l.dev.domains adom
    let apart := lines.zipIdx.all fun p => lines.zipIdx.all fun q => p.2 == q.2 || !runsMeet p.1.base (128 * p.1.lines) q.1.base (128 * q.1.lines)
    if adom = 0 || 255 < adom || old.isSome == dk.isSome || !lines.all (l.poolOk b) || !apart then l.result 13 3
    else
      let d : AtticDomain := match old, dk with
        | some d, _ => d
        | none, k => { dk := k.getD 0 }
      let free := lines.foldl (fun (t : Table (List Nat)) p =>
        tput t p.stack ((List.range p.lines).foldl (fun s i => sinsert s (p.base + 128 * i)) (tget t [] p.stack))) d.free
      (l.map fun x => { x with domains := tput x.domains adom { d with free } }).result 13 0

/-- What a fabric rekey held at the NIs leaves from now on (R341). -/
def Live.reopen (l : Live) (ctx : Nat) : Live :=
  l.map fun d => { d with
    copies := d.copies.map fun e => if e.2.ctx == ctx then (e.1, { e.2 with next := Nat.max e.2.next (8 * d.slots), rnext := Nat.max e.2.rnext (8 * d.slots) }) else e
    msgs := d.msgs.map fun m => if m.ctx == ctx && m.came.isNone && m.sent == 0 then { m with ready := Nat.max m.ready d.slots } else m }

/-- A fabric rekey ends (R336, R341): the context is ACTIVE, injection reopens, and a DESTROY that waited is taken. -/
def Live.endRekey (b : Boot) (l : Live) (ctx : Nat) (key : Option (BitVec 256)) : Live :=
  let gone := (l.dev.ctx ctx).destroy
  let l := (l.onCtx ctx fun c => { c with st := 3, rekey := none, destroy := false, keyFab := key.or c.keyFab }).reopen ctx
  if gone then l.drainContext b ctx else l

/-- Every flit and every relay message that was sent under the old key has arrived (R341 step 2). -/
def Live.rekeyDrained (l : Live) (ctx : Nat) : Bool :=
  !l.dev.flits.any (fun f => f.pos.isSome && f.at_.isNone && (l.circuit f.cnum).ctx == ctx) &&
    !l.dev.msgs.any fun m => m.ctx == ctx && l.relayHeld ctx m.dest && (m.came.isSome || m.sent != 0)

/-- REKEY_SWAP (R341). -/
def execRekeySwap (ctx : Nat) (s : State) : Host.Outcome State Fault Refusal :=
  event s fun b l =>
    let c := l.dev.ctx ctx
    match c.rekey with
    | none => l
    | some (_, key) => if c.st == 5 && l.rekeyDrained ctx then l.endRekey b ctx (some key) else l

/-- REKEY_ABANDON (R341): the old key stays. -/
def execRekeyAbandon (ctx : Nat) (s : State) : Host.Outcome State Fault Refusal :=
  event s fun b l => if (l.dev.ctx ctx).st == 5 then (l.ctxRecord b ctx 0xED 0 0 0 0 0 0).endRekey b ctx none else l

/-- FABRIC_REKEY_AUTO (R339): the security core takes a key of its own making, a free choice. -/
def execFabricRekeyAuto (ctx : Nat) (s : State) : Host.Outcome State Fault Refusal :=
  event s fun _ l =>
    let c := l.dev.ctx ctx
    if c.st != 3 || c.keyFab.isNone then l
    else
      let k := l.choose (2 ^ 256)
      k.2.onCtx ctx fun c => { c with st := 5, rekey := some (1, BitVec.ofNat 256 k.1) }

/-- CONTEXT_POISON (R340): a check of a forwarded read fails. -/
def execContextPoison (ctx : Nat) (s : State) : Host.Outcome State Fault Refusal :=
  event s fun b l =>
    let c := l.dev.ctx ctx
    if !c.efwd || !(c.st == 3 || c.st == 5) then l
    else
      let l := l.onCtx ctx fun c => { c with poison := true }
      ((l.ctxRecord b ctx 0xE0 0 0 0 0 0 0).ctxRecord b ctx 0xE1 0 0 0 0 0 0).trapContext b ctx

/-- A context is suspended by a hot reset (R343): its kernels are saved, bind records that dispatch has not taken are withdrawn, its circuits FAILED. -/
def Live.suspend (b : Boot) (l : Live) (ctx : Nat) : Live :=
  let l := (l.onCtx ctx fun c => { c with st := 4, rekey := none, reloaded := 0 }).reopen ctx
  let l := l.ctxRecord b ctx 0xEB 0 0 0 0 0 0
  let l := l.onSched fun s => { s with
    binds := s.binds.filter fun r => r.ctx != ctx || r.kind == 2
    bound := s.bound.filter fun k => k.1 != ctx || !s.binds.any fun r => r.ctx == ctx && r.knum == k.2 && r.kind != 2 }
  let l := l.dev.kernels.foldl (fun l k => if k.ctx == ctx then l.preempt b k.ctx k.knum else l) l
  l.dev.circuits.foldl (fun l e => if e.2.ctx == ctx then l.failCircuit b e.1 3 else l) l

/-- HOT_RESET (R343, R349, R350): contexts suspended, scrubs to be restarted at phase KEYS by SCRUB_START, scheduler cores restarted. A
DESTROY that waits for a rekey is taken as the rekey is abandoned. -/
def execHotReset (s : State) : Host.Outcome State Fault Refusal :=
  event s fun b l =>
    let live := l.dev.ctxs.filter fun e => e.2.st == 3 || e.2.st == 5
    let l := live.foldl (fun l e => if e.2.destroy then l.drainContext b e.1 else l.suspend b e.1) l
    let l := l.dev.ctxs.foldl (fun l e => if e.2.st == 7
      then (l.onCtx e.1 fun c => { c with restarts := Nat.min (c.restarts + 1) 255 }).hardRecord b 0 0xF7 5 0 e.1 0 else l) l
    let l := l.map fun d => { d with
      scrubs := []
      sessions := []
      clusters := d.clusters.map fun e => (e.1, { e.2 with tlb2 := [], robuf := [] })
      cores := d.cores.map fun e => (e.1, { e.2 with tlb := [], icache := [], code := [] }) }
    l.onSched fun s => { s with lost := false, hold := false, tko := false, serving := none }

/-- SUSPEND_EXPIRE (R336, R343): ten seconds have passed. -/
def execSuspendExpire (ctx : Nat) (s : State) : Host.Outcome State Fault Refusal :=
  event s fun b l => if (l.dev.ctx ctx).st == 4 then (l.ctxRecord b ctx 0xEC 0 0 0 0 0 0).drainContext b ctx else l

/-- Gateway dies that are there (R21, R422). -/
def Live.gateways (b : Boot) (l : Live) : List Nat := (List.range 4).filter fun g => b.hasDie (8 + g) && !l.dev.links.diesLost.contains (8 + g)

/-- The scrub engine of a context (R349): that of the gateway of its lowest cluster, or the next present one. -/
def Live.scrubEngine (b : Boot) (l : Live) (ctx : Nat) : Nat :=
  let g := ((List.range 192).find? fun c => (l.dev.ctx ctx).attached.any fun a => a.1 == c).elim 0 fun c => stackOf c / 3
  ((List.range 4).map fun i => (g + i) % 4).find? (l.gateways b).contains |>.getD 0

/-- A scrub engine is at work. -/
def Scrub.busy (s : Scrub) : Bool := s.phase != 0 && s.phase != 5

/-- The engine that scrubs a context now. -/
def Live.scrubOf (l : Live) (ctx : Nat) : Option Nat := (l.dev.scrubs.find? fun e => e.2.ctx == ctx && e.2.busy).map Prod.fst

/-- Units of 64 KiB of a context's windows (R349). -/
def Ctx.windowUnits (c : Ctx) : Nat := (c.attached.map fun a => a.2.2.2).sum

/-- Units of 64 KiB of a context's windows and pages (R349). -/
def Ctx.units (c : Ctx) : Nat := c.windowUnits + (c.pages.map fun p => p.bytes / 65536).sum

/-- Gives a context's scrub to an engine, unless that one is at work (R349, R350). -/
def Live.assignScrub (b : Boot) (l : Live) (ctx : Nat) : Live :=
  let g := l.scrubEngine b ctx
  let c := l.dev.ctx ctx
  if (l.scrubOf ctx).isSome || (tget l.dev.scrubs {} g).busy then l
  else l.map fun d => { d with scrubs := tput d.scrubs g { ctx, phase := 1, restarts := c.restarts, total := c.units } }

/-- A drained context can be scrubbed (R336): every kernel retired and reported, every job ended, every circuit FREE. -/
def Live.drained (l : Live) (ctx : Nat) : Bool :=
  !l.dev.kernels.any (fun k => k.ctx == ctx) && !l.dev.sched.fifo.any (fun c => c.ctx == ctx) && l.dev.jobs.all (fun j => j.2.ctx != ctx || j.2.ended) &&
    (l.openCircuits ctx).isEmpty && !l.dev.reqs.any (fun r => r.ctx == ctx)

/-- The entries of a table in memory that are not all zero bytes. -/
def tableEntries (b : Boot) (m : Mem) (pa size : Nat) : List Word :=
  (distinct ((m.cells.filter fun c => pa ≤ c.1 && c.1 < pa + size).map fun c => c.1 / 8)).filterMap fun i => readPte b m (8 * i)

/-- The page-table pages under a level-1 table: address and size (R379). -/
def tablePages (b : Boot) (m : Mem) (root : Nat) : List (Nat × Nat) :=
  let mids := ((tableEntries b m root 16384).filter fun p => pointerOk p 524288).map pteAddr
  let leaves := mids.flatMap fun a => ((tableEntries b m a 524288).filter fun p => !pteLeaf p && pointerOk p 256).map pteAddr
  (root, 16384) :: mids.map (fun a => (a, 524288)) ++ leaves.map fun a => (a, 256)

/-- The CLUSTER phase (R349): windows zero and FULL; one on a lost die counts as done. -/
def Live.scrubWindows (l : Live) (c : Ctx) : Live :=
  c.attached.foldl (fun l a =>
    if l.dev.links.diesLost.contains (dieOf a.1) then l else l.write (.clean (clusterPa a.1 (65536 * a.2.2.1) / 16) (4096 * a.2.2.2))) l

/-- The CLUSTER and DRAM phases (R349): windows zero and FULL, pages with the scrub mark; units homed on a lost die count as done. -/
def Live.scrubMemory (b : Boot) (l : Live) (c : Ctx) : Live :=
  c.pages.foldl (fun l p => if l.paLost b p.pa then l else l.write (.clean (p.pa / 16) (p.bytes / 16))) (l.scrubWindows c)

/-- The units of 64 KiB of a context's pages, in order (R349). -/
def Ctx.pageUnits (c : Ctx) : List Nat := c.pages.flatMap fun p => (List.range (p.bytes / 65536)).map fun i => p.pa + 65536 * i

/-- The TABLES phase (R42, R349): page tables, relay places, TLB entries, read-only buffer lines, phaser records, windows, and what the cores
of the context hold of it. -/
def Live.scrubTables (l : Live) (ctx : Nat) : Live :=
  let c := l.dev.ctx ctx
  let l := c.tables.foldl (fun l t => l.write (.clean (t.1 / 16) (t.2 / 16))) l
  l.map fun d => { d with
    links := { d.links with places := d.links.places.filter (fun p => p.2 != ctx), windows := d.links.windows.filter (fun w => w.2 != ctx), winShadow := d.links.winShadow.filter fun w => w.2 != ctx }
    clusters := d.clusters.map fun e => (e.1, { e.2 with tlb2 := e.2.tlb2.filter (fun t => t.ctx != ctx), robuf := e.2.robuf.filter fun r => r.1 != ctx })
    cores := d.cores.map fun e =>
      let mine := wbits e.2.ctxnum 15 0 == ctx
      (e.1, { e.2 with tlb := e.2.tlb.filter (fun t => t.ctx != ctx), ctxnum := if mine then 0 else e.2.ctxnum, cmwin := if mine then 0 else e.2.cmwin,
                       ptroot := if mine then 0 else e.2.ptroot, icache := if mine then [] else e.2.icache, code := if mine then [] else e.2.code, misses := if mine then [] else e.2.misses })
    phasers := d.phasers.map fun e => if e.2.ctx == ctx then (e.1, {}) else e
    jobs := d.jobs.filter fun j => j.2.ctx != ctx
    saves := d.saves.filter fun s => s.ctx != ctx }

/-- One step of a scrub engine (R349, R350): KEYS and CLUSTER are one step each, DRAM one for each unit of 64 KiB; TABLES is entered last. -/
def Live.scrubStep (b : Boot) (l : Live) (ctx g : Nat) : Live :=
  let s := tget l.dev.scrubs {} g
  let c := l.dev.ctx ctx
  let put := fun (l : Live) (s : Scrub) => l.map fun d => { d with scrubs := tput d.scrubs g s }
  match s.phase with
  | 1 => put (l.onCtx ctx fun c => { c with keyMem := none, keyFab := none, keyW := [] }) { s with phase := 2 }
  | 2 => put (l.scrubWindows c) { s with phase := 3, done := c.windowUnits }
  | 3 => match c.pageUnits[s.done - c.windowUnits]? with
    | none => put l { s with phase := 4 }
    | some a => put (if l.paLost b a then l else l.write (.clean (a / 16) 4096)) { s with done := s.done + 1 }
  | _ => l.scrubTables ctx

/-- SCRUB_START (R349, R350): the context enters SCRUBBING, its clusters are HELD, and its scrub is assigned, or restarted after a hot reset. The engine
that has it goes on by one step. -/
def execScrubStart (ctx : Nat) (s : State) : Host.Outcome State Fault Refusal :=
  event s fun b l =>
    let c := l.dev.ctx ctx
    if c.st == 7 then
      match l.scrubOf ctx with
      | none => l.assignScrub b ctx
      | some g => l.scrubStep b ctx g
    else if c.st != 6 || !l.drained ctx then l
    else
      let tables := if c.ptroot = 0 then [] else tablePages b l.mem (wbits c.ptroot 51 14 * 16384)
      let l := l.onCtx ctx fun c => { c with st := 7, restarts := 0, tables }
      (c.attached.foldl (fun l a => l.onCluster a.1 fun r => { r with held := true }) l).assignScrub b ctx

/-- The last context of a domain has been scrubbed (R364): the domain is retired, its entries removed and its pool pages scrubbed. -/
def Live.retireDomain (l : Live) (adom : Nat) : Live :=
  match tfind l.dev.domains adom with
  | none => l
  | some d =>
    let lines := (d.free.flatMap Prod.snd) ++ (l.dev.names.filter fun e => e.2.adom == adom).map fun e => e.2.pa
    let l := lines.foldl (fun l a => l.write (.clean (a / 16) 8)) l
    l.map fun d => { d with names := d.names.filter (fun e => e.2.adom != adom), domains := tdel d.domains adom }

/-- SCRUB_DONE (R349, R350, R364): every phase has ended; the context is FREE, HELD clears, and a scrub or a recall that waited goes on. -/
def execScrubDone (ctx : Nat) (s : State) : Host.Outcome State Fault Refusal :=
  event s fun b l =>
    match l.scrubOf ctx with
    | none => l
    | some g =>
      let c := l.dev.ctx ctx
      let l := (l.scrubMemory b c).scrubTables ctx
      let l := l.map fun d => { d with ctxs := tdel d.ctxs ctx, scrubs := tput d.scrubs g (let s := tget d.scrubs {} g; { s with phase := 5, done := s.total }) }
      let l := c.attached.foldl (fun l a =>
        let still := l.dev.ctxs.any fun e => e.2.st == 7 && e.2.attached.any fun x => x.1 == a.1
        l.onCluster a.1 fun r => { r with held := still }) l
      let l := if c.adom = 0 || l.dev.ctxs.any (fun e => e.2.adom == c.adom) then l else l.retireDomain c.adom
      let wait := (l.dev.ctxs.filter fun e => e.2.st == 7 && (l.scrubOf e.1).isNone).map Prod.fst
      let urgent := fun n => (l.dev.ctx n).attached.any fun a => (l.dev.cluster a.1).rcl
      let l := ((wait.filter urgent) ++ wait.filter fun n => !urgent n).foldl (fun l n => l.assignScrub b n) l
      l.tryRecalls b

end Sys2Proof.Machine
end

