-- ==== Sys2Proof/Machine/Fault.lean ====
section
/-!
DEFINITION. Machine checks, die loss, fault collectors, debug and the service of the part (23_faults.md, R16, R359).
-/

namespace Sys2Proof.Machine

/-- A thread of a lost core is lost (R316, R421): a record of its own with the core-lost cause; its slot and its group are as after an end. -/
def Live.loseThread (b : Boot) (l : Live) (tid : Nat) : Live :=
  let t := l.dev.thread tid
  let l := l.map fun d => d.sendRecord { threadRecord b l tid 0xE2 5 0 0 0 0 0 with phys := tid / 64 }
  l.map fun d => (d.zeroWindow (tid / 64) t.wbase t.wsize).endThread tid

/-- FPOL decides whether a kernel that lost a core ends (R313, R316); one that is DRAINING has no thread left to lose (R310). -/
def Dev.endIfPolicy (d : Dev) (ctx knum : Nat) : Dev :=
  match d.kernel? ctx knum with
  | none => d
  | some k => if bitsAt k.fpol 1 0 = 0 && k.st != 0 && k.st != 5 && k.st != 7 then d.endKernel ctx knum else d

/-- A core is lost while its die survives (R207, R316, R421): its gang breaks, its threads are lost, the logical core counts as completed. -/
def Live.loseCore (b : Boot) (l : Live) (core : Nat) : Live :=
  if (l.dev.core core).lost then l
  else
    let l := match l.dev.gangAt core with
      | some e => if e.2.st == 1 then loseArrival l e.1 core else breakGang b l e.1 (chainLin core - chainLin e.1)
      | none => l
    let mine := (l.dev.threads.filter fun e => e.1 / 64 == core && e.1 % 64 != 63 && e.2.st != .free).map Prod.fst
    let ks := (l.dev.kernels.filter fun k => k.cores.contains core && k.st != 0 && k.st != 4 && k.st != 7).map fun k => (k.ctx, k.knum)
    let l := mine.foldl (fun l t => l.loseThread b t) l
    let l := (l.clearSlice core).onCore core fun r => { r with lost := true, misses := [], late := [], tileWrites := [], held := [], past := [], icache := [], code := [], tlb := [] }
    ks.foldl (fun l k => l.map fun d => ((d.onKernel k.1 k.2 fun k =>
      { k with released := sinsert k.released (k.lcOf core), saved := if k.st == 3 then sinsert k.saved (k.lcOf core) else k.saved }).drainKernel k.1 k.2).endIfPolicy k.1 k.2) l

/-- A cluster is lost (R421): its cores, the items of its copy unit, the circuits that begin or end there, the messages that wait for it. -/
def Live.loseCluster (b : Boot) (l : Live) (cluster cause : Nat) : Live :=
  if (l.dev.cluster cluster).lost then l
  else
    let l := (l.dev.cluster cluster).moves.foldl (fun l m => l.map fun d => d.onKernel m.ctx m.knum fun k => { k with wldisc := k.wldisc + m.items.length }) l
    let l := l.onCluster cluster fun r => { r with lost := true, robuf := [], tlb2 := [], moves := [] }
    let l := (List.range 8).foldl (fun l i => l.loseCore b (cluster * 8 + i)) l
    let l := l.dev.jobs.foldl (fun l j => if j.2.queue == .copy cluster && !j.2.ended && j.2.st != 6 then l.failRest b j.1 cause 0 else l) l
    let l := l.dev.circuits.foldl (fun l e => if e.2.touches b e.2.ctx cluster then l.failCircuit b e.1 1 else l) l
    (l.dev.msgs.filter fun m => m.dest == .cluster cluster && m.path.isEmpty).foldl (fun l m => l.failMsg b m) l

/-- The part stops at package scope (R421): every core halts with no save, every completion is withheld, until a cold boot. -/
def Live.stopPackage (b : Boot) (l : Live) (cause : Nat) : Live := (l.hardRecord b 0 cause 5 0 0 0).map fun d => { d with stopped := some cause }

/-- The gateway die of a DRAM channel. -/
def channelDie (ch : Nat) : Nat := if ch < 1000 then 8 + ch / 64 / 3 else 8 + (ch - 1000) / 32

/-- A request that stood at a home on a die that is lost has failed there, not performed. -/
def lostAtHome (b : Boot) (l : Live) (id part : Nat) : Live :=
  match l.req? id with
  | none => l
  | some r =>
    match r.kind with
    | .mem _ _ => (l.onReq id fun r => { r with stage := .back, fail := some (failureOf r false) }).send b r.ctx id true (nodeEnd r.src) none (nodeEnd r.src) none 1
    | .attic _ _ _ _ _ _ _ => (l.onReq id fun r => { r with stage := .back, fail := some (failureOf r false) }).send b r.ctx id true (nodeEnd r.src) none (nodeEnd r.src) none 1
    | _ => (l.failPart id part 0x46).closeParts id

/-- A die is lost (R247, R345, R422): what its threads and NIs had under way and not performed never happens. -/
def Live.loseDie (b : Boot) (l : Live) (die : Nat) : Live :=
  if 12 ≤ die || !b.hasDie die || l.dev.links.diesLost.contains die then l
  else if die == 8 || die == 9 then l.stopPackage b 0xDC
  else
    let on := fun (n : Nat) => nodeDie n == die
    let hit := (l.dev.ctxs.filter fun e => e.2.st != 0 && e.2.st != 7 && e.2.tdies.getLsbD die).map Prod.fst
    let l := l.onLinks fun k => { k with diesLost := sinsert k.diesLost die }
    let l := l.hardRecord b 0 0xC8 5 die 0 0
    let l := hit.foldl (fun l c =>
      let l := l.onCtx c fun c => { c with dieLost := true }
      let l := l.ctxRecord b c 0xC8 die 0 0 0 0 0
      let l := l.dev.circuits.foldl (fun l e => if e.2.ctx == c then l.failCircuit b e.1 4 else l) l
      let l := (l.dev.kernels.filter fun k => k.ctx == c).foldl (fun l k => l.map fun d => d.dropThreads c k.knum fun core => on (core / 8)) l
      let l := l.trapContext b c
      l.map fun d => { d with threads := d.threads.map fun e =>
        if e.2.ctx == c && e.1 % 64 != 63 && e.2.st != .free then (e.1, { e.2 with faultInfo := 0xC8 }) else e }) l
    let l := (l.dev.reqs.filter fun r => on r.src).foldl (fun l r => l.dropWork r.id) l
    let l := (l.dev.msgs.filter fun m => on m.node).foldl (fun l m => l.failMsg b { m with node := (l.req? m.req).elim m.node Req.src }) l
    let l := (l.dev.links.queues.filter fun e => channelDie e.1 == die).foldl (fun l e => e.2.foldl (fun l q => lostAtHome b l q.1 q.2) (l.setDramQueue e.1 [])) l
    let l := l.map fun d => { d with
      names := d.names.filter fun e => 8 + e.1 / 3 != die
      domains := d.domains.map fun e => (e.1, { e.2 with free := e.2.free.filter fun p => 8 + p.1 / 3 != die }) }
    let l := ((List.range 192).filter on).foldl (fun l c => l.onCluster c fun r => { r with lost := true, robuf := [], tlb2 := [], moves := [] }) l
    let l := ((List.range 1536).filter fun c => on (c / 8)).foldl (fun l c => l.onCore c fun r => { r with lost := true, misses := [], tlb := [], held := [], past := [], icache := [], code := [] }) l
    (List.range 18).foldl (fun l i => if (ucieDies i).1 == die || (ucieDies i).2 == die then l.failUcie b i 4 else l) l

/-- DIE_LOSS (R345, R422). -/
def execDieLoss (die : Nat) (s : State) : Host.Outcome State Fault Refusal := event s fun b l => l.loseDie b die

/-- Every member of a gang traps with a cause (R191, R423). -/
def Live.trapGang (b : Boot) (l : Live) (core cause : Nat) : Live :=
  match l.dev.gangAt core with
  | none => l
  | some e =>
    (l.clearBarrier e.1) |> fun l => e.2.threads.foldl (fun l p =>
      let t := l.dev.thread p.2
      if t.live && t.st != .trapped then trapOne b p.2 cause 0 2 0 t.pc 0 0 none l else l) l

/-- The gang of a core stops the MMA it executes (R207). -/
def Live.stopMma (l : Live) (core : Nat) : Live :=
  match l.dev.gangAt core with
  | none => l
  | some e => (abandonMmas l e.2 (gangCores e.1 e.2.n)).onGang e.1 fun g => { g with mmas := g.mmas.filter fun m => !m.begun }

/-- A thread traps with a machine check's cause (R414, R421). -/
def Live.trapThread (b : Boot) (l : Live) (tid cause detail : Nat) (addr : Word) : Live :=
  let t := l.dev.thread tid
  if tid % 64 == 63 || (t.live && t.st != .trapped) then takeTrap b tid cause detail 0 0 t.pc addr 0 none l else l

/-- A request fails at its home or unit, not performed (R423). -/
def Live.failAtHome (b : Boot) (l : Live) (req cause : Nat) : Live :=
  match l.req? req with
  | none => l
  | some r =>
    match l.reach r with
    | none => l
    | some l =>
      match r.kind, r.parts.findIdx? fun p => !p.done && (p.grp == 0 || p.leg == 3) with
      | .mem _ _, some i => l.reply b r (((r.parts[i]?).bind fun p => paHome b p.pa).map (Home.cluster b)) 1 fun q => { q with fail := some (cause, 0, false) }
      | .attic _ _ _ _ _ _ _, _ => atticFail b l r cause 0
      | .piece _ _, some i => (l.failPart req i cause).replyGroup b req ((r.parts[i]?).elim 0 Part.grp)
      | _, some i => (l.failPart req i cause).closeParts req
      | _, none => l

/-- Waiting registrations of a phaser unit that a test selects are woken and discarded (R269). -/
def Dev.wakePhasers (d : Dev) (p : Nat → Nat → Bool) : Dev :=
  { d with phWaits := d.phWaits.filter (fun w => !p w.1 w.2.1), wakes := (d.phWaits.filter fun w => p w.1 w.2.1).foldl (fun s w => sinsert s w.2.2) d.wakes }

/-- Changes a leaf of a context's page tables (R392). -/
def Live.onLeaf (b : Boot) (l : Live) (ctx va : Nat) (f : Word → Word) : Live :=
  match l.walk b ctx va, leafAt b l ctx va with
  | .leaf pte _, some (a, _) =>
    (l.ctxClusters ctx).foldl (fun l c => l.flushCluster c fun e => e.covers ctx va) (l.store a 8 (f pte).toNat)
  | _, _ => l

/-- Entries of a work list that were lost are counted (R257). -/
def Dev.discardWork (d : Dev) (h : Option (Nat × Nat)) (n : Nat) : Dev :=
  match h with
  | some (c, k) => d.onKernel c k fun k => { k with wldisc := k.wldisc + n }
  | none => d

/-- One entry that the balancer moves in a cluster, counted over its moves in order, is lost and counted; the others move on (R257). -/
def loseMoved (l : Live) (cluster i : Nat) : Live :=
  let drop := fun (acc : List Move × Nat × Live) (m : Move) =>
    let (ms, n, l) := acc
    if i < n || n + m.items.length ≤ i then (ms ++ [m], n + m.items.length, l)
    else (ms ++ [{ m with items := m.items.eraseIdx (i - n) }], n + m.items.length, l.map fun d => d.discardWork (some (m.ctx, m.knum)) 1)
  let r := (l.dev.cluster cluster).moves.foldl drop ([], 0, l)
  r.2.2.onCluster cluster fun c => { c with moves := r.1.filter fun m => !m.items.isEmpty }

/-- An uncorrectable error of an LPDDR-6 channel is counted in its LPSTAT.UECC, which saturates (R412). -/
def Live.countUncorrected (b : Boot) (l : Live) (pa : Nat) : Live :=
  match paHome b pa with
  | some (.lp ch) => l.setLpstat ch (setBits (l.lpstat ch) 16 16 (Nat.min (wbits (l.lpstat ch) 31 16 + 1) 65535))
  | _ => l

/-- What a machine check leaves of the state that it concerns, by its cause (R423, R424). unit, addr and tid name what the cause concerns. -/
def Live.checkState (b : Boot) (l : Live) (m : MachineCheck) : Live :=
  let u := m.unit
  let va := m.addr % 2 ^ 48
  match m.cause.toNat with
  | 0x2E => l.map fun d => { d with descs := tdel d.descs (tileKey (m.tid / 64) (u % 16)) }
  | 0x2F => l.map fun d => { d with accs := (List.range 8).foldl (fun t i => tset t 0 (accKey u (m.addr / 32 % 4) (m.addr % 32) i) 0x7FC00000) d.accs }
  | 0x30 => l.setBank u (l.dev.active u) { l.dev.bank u (l.dev.active u) with st := 3 }
  | 0x32 => l.stopMma u
  | 0x33 => l.onThread m.tid fun t => match u % 4 with
      | 0 => { t with k0 := BitVec.allOnes 128 }
      | 1 => { t with k1 := BitVec.allOnes 128 }
      | 2 => { t with k2 := BitVec.allOnes 128 }
      | _ => { t with k3 := BitVec.allOnes 128 }
  | 0x36 => match l.dev.gangAt u with
      | some e => (l.stopMma u).breakRecord e.1 { e.2 with st := 3, mmas := [] }
      | none => l
  | 0x4D => l.onCluster u fun r => { r with robuf := r.robuf.filter fun e => e.2.1 != m.addr / 128 }
  | 0x4E => l.flushCore u fun e => e.covers m.ctx va
  | 0x4F => l.onCluster u fun r => { r with tlb2 := r.tlb2.filter fun e => !e.covers m.ctx va }
  | 0x51 => l.wakeGranules b fun g => paHome b (g * 16) == paHome b m.addr
  | 0x53 => if shas l.dev.links.fenced u || !b.hasStack (u / 64) then l
            else ((l.onLinks fun k => { k with fenced := sinsert k.fenced u }).write (.channel u)).failQueued b u
  | 0x54 => if wbits (l.lpstat u) 63 60 != 1 then l
            else (((l.setLpstat u (setBits (l.lpstat u) 60 4 2)).onLinks fun k => { k with lpfenced := sinsert k.lpfenced u }).write (.channel (1000 + u))).failQueued b (1000 + u)
  | 0x56 => (l.write (.poison (m.addr / 16) true)).countUncorrected b m.addr
  | 0x57 => l.write (.poison (m.addr / 16) true)
  | 0x58 => l.onLeaf b m.ctx va fun p => setBits p 55 1 0
  | 0x5A => l.poisonBlock m.addr
  | 0x5B => l.flushCore u fun e => e.covers m.ctx va
  | 0x5E => l.onLeaf b m.ctx va fun p => setBits p 56 1 1
  | 0x75 => l.map fun d => { d with names := d.names.map fun e => if e.2.pa == m.addr then (e.1, { e.2 with sat := true }) else e }
  | 0x76 => (List.range 8).foldl (fun l i => l.write (.poison (m.addr / 128 * 8 + i) true)) l
  | 0x77 => l.setBank u (l.dev.shadow u) { st := 3 }
  | 0x7A => l.setBank u (m.addr % 2) { st := 3 }
  | 0x7B => l.onCtx m.ctx fun c => { c with keyW := tdel c.keyW (u % 4) }
  | 0x91 => match tfind l.dev.scrubs u with
      | some s => if !s.busy then l
                  else
                    let l := l.map fun d => { d with scrubs := tdel d.scrubs u }
                    let gs := ((List.range 3).map fun i => (u + 1 + i) % 4).filter (l.gateways b).contains
                    match gs.find? fun g => !(tget l.dev.scrubs {} g).busy with
                    | some g => l.map fun d => { d with scrubs := tput d.scrubs g { s with phase := 1, done := 0 } }
                    | none => l
      | none => l
  | 0xA7 => (l.map fun d => { d with phasers := tput d.phasers u { gen := ((l.dev.phaser (u / 32) (u % 32)).gen + 1) % 65536 } }).map
              fun d => d.wakePhasers fun c i => c * 32 + i == u
  | 0xA8 => l.map fun d => d.wakePhasers fun c _ => c == u
  | 0xA9 => l.map fun d =>
      let w := tget d.work {} u
      if m.addr < w.items.length then ({ d with work := tput d.work u { w with items := w.items.eraseIdx m.addr } }).discardWork w.holder 1 else d
  | 0xAA => match l.dev.msgs.find? fun x => x.id == u with
      | some x => l.failMsg b x
      | none => l
  | 0xC6 => match l.dev.msgs.find? fun x => x.id == u with
      | some x => l.failMsg b x
      | none => l
  | 0xAB => match l.req? u with
      | some r => match r.kind with
        | .migrate _ _ _ _ _ => takeTrap b r.tid 0xA3 0 0 0 (l.dev.thread r.tid).pc 0 0 none (l.dropReq r.id)
        | _ => l
      | none => l
  | 0xAD => l.onCredit u m.addr m.ctx fun c =>
      { c with held := 8 - (l.dev.msgs.filter fun x => x.came == some (u, m.addr) && x.ctx == m.ctx).length, owed := 0 }
  | 0xAF => loseMoved l u m.addr
  | 0xCF => (l.dev.circuits.foldl (fun l e => if e.2.crosses u m.addr then l.failCircuit b e.1 1 else l) l).map fun d =>
      { d with links := { d.links with active := d.links.active.filter fun e => e.1 / (8 * 1024) != u * 64 + m.addr } }
  | 0xD0 => l.map fun d => { d with cfg := d.cfg.filter fun c => !(c.dest == u && (match c.kind with
      | .commit _ => true
      | _ => false)) }
  | 0xD1 =>
      let l := l.map fun d => { d with links := { d.links with places := d.links.places.filter fun p => !(p.1 / 1024 == u * 64 + m.addr && p.2 == m.ctx) } }
      (l.outQueue u m.addr m.ctx).foldl (fun l x => l.failMsg b x) l
  | 0xD2 => l.map fun d => { d with links := { d.links with windows := d.links.windows.filter fun w => w.1 / 128 != u } }
  | 0xD3 => l.onCtx m.ctx fun c => { c with endpoints := tset c.endpoints 0 (u * 64 + m.addr % 64) (setBits (tget c.endpoints 0 (u * 64 + m.addr % 64)) 63 1 0) }
  | 0xD4 => l.failCircuit b u 1
  | 0xD5 => l.map fun d => { d with cmDown := true }
  | 0xD8 => (List.range (if u < 192 then 4 else 12)).foldl (fun l p => if (farEnd u p).isSome then l.failLink b u p 1 else l) l
  | 0xDE => l.failLink b u m.addr 1
  | 0xE4 => if m.addr < (l.dev.cluster u).setpt then l.writeSetpt u m.addr else l
  | 0xE6 => if m.addr < (l.dev.cluster u).setpt then l.writeSetpt u m.addr else l
  | 0xF6 => l.map fun d => { d with usage := tput d.usage (u * 16 + m.addr % 16) (BitVec.allOnes 64) }
  | _ => l

/-- Causes of the thread scope, with those of a walker (R423 letter T of a machine check). -/
def threadChecks : List Nat := [0x09, 0x2D, 0x2E, 0x31, 0x33, 0x34, 0x35, 0x37, 0x78, 0x8E, 0xAC, 0xAE]
/-- Causes that fail a request where it is served (R423: T, D, I). -/
def requestChecks : List Nat := [0x52, 0x59, 0x75, 0x76]
/-- Causes that every member of a gang raises (R423 letter G of a machine check). -/
def gangChecks : List Nat := [0x2F, 0x30, 0x32, 0x36, 0x77, 0x7A]
/-- Causes that fail one item (0x8A to 0x8C) or the rest of a job (0x89). -/
def itemChecks : List Nat := [0x89, 0x8A, 0x8B, 0x8C]
/-- Causes that trap a context (R423 letter K of a machine check). -/
def contextChecks : List Nat := [0xEA, 0xEE, 0xF9]
/-- Causes that lose a core (R423 letter L). -/
def coreChecks : List Nat := [0xE2, 0xFB]
/-- Causes that lose a cluster (R423 letter L). -/
def clusterChecks : List Nat := [0xD9, 0xE3, 0xE7, 0xF8]
/-- Causes that stop the part (R423 letter X). -/
def packageChecks : List Nat := [0xD7, 0xDC, 0xE5, 0xEF, 0xFF]
/-- Causes after which the unit recovers and only a record is left (R423 letters H and C). -/
def unitChecks : List Nat :=
  [0x4D, 0x4E, 0x4F, 0x51, 0x53, 0x54, 0x55, 0x56, 0x57, 0x58, 0x5A, 0x5B, 0x5D, 0x5E, 0x7B, 0x8F, 0x90, 0x91, 0xA7, 0xA8, 0xA9, 0xAA, 0xAB, 0xAD, 0xAF,
   0xC6, 0xC7, 0xC9, 0xCA, 0xCB, 0xCC, 0xCD, 0xCE, 0xCF, 0xD0, 0xD1, 0xD2, 0xD3, 0xD4, 0xD5, 0xD6, 0xD8, 0xDA, 0xDB, 0xDD, 0xDE, 0xE4, 0xE6, 0xF2, 0xF6, 0xFE]

/-- The action at the scope of a machine check's cause (R421, R423). -/
def Live.checkScope (b : Boot) (l : Live) (m : MachineCheck) : Live :=
  let c := m.cause.toNat
  if threadChecks.contains c then l.trapThread b m.tid c (if c == 0x34 || c == 0x35 then m.unit else 0) (BitVec.ofNat 64 m.addr)
  else if requestChecks.contains c then l.failAtHome b m.unit c
  else if gangChecks.contains c then l.trapGang b m.unit c
  else if c == 0x89 then match l.job? m.unit with
    | some j =>
      let rest := (List.range j.count).drop j.next
      let l := l.onJob m.unit fun j => { j with items := j.items ++ rest.map (fun i => { idx := i, fail := some (c, 0, plainDst j i) }), next := j.count }
      rest.foldl (fun l i => l.endItem b m.unit i) l
    | none => l
  else if itemChecks.contains c then match l.job? m.unit with
    | some j => if j.kind == 5 then l.collEnd b m.unit m.addr (some (c, 0, plainDst j m.addr)) else rowEnds b l m.unit m.addr (some c)
    | none => l
  else if c == 0xF9 then
    ((l.dev.ctxs.filter fun e => e.2.lives && e.2.attached.any fun a => a.1 == m.unit).map Prod.fst).foldl (fun l x => (l.ctxRecord b x c 0 0 0 0 0 0).trapContext b x) l
  else if contextChecks.contains c then (if (l.dev.ctx m.ctx).lives then (l.ctxRecord b m.ctx c 0 0 0 0 0 0).trapContext b m.ctx else l)
  else if coreChecks.contains c then l.loseCore b m.unit
  else if clusterChecks.contains c then l.loseCluster b m.unit c
  else if c == 0xC8 then l.loseDie b m.unit
  else if packageChecks.contains c then l.map fun d => { d with stopped := some c }
  else l

/-- Every cause that a machine check can have. -/
def machineChecks : List Nat :=
  threadChecks ++ requestChecks ++ gangChecks ++ itemChecks ++ contextChecks ++ coreChecks ++ clusterChecks ++ packageChecks ++ unitChecks ++ [0xC8]

/-- MACHINE_CHECK (R421, R423, R424): a record to the package log, and to the context that a recoverable unit's names; the state it leaves;
the action at its scope. A code that is no machine check's changes nothing. -/
def execMachineCheck (m : MachineCheck) (s : State) : Host.Outcome State Fault Refusal :=
  event s fun b l =>
    let c := m.cause.toNat
    if !machineChecks.contains c then l
    else
      let l := if c == 0xC8 then l
        else l.hardRecord b (if unitChecks.contains c then m.ctx else 0) c 5 0 m.unit (BitVec.ofNat 64 m.addr)
      (l.checkState b m).checkScope b m

/-- SUPPLY_DROOP (R16, R17, R19): the cluster's supply allows a frequency, and the oscillators of its lock group follow. Below the level that the floor needs the cluster raises the undervoltage machine check. -/
def execSupplyDroop (cluster freq : Nat) (under : Bool) (s : State) : Host.Outcome State Fault Refusal :=
  event s fun b l =>
    let l := (l.onCluster cluster fun r => { r with supply := Nat.max 30 (Nat.min freq 42) }).retune cluster
    if under then (l.hardRecord b 0 0xE3 5 0 cluster 0).loseCluster b cluster 0xE3 else l

/-- The 64 bytes of a fault record (R417) with V set. -/
def Record.image (r : Record) (seq : Nat) : Nat :=
  r.cause % 256 + r.src % 256 * 2 ^ 8 + r.detail % 65536 * 2 ^ 16 + r.knum % 2 ^ 32 * 2 ^ 32 + r.pc.toNat * 2 ^ 64 + r.addr.toNat * 2 ^ 128 +
    r.handle.toNat * 2 ^ 192 + r.item % 2 ^ 32 * 2 ^ 256 + r.lc % 65536 * 2 ^ 288 + r.lt % 65536 * 2 ^ 304 + r.phys % 2 ^ 32 * 2 ^ 320 +
    r.ctx % 65536 * 2 ^ 352 + r.owner % 256 * 2 ^ 368 + r.flags % 256 * 2 ^ 376 + r.turn % 2 ^ 64 * 2 ^ 384 + seq % 2 ^ 32 * 2 ^ 448 + 2 ^ 511

/-- The records-dropped record (R419): its SEQ is that of the first record dropped. -/
def Collector.lossImage (c : Collector) : Nat :=
  0xFA + Nat.min c.drop 65535 * 2 ^ 16 + (c.seq - c.drop) % 2 ^ 32 * 2 ^ 448 + 2 ^ 511

/-- Changes a collector. -/
def Live.onCollector (l : Live) (ctx : Nat) (f : Collector → Collector) : Live :=
  l.map fun d => { d with collectors := tput d.collectors ctx (f (d.collector ctx)) }

/-- The thread of an AUTOSW trap goes on once its record has been written or dropped (R313, R414). -/
def Live.resumeRecord (l : Live) (r : Record) : Live :=
  match r.resume with
  | none => l
  | some tid =>
    let t := l.dev.thread tid
    if t.ctx == r.ctx && t.knum == r.knum && t.lthread == r.lt && t.st == .trapped then resumeThread tid l else l

/-- The record at the head of a collector is dropped and counted (R419). -/
def Live.dropRecord (l : Live) (ctx : Nat) (err : Bool) : Live :=
  match (l.dev.collector ctx).queue with
  | [] => l
  | r :: rest => (l.onCollector ctx fun c => { c with queue := rest, drop := c.drop + 1, seq := c.seq + 1, err := c.err || err, phase := 0 }).resumeRecord r

/-- Reaches n bytes of a fault queue's slot for a step of the collector (R418, R436): how they are read and written, or why not. -/
inductive Slot where
  | host (a : Nat)
  | phys (pa : Nat)
  | virt (va : Nat)
  | wait
  | bad
deriving DecidableEq, Repr

/-- A step's access to a slot: gs granules from an offset. -/
def Live.reachRecord (b : Boot) (l : Live) (ctx off gs : Nat) (write : Bool) : Slot :=
  let c := l.dev.collector ctx
  let a := 64 * c.tail + off
  if c.base.getLsbD 63 then (if l.dev.hostUp then .host (wbits c.base 62 0 + a) else .wait)
  else if ctx = 0 then
    let pa := wbits c.base 51 0 + a
    if (paHome b pa).isNone || l.mem.anyPoison pa (16 * gs) then .bad else .phys pa
  else if (areaFault (c.base + BitVec.ofNat 64 a)).isSome then .bad
  else match l.fwReachAll b ctx (c.base.toNat + a) write (gs - 1) with
    | .ok _ => .virt (c.base.toNat + a)
    | .wait => .wait
    | .fail _ => .bad

/-- Writes n bytes at a slot. -/
def Live.writeSlot (b : Boot) (l : Live) (ctx : Nat) (x : Slot) (v n : Nat) : Live :=
  match x with
  | .host a => l.map fun d => d.hostWrite a n v
  | .phys pa => l.store pa n v
  | .virt va => l.fwWrite b ctx va v n
  | _ => l

/-- Byte 0 at a slot. -/
def Live.readSlot (b : Boot) (l : Live) (ctx : Nat) (x : Slot) : Nat :=
  match x with
  | .host a => l.dev.hostRead a 1
  | .phys pa => (l.mem.byteAt pa).toNat
  | .virt va => l.fwRead b ctx va 1
  | _ => 0

/-- FAULT_RECORD_WRITE (R419): the next step of the collector for the record at its head: the read of byte 63, the write of bytes 0 to 47, or
that of bytes 48 to 63 with the interrupt. A records-dropped record goes first after drops, by the same steps. -/
def execFaultRecordWrite (ctx : Nat) (s : State) : Host.Outcome State Fault Refusal :=
  event s fun b l =>
    let c := l.dev.collector ctx
    match c.queue with
    | [] => l
    | r :: rest =>
      if !c.cfg.getLsbD 63 then l.dropRecord ctx false
      else
        let lost := decide (0 < c.drop)
        let v := if lost then c.lossImage else r.image c.seq
        match c.phase with
        | 0 => match l.reachRecord b ctx 48 1 false with
          | .wait => l
          | .bad => l.dropRecord ctx true
          | .host a => if 128 ≤ l.readSlot b ctx (.host (a + 15)) then l.dropRecord ctx false else l.onCollector ctx fun c => { c with phase := 1 }
          | .phys a => if 128 ≤ l.readSlot b ctx (.phys (a + 15)) then l.dropRecord ctx false else l.onCollector ctx fun c => { c with phase := 1 }
          | .virt a => if 128 ≤ l.readSlot b ctx (.virt (a + 15)) then l.dropRecord ctx false else l.onCollector ctx fun c => { c with phase := 1 }
        | 1 => match l.reachRecord b ctx 0 3 true with
          | .wait => l
          | .bad => l.dropRecord ctx true
          | x => (l.writeSlot b ctx x v 48).onCollector ctx fun c => { c with phase := 2 }
        | _ =>
          let irq := c.cfg.getLsbD 39 && !(l.dev.ctx ctx).poison
          match l.reachRecord b ctx 48 1 true with
          | .wait => l
          | .bad => l.dropRecord ctx true
          | x =>
            if irq && !l.dev.hostUp then l
            else
              let l := l.writeSlot b ctx x (v / 2 ^ 384) 16
              let l := if irq then l.map fun d => { d with out := d.out ++ [.irq (wbits c.cfg 47 40)] } else l
              let tail := (c.tail + 1) % 2 ^ wbits c.cfg 51 48
              if lost then l.onCollector ctx fun c => { c with phase := 0, tail, drop := 0 }
              else (l.onCollector ctx fun c => { c with phase := 0, tail, seq := c.seq + 1, queue := rest }).resumeRecord r

/-- DEBUG_SESSION_OPEN (R424): a record goes to every context. -/
def execDebugSessionOpen (s : State) : Host.Outcome State Fault Refusal :=
  event s fun b l =>
    let l := l.map fun d => { d with debugOpen := true }
    let l := l.hardRecord b 0 0xFD 5 0 0 0
    (l.dev.ctxs.filter fun e => e.2.st != 0).foldl (fun l e => l.ctxRecord b e.1 0xFD 0 0 0 0 0 0) l

/-- The context that a core belongs to logs the Strongroom debug cause (R359). -/
def Live.debugBarred (b : Boot) (l : Live) (ctx : Nat) (addr : Word) : Live :=
  (l.hardRecord b ctx 0x65 5 0 0 addr).map fun d => { d with out := d.out ++ [.debug true 0] }

/-- DEBUG_READ (R337, R359): zero bytes and the Strongroom debug cause for what is barred, and 64 bytes of anything else; a page of a
protected context is seen sealed, which is a free value. -/
def execDebugRead (target : DebugTarget) (s : State) : Host.Outcome State Fault Refusal :=
  event s fun b l =>
    let give := fun (l : Live) (v : Nat) => l.map fun d => { d with out := d.out ++ [.debug false (BitVec.ofNat 512 v)] }
    match target with
    | .page ctx pa cls =>
      if cls == 1 then l.debugBarred b ctx (BitVec.ofNat 64 pa)
      else if (l.dev.ctx ctx).prot then
        let n := l.choose (2 ^ 512)
        give n.2 n.1
      else give l (l.mem.read pa 64)
    | .bank core n =>
      let k := l.dev.bank core (n % 2)
      if k.sealed then l.debugBarred b (l.coreCtx core) 0 else give l (tget k.data 0 0).toNat
    | .acc core a =>
      if (l.dev.slice core).tags.getLsbD (a % 4) then l.debugBarred b (l.coreCtx core) 0
      else give l ((List.range 16).foldl (fun v i => v + (tget l.dev.accs 0 (accKey core (a % 4) (i / 8) (i % 8))).toNat * 2 ^ (32 * i)) 0)

/-- SPDM_REQUEST (R5, R335): the security core, as responder, answers: a key exchange opens a session, an attestation in one makes the part attested there.
What the part does not support is refused. -/
def execSpdmRequest (session : Nat) (ask : SpdmAsk) (s : State) : Host.Outcome State Fault Refusal :=
  event s fun _ l => l.map fun d => match ask.kind with
    | .other | .selectiveIde => { d with out := d.out ++ [.unsupported] }
    | .keyExchange => { d with out := d.out ++ [.spdm session ask.nonce], sessions := tput d.sessions session false }
    | .attest => { d with out := d.out ++ [.spdm session ask.nonce], sessions := d.sessions.map fun e => if e.1 == session then (e.1, true) else e }
    | .measure => { d with out := d.out ++ [.spdm session ask.nonce] }

/-- SERVICE_CORE_WATCHDOG (R424): the service thread is restarted; the connection manager's, from its records. -/
def execServiceCoreWatchdog (unit : Nat) (s : State) : Host.Outcome State Fault Refusal :=
  event s fun b l => (l.hardRecord b 0 0xFC 5 0 unit 0).map fun d => { d with cmDown := false }

/-- FABRIC_REFERENCE_LOST (R421, R424). -/
def execFabricReferenceLost (s : State) : Host.Outcome State Fault Refusal := event s fun b l => l.stopPackage b 0xD7
/-- THERMAL_SHUTDOWN (R421, R424). -/
def execThermalShutdown (s : State) : Host.Outcome State Fault Refusal := event s fun b l => l.stopPackage b 0xE5

end Sys2Proof.Machine
end

