-- ==== Sys2Proof/Machine/Memory.lean ====
section
/-!
DEFINITION. Meanings of the memory instructions (10_memory.md): loads and stores, granule instructions, ROINV, atomics, reductions,
FENCE's waits being in Scalar.
-/

namespace Sys2Proof.Machine

/-- The class an ORD field gives (R53, R220). -/
def ordClass (ord : Nat) : Cls := if ord == 0 then .plain else if ord == 1 then .relaxed else .release

/-- LD (R224): its registers, its operation, its address. -/
def loadBody (s : State) (len : Nat) (d a : BitVec 7) (ord : BitVec 2) (off : Word) (op : MemOp) : Host.Outcome State Fault Refusal :=
  let pair := match op with
    | .load128 => [d + 1]
    | _ => []
  instr s len (d :: pair ++ [a]) fun b l => access b l { a := l.g a + off, op, cls := ordClass ord.toNat, dst := d.toNat, auto := op != .load128 }

/-- ST (R224): D names the data register. -/
def storeBody (s : State) (len : Nat) (d a : BitVec 7) (ord : BitVec 2) (off : Word) (n : Nat) : Host.Outcome State Fault Refusal :=
  instr s len (if n == 16 then [d, d + 1, a] else [d, a]) fun b l =>
    let v : BitVec 128 := if n == 16 then l.g (d + 1) ++ l.g d else (l.g d).setWidth 128
    access b l { a := l.g a + off, op := .store n v, cls := ordClass ord.toNat, dst := 0, auto := n != 16 }

/-- An 8-bit offset field scaled by the access size (R52, R224). -/
def offScaled (off : BitVec 8) (n : Nat) : Word := simm off * BitVec.ofNat 64 n

/-- The byte offset of a granule instruction or reduction: IMM19 or the literal (R225, R230). -/
def offImm (x : Ext) : Word := x.lit.getD (simm x.imm)

/-- A granule instruction by its minor (R225). -/
def granBody (s : State) (x : Ext) (k : Nat) (gs : List (BitVec 7)) : Host.Outcome State Fault Refusal :=
  instrX s x gs [] fun b l =>
    let v := if k == 2 || k == 3 then l.g x.b else 0
    access b l { a := l.g x.a + offImm x, op := .gran k x.dfmt.toNat v, cls := .plain, dst := x.d.toNat, auto := true }

/-- An atomic by its minor (R227): ORD and the offset stand in IMM19; with a literal it is plain. -/
def amoBody (s : State) (x : Ext) (k : Nat) (gs : List (BitVec 7)) : Host.Outcome State Fault Refusal :=
  instrX s x gs [] fun b l =>
    let off := x.lit.getD (simm (x.imm.setWidth 17))
    let ord := if x.lit.isSome then 0 else x.imm.toNat / 131072
    access b l { a := l.g x.a + off, op := .amo k x.dfmt.toNat (l.g x.b) (l.g x.c), cls := ordClass ord, dst := x.d.toNat, auto := true }

/-- A reduction, by the minor of the atomic it acts as (R230). -/
def redBody (s : State) (x : Ext) (k : Nat) : Host.Outcome State Fault Refusal :=
  instrX s x [x.a, x.b] [] fun b l =>
    access b l { a := l.g x.a + offImm x, op := .red k x.dfmt.toNat (l.g x.b), cls := .red, dst := 0, auto := false }

/-- REDMIN and REDMAX compare as signed for the .iN formats, else as unsigned (R230). -/
def redCompare (x : Ext) (signed unsigned : Nat) : Nat := if x.dfmt.toNat < 4 then signed else unsigned

/-- The address of a single-word access (R224, R225, R227, R230); none for any other instruction. -/
def memAddress (l : Live) : Instr → Option Word
  | .ldI8 _ a _ off | .ldN8 _ a _ off | .st8 _ a _ off => some (l.g a + offScaled off 1)
  | .ldI16 _ a _ off | .ldN16 _ a _ off | .st16 _ a _ off => some (l.g a + offScaled off 2)
  | .ldI32 _ a _ off | .ldN32 _ a _ off | .st32 _ a _ off => some (l.g a + offScaled off 4)
  | .ld64 _ a _ off | .st64 _ a _ off => some (l.g a + offScaled off 8)
  | .ld128 _ a _ off | .st128 _ a _ off => some (l.g a + offScaled off 16)
  | .ldI8Lit _ a _ lit | .ldN8Lit _ a _ lit | .ldI16Lit _ a _ lit | .ldN16Lit _ a _ lit | .ldI32Lit _ a _ lit | .ldN32Lit _ a _ lit => some (l.g a + lit)
  | .ld64Lit _ a _ lit | .ld128Lit _ a _ lit | .st8Lit _ a _ lit | .st16Lit _ a _ lit | .st32Lit _ a _ lit => some (l.g a + lit)
  | .st64Lit _ a _ lit | .st128Lit _ a _ lit => some (l.g a + lit)
  | .ldf x | .ldfClr x | .stf x | .sts x | .sete x | .setf x | .feq x => some (l.g x.a + offImm x)
  | .redadd x | .redmin x | .redmax x | .redand x | .redor x | .redxor x | .redfadd x => some (l.g x.a + offImm x)
  | .aadd x | .aand x | .aor x | .axor x | .amin x | .amax x | .aminn x | .amaxn x | .axchg x | .acas x | .afadd x =>
    some (l.g x.a + x.lit.getD (simm (x.imm.setWidth 17)))
  | _ => none

/-- LD of 1 byte, sign-extended (R224). -/
def execLdI8 (d a : BitVec 7) (ord : BitVec 2) (off : BitVec 8) (s : State) : Host.Outcome State Fault Refusal := loadBody s 1 d a ord (offScaled off 1) (.load 1 true)
/-- The same with a literal offset (R224). -/
def execLdI8Lit (d a : BitVec 7) (ord : BitVec 2) (lit : Word) (s : State) : Host.Outcome State Fault Refusal := loadBody s 3 d a ord lit (.load 1 true)
/-- LD of 1 byte, zero-extended (R224). -/
def execLdN8 (d a : BitVec 7) (ord : BitVec 2) (off : BitVec 8) (s : State) : Host.Outcome State Fault Refusal := loadBody s 1 d a ord (offScaled off 1) (.load 1 false)
/-- The same with a literal offset (R224). -/
def execLdN8Lit (d a : BitVec 7) (ord : BitVec 2) (lit : Word) (s : State) : Host.Outcome State Fault Refusal := loadBody s 3 d a ord lit (.load 1 false)
/-- LD of 2 bytes, sign-extended (R224). -/
def execLdI16 (d a : BitVec 7) (ord : BitVec 2) (off : BitVec 8) (s : State) : Host.Outcome State Fault Refusal := loadBody s 1 d a ord (offScaled off 2) (.load 2 true)
/-- The same with a literal offset (R224). -/
def execLdI16Lit (d a : BitVec 7) (ord : BitVec 2) (lit : Word) (s : State) : Host.Outcome State Fault Refusal := loadBody s 3 d a ord lit (.load 2 true)
/-- LD of 2 bytes, zero-extended (R224). -/
def execLdN16 (d a : BitVec 7) (ord : BitVec 2) (off : BitVec 8) (s : State) : Host.Outcome State Fault Refusal := loadBody s 1 d a ord (offScaled off 2) (.load 2 false)
/-- The same with a literal offset (R224). -/
def execLdN16Lit (d a : BitVec 7) (ord : BitVec 2) (lit : Word) (s : State) : Host.Outcome State Fault Refusal := loadBody s 3 d a ord lit (.load 2 false)
/-- LD of 4 bytes, sign-extended (R224). -/
def execLdI32 (d a : BitVec 7) (ord : BitVec 2) (off : BitVec 8) (s : State) : Host.Outcome State Fault Refusal := loadBody s 1 d a ord (offScaled off 4) (.load 4 true)
/-- The same with a literal offset (R224). -/
def execLdI32Lit (d a : BitVec 7) (ord : BitVec 2) (lit : Word) (s : State) : Host.Outcome State Fault Refusal := loadBody s 3 d a ord lit (.load 4 true)
/-- LD of 4 bytes, zero-extended (R224). -/
def execLdN32 (d a : BitVec 7) (ord : BitVec 2) (off : BitVec 8) (s : State) : Host.Outcome State Fault Refusal := loadBody s 1 d a ord (offScaled off 4) (.load 4 false)
/-- The same with a literal offset (R224). -/
def execLdN32Lit (d a : BitVec 7) (ord : BitVec 2) (lit : Word) (s : State) : Host.Outcome State Fault Refusal := loadBody s 3 d a ord lit (.load 4 false)
/-- LD of 8 bytes, zero-extended (R224). -/
def execLd64 (d a : BitVec 7) (ord : BitVec 2) (off : BitVec 8) (s : State) : Host.Outcome State Fault Refusal := loadBody s 1 d a ord (offScaled off 8) (.load 8 false)
/-- The same with a literal offset (R224). -/
def execLd64Lit (d a : BitVec 7) (ord : BitVec 2) (lit : Word) (s : State) : Host.Outcome State Fault Refusal := loadBody s 3 d a ord lit (.load 8 false)
/-- LD .b128 (R224): a register pair. -/
def execLd128 (d a : BitVec 7) (ord : BitVec 2) (off : BitVec 8) (s : State) : Host.Outcome State Fault Refusal := loadBody s 1 d a ord (offScaled off 16) .load128
/-- LD .b128 with a literal offset (R224). -/
def execLd128Lit (d a : BitVec 7) (ord : BitVec 2) (lit : Word) (s : State) : Host.Outcome State Fault Refusal := loadBody s 3 d a ord lit .load128
/-- ST of 1 byte (R224). -/
def execSt8 (d a : BitVec 7) (ord : BitVec 2) (off : BitVec 8) (s : State) : Host.Outcome State Fault Refusal := storeBody s 1 d a ord (offScaled off 1) 1
/-- The same with a literal offset (R224). -/
def execSt8Lit (d a : BitVec 7) (ord : BitVec 2) (lit : Word) (s : State) : Host.Outcome State Fault Refusal := storeBody s 3 d a ord lit 1
/-- ST of 2 bytes (R224). -/
def execSt16 (d a : BitVec 7) (ord : BitVec 2) (off : BitVec 8) (s : State) : Host.Outcome State Fault Refusal := storeBody s 1 d a ord (offScaled off 2) 2
/-- The same with a literal offset (R224). -/
def execSt16Lit (d a : BitVec 7) (ord : BitVec 2) (lit : Word) (s : State) : Host.Outcome State Fault Refusal := storeBody s 3 d a ord lit 2
/-- ST of 4 bytes (R224). -/
def execSt32 (d a : BitVec 7) (ord : BitVec 2) (off : BitVec 8) (s : State) : Host.Outcome State Fault Refusal := storeBody s 1 d a ord (offScaled off 4) 4
/-- The same with a literal offset (R224). -/
def execSt32Lit (d a : BitVec 7) (ord : BitVec 2) (lit : Word) (s : State) : Host.Outcome State Fault Refusal := storeBody s 3 d a ord lit 4
/-- ST of 8 bytes (R224). -/
def execSt64 (d a : BitVec 7) (ord : BitVec 2) (off : BitVec 8) (s : State) : Host.Outcome State Fault Refusal := storeBody s 1 d a ord (offScaled off 8) 8
/-- The same with a literal offset (R224). -/
def execSt64Lit (d a : BitVec 7) (ord : BitVec 2) (lit : Word) (s : State) : Host.Outcome State Fault Refusal := storeBody s 3 d a ord lit 8
/-- ST of 16 bytes (R224). -/
def execSt128 (d a : BitVec 7) (ord : BitVec 2) (off : BitVec 8) (s : State) : Host.Outcome State Fault Refusal := storeBody s 1 d a ord (offScaled off 16) 16
/-- The same with a literal offset (R224). -/
def execSt128Lit (d a : BitVec 7) (ord : BitVec 2) (lit : Word) (s : State) : Host.Outcome State Fault Refusal := storeBody s 3 d a ord lit 16
/-- LDF (R215, R225). -/
def execLdf (x : Ext) (s : State) : Host.Outcome State Fault Refusal := granBody s x 0 [x.d, x.a]
/-- LDF.clr (R215, R225). -/
def execLdfClr (x : Ext) (s : State) : Host.Outcome State Fault Refusal := granBody s x 1 [x.d, x.a]
/-- STF (R215, R225). -/
def execStf (x : Ext) (s : State) : Host.Outcome State Fault Refusal := granBody s x 2 [x.a, x.b]
/-- STS (R215, R225). -/
def execSts (x : Ext) (s : State) : Host.Outcome State Fault Refusal := granBody s x 3 [x.a, x.b]
/-- SETE (R215, R225). -/
def execSete (x : Ext) (s : State) : Host.Outcome State Fault Refusal := granBody s x 4 [x.a]
/-- SETF (R215, R225). -/
def execSetf (x : Ext) (s : State) : Host.Outcome State Fault Refusal := granBody s x 5 [x.a]
/-- FEQ (R215, R225). -/
def execFeq (x : Ext) (s : State) : Host.Outcome State Fault Refusal := granBody s x 6 [x.d, x.a]
/-- ROINV (R226): the line leaves the read-only buffer for the issuing context. -/
def execRoinv (x : Ext) (s : State) : Host.Outcome State Fault Refusal :=
  instrX s x [x.a] [] fun b l =>
    let a := l.g x.a + offImm x
    if wbits a 63 60 == 14 && !l.privileged then .trap l 0x02 0 a
    else if wbits a 63 60 != 1 then .trap l 0x41 0 a
    else if reserved01 a then .trap l 0x40 0 a
    else match l.translate b l.myCore (wbits a 47 0) 0 0x60 with
      | .miss l => parkTlb l (wbits a 47 0) 0
      | .fail l c => .trap l c 0 a
      | .pa l pa _ => waitOrder l false fun _ => .done (roDrop l l.myCluster l.myCtx pa)
/-- AADD (R227). -/
def execAadd (x : Ext) (s : State) : Host.Outcome State Fault Refusal := amoBody s x 0 [x.d, x.a, x.b]
/-- AAND (R227). -/
def execAand (x : Ext) (s : State) : Host.Outcome State Fault Refusal := amoBody s x 1 [x.d, x.a, x.b]
/-- AOR (R227). -/
def execAor (x : Ext) (s : State) : Host.Outcome State Fault Refusal := amoBody s x 2 [x.d, x.a, x.b]
/-- AXOR (R227). -/
def execAxor (x : Ext) (s : State) : Host.Outcome State Fault Refusal := amoBody s x 3 [x.d, x.a, x.b]
/-- AMIN (R227). -/
def execAmin (x : Ext) (s : State) : Host.Outcome State Fault Refusal := amoBody s x 4 [x.d, x.a, x.b]
/-- AMAX (R227). -/
def execAmax (x : Ext) (s : State) : Host.Outcome State Fault Refusal := amoBody s x 5 [x.d, x.a, x.b]
/-- AMINN (R227). -/
def execAminn (x : Ext) (s : State) : Host.Outcome State Fault Refusal := amoBody s x 6 [x.d, x.a, x.b]
/-- AMAXN (R227). -/
def execAmaxn (x : Ext) (s : State) : Host.Outcome State Fault Refusal := amoBody s x 7 [x.d, x.a, x.b]
/-- AXCHG (R227). -/
def execAxchg (x : Ext) (s : State) : Host.Outcome State Fault Refusal := amoBody s x 8 [x.d, x.a, x.b]
/-- ACAS (R227). -/
def execAcas (x : Ext) (s : State) : Host.Outcome State Fault Refusal := amoBody s x 9 [x.d, x.a, x.b, x.c]
/-- AFADD (R227): its flags come with the reply. -/
def execAfadd (x : Ext) (s : State) : Host.Outcome State Fault Refusal := amoBody s x 10 [x.d, x.a, x.b]
/-- REDADD (R230). -/
def execRedadd (x : Ext) (s : State) : Host.Outcome State Fault Refusal := redBody s x 0
/-- REDMIN (R230). -/
def execRedmin (x : Ext) (s : State) : Host.Outcome State Fault Refusal := redBody s x (redCompare x 4 6)
/-- REDMAX (R230). -/
def execRedmax (x : Ext) (s : State) : Host.Outcome State Fault Refusal := redBody s x (redCompare x 5 7)
/-- REDAND (R230). -/
def execRedand (x : Ext) (s : State) : Host.Outcome State Fault Refusal := redBody s x 1
/-- REDOR (R230). -/
def execRedor (x : Ext) (s : State) : Host.Outcome State Fault Refusal := redBody s x 2
/-- REDXOR (R230). -/
def execRedxor (x : Ext) (s : State) : Host.Outcome State Fault Refusal := redBody s x 3
/-- REDFADD (R230). -/
def execRedfadd (x : Ext) (s : State) : Host.Outcome State Fault Refusal := redBody s x 10

end Sys2Proof.Machine
end

