-- ==== Sys2Proof/Machine/Scalar.lean ====
section
/-!
DEFINITION. Meanings of the scalar and control-flow instructions (07_scalar.md).
-/

namespace Sys2Proof.Machine

/-- NOP (R79): no state changes. -/
def execNop (s : State) : Host.Outcome State Fault Refusal := instr s 1 [] fun _ l => .done l
/-- TRAP (R153): the software trap; DETAIL is the code. -/
def execTrap (code : BitVec 16) (s : State) : Host.Outcome State Fault Refusal := instr s 1 [] fun _ l => .trap l 0x06 code.toNat 0
/-- BRK (R153): the breakpoint trap; DETAIL is the code. -/
def execBrk (code : BitVec 16) (s : State) : Host.Outcome State Fault Refusal := instr s 1 [] fun _ l => .trap l 0x07 code.toNat 0
/-- ADDI (R135). -/
def execAddi (d a : BitVec 7) (imm : BitVec 10) (s : State) : Host.Outcome State Fault Refusal := aluImm s 1 d a (simm imm) fun a v => a + v
/-- ADDI with a literal (R135, R60). -/
def execAddiLit (d a : BitVec 7) (lit : Word) (s : State) : Host.Outcome State Fault Refusal := aluImm s 3 d a lit fun a v => a + v
/-- ANDI (R135). -/
def execAndi (d a : BitVec 7) (imm : BitVec 10) (s : State) : Host.Outcome State Fault Refusal := aluImm s 1 d a (simm imm) fun a v => a &&& v
/-- ANDI with a literal (R135, R60). -/
def execAndiLit (d a : BitVec 7) (lit : Word) (s : State) : Host.Outcome State Fault Refusal := aluImm s 3 d a lit fun a v => a &&& v
/-- ORI (R135). -/
def execOri (d a : BitVec 7) (imm : BitVec 10) (s : State) : Host.Outcome State Fault Refusal := aluImm s 1 d a (simm imm) fun a v => a ||| v
/-- ORI with a literal (R135, R60). -/
def execOriLit (d a : BitVec 7) (lit : Word) (s : State) : Host.Outcome State Fault Refusal := aluImm s 3 d a lit fun a v => a ||| v
/-- XORI (R135). -/
def execXori (d a : BitVec 7) (imm : BitVec 10) (s : State) : Host.Outcome State Fault Refusal := aluImm s 1 d a (simm imm) fun a v => a ^^^ v
/-- XORI with a literal (R135, R60). -/
def execXoriLit (d a : BitVec 7) (lit : Word) (s : State) : Host.Outcome State Fault Refusal := aluImm s 3 d a lit fun a v => a ^^^ v
/-- SHLI (R135). -/
def execShli (d a : BitVec 7) (imm : BitVec 10) (s : State) : Host.Outcome State Fault Refusal := aluImm s 1 d a (simm imm) fun a v => shlW a (shiftCount v)
/-- SHLI with a literal (R135, R60). -/
def execShliLit (d a : BitVec 7) (lit : Word) (s : State) : Host.Outcome State Fault Refusal := aluImm s 3 d a lit fun a v => shlW a (shiftCount v)
/-- SHRI (R135). -/
def execShri (d a : BitVec 7) (imm : BitVec 10) (s : State) : Host.Outcome State Fault Refusal := aluImm s 1 d a (simm imm) fun a v => shrW a (shiftCount v)
/-- SHRI with a literal (R135, R60). -/
def execShriLit (d a : BitVec 7) (lit : Word) (s : State) : Host.Outcome State Fault Refusal := aluImm s 3 d a lit fun a v => shrW a (shiftCount v)
/-- SARI (R135). -/
def execSari (d a : BitVec 7) (imm : BitVec 10) (s : State) : Host.Outcome State Fault Refusal := aluImm s 1 d a (simm imm) fun a v => sarW a (shiftCount v)
/-- SARI with a literal (R135, R60). -/
def execSariLit (d a : BitVec 7) (lit : Word) (s : State) : Host.Outcome State Fault Refusal := aluImm s 3 d a lit fun a v => sarW a (shiftCount v)
/-- ROTI (R135). -/
def execRoti (d a : BitVec 7) (imm : BitVec 10) (s : State) : Host.Outcome State Fault Refusal := aluImm s 1 d a (simm imm) fun a v => rotW a (shiftCount v)
/-- ROTI with a literal (R135, R60). -/
def execRotiLit (d a : BitVec 7) (lit : Word) (s : State) : Host.Outcome State Fault Refusal := aluImm s 3 d a lit fun a v => rotW a (shiftCount v)
/-- MOVL (R136). -/
def execMovl (d : BitVec 7) (lit : Word) (s : State) : Host.Outcome State Fault Refusal := instr s 3 [d] fun _ l => .done (l.setG d lit)
/-- LEA (R137): PC is the address of the LEA's first word. -/
def execLea (d a : BitVec 7) (imm : BitVec 10) (s : State) : Host.Outcome State Fault Refusal :=
  instr s 1 [d, a] fun _ l => .done (l.setG d (l.th.pc + l.g a + simm imm))
/-- LEA with a literal (R137, R60). -/
def execLeaLit (d a : BitVec 7) (lit : Word) (s : State) : Host.Outcome State Fault Refusal :=
  instr s 3 [d, a] fun _ l => .done (l.setG d (l.th.pc + l.g a + lit))
/-- CMPI (R142). -/
def execCmpi (pd : BitVec 3) (cc : BitVec 4) (a : BitVec 7) (imm : BitVec 10) (s : State) : Host.Outcome State Fault Refusal :=
  instr s 1 [a] fun _ l => compareTo l pd cc (l.g a) (simm imm)
/-- CMPI with a literal (R142, R60). -/
def execCmpiLit (pd : BitVec 3) (cc : BitVec 4) (a : BitVec 7) (lit : Word) (s : State) : Host.Outcome State Fault Refusal :=
  instr s 3 [a] fun _ l => compareTo l pd cc (l.g a) lit
/-- CMP (R142). -/
def execCmp (pd : BitVec 3) (cc : BitVec 4) (a b : BitVec 7) (s : State) : Host.Outcome State Fault Refusal :=
  instr s 1 [a, b] fun _ l => compareTo l pd cc (l.g a) (l.g b)
/-- ADD (R134). -/
def execAdd (d a b : BitVec 7) (s : State) : Host.Outcome State Fault Refusal := alu3 s d a b fun a b => a + b
/-- SUB (R134). -/
def execSub (d a b : BitVec 7) (s : State) : Host.Outcome State Fault Refusal := alu3 s d a b fun a b => a - b
/-- AND (R134). -/
def execAnd (d a b : BitVec 7) (s : State) : Host.Outcome State Fault Refusal := alu3 s d a b fun a b => a &&& b
/-- OR (R134). -/
def execOr (d a b : BitVec 7) (s : State) : Host.Outcome State Fault Refusal := alu3 s d a b fun a b => a ||| b
/-- XOR (R134). -/
def execXor (d a b : BitVec 7) (s : State) : Host.Outcome State Fault Refusal := alu3 s d a b fun a b => a ^^^ b
/-- ANDN (R134). -/
def execAndn (d a b : BitVec 7) (s : State) : Host.Outcome State Fault Refusal := alu3 s d a b fun a b => a &&& ~~~b
/-- MIN (R134). -/
def execMin (d a b : BitVec 7) (s : State) : Host.Outcome State Fault Refusal := alu3 s d a b fun a b => minS a b
/-- MAX (R134). -/
def execMax (d a b : BitVec 7) (s : State) : Host.Outcome State Fault Refusal := alu3 s d a b fun a b => maxS a b
/-- SHL (R134). -/
def execShl (d a b : BitVec 7) (s : State) : Host.Outcome State Fault Refusal := alu3 s d a b fun a b => shlW a (shiftCount b)
/-- SHR (R134). -/
def execShr (d a b : BitVec 7) (s : State) : Host.Outcome State Fault Refusal := alu3 s d a b fun a b => shrW a (shiftCount b)
/-- SAR (R134). -/
def execSar (d a b : BitVec 7) (s : State) : Host.Outcome State Fault Refusal := alu3 s d a b fun a b => sarW a (shiftCount b)
/-- ROT (R134). -/
def execRot (d a b : BitVec 7) (s : State) : Host.Outcome State Fault Refusal := alu3 s d a b fun a b => rotW a (shiftCount b)
/-- MINN (R134). -/
def execMinn (d a b : BitVec 7) (s : State) : Host.Outcome State Fault Refusal := alu3 s d a b fun a b => minU a b
/-- MAXN (R134). -/
def execMaxn (d a b : BitVec 7) (s : State) : Host.Outcome State Fault Refusal := alu3 s d a b fun a b => maxU a b
/-- MUL (R138). -/
def execMul (d a b : BitVec 7) (s : State) : Host.Outcome State Fault Refusal := alu3 s d a b fun a b => a * b
/-- MULH (R138). -/
def execMulh (d a b : BitVec 7) (s : State) : Host.Outcome State Fault Refusal := alu3 s d a b fun a b => mulHigh a b
/-- MULHN (R138). -/
def execMulhn (d a b : BitVec 7) (s : State) : Host.Outcome State Fault Refusal := alu3 s d a b fun a b => mulHighN a b
/-- DIV (R138). -/
def execDiv (d a b : BitVec 7) (s : State) : Host.Outcome State Fault Refusal := aluDiv s d a b divS
/-- DIVN (R138). -/
def execDivn (d a b : BitVec 7) (s : State) : Host.Outcome State Fault Refusal := aluDiv s d a b divU
/-- REM (R138). -/
def execRem (d a b : BitVec 7) (s : State) : Host.Outcome State Fault Refusal := aluDiv s d a b remS
/-- REMN (R138). -/
def execRemn (d a b : BitVec 7) (s : State) : Host.Outcome State Fault Refusal := aluDiv s d a b remU
/-- CLZ (R139). -/
def execClz (d a : BitVec 7) (s : State) : Host.Outcome State Fault Refusal := alu2 s d a fun a => BitVec.ofNat 64 (leadingZeros a 64)
/-- CTZ (R139). -/
def execCtz (d a : BitVec 7) (s : State) : Host.Outcome State Fault Refusal := alu2 s d a fun a => BitVec.ofNat 64 (trailingZeros a 0 64)
/-- POPC (R139). -/
def execPopc (d a : BitVec 7) (s : State) : Host.Outcome State Fault Refusal := alu2 s d a fun a => BitVec.ofNat 64 (onesOf a 64)
/-- BREV (R139). -/
def execBrev (d a : BitVec 7) (s : State) : Host.Outcome State Fault Refusal := alu2 s d a reverseBits
/-- MOV (R139). -/
def execMov (d a : BitVec 7) (s : State) : Host.Outcome State Fault Refusal := alu2 s d a fun a => a
/-- PAND (R144). -/
def execPand (d a b : BitVec 7) (s : State) : Host.Outcome State Fault Refusal := predOp s d fun t => (t.p a.toNat && t.p b.toNat)
/-- POR (R144). -/
def execPor (d a b : BitVec 7) (s : State) : Host.Outcome State Fault Refusal := predOp s d fun t => (t.p a.toNat || t.p b.toNat)
/-- PXOR (R144). -/
def execPxor (d a b : BitVec 7) (s : State) : Host.Outcome State Fault Refusal := predOp s d fun t => (t.p a.toNat != t.p b.toNat)
/-- PNOT (R144). -/
def execPnot (d a : BitVec 7) (s : State) : Host.Outcome State Fault Refusal := predOp s d fun t => !t.p a.toNat
/-- SEL (R145): both sources are read whatever P[N] holds. -/
def execSel (d a b : BitVec 7) (n : BitVec 3) (s : State) : Host.Outcome State Fault Refusal :=
  instr s 1 [d, a, b] fun _ l => .done (l.setG d (if l.th.p n.toNat then l.g a else l.g b))
/-- FCMP (R143). -/
def execFcmp (pd : BitVec 3) (cc : BitVec 4) (a b : BitVec 7) (f64 : Bool) (s : State) : Host.Outcome State Fault Refusal :=
  instr s 1 [a, b] fun _ l =>
    let code := if f64 then 8 else 9
    let r := fpCond cc.toNat (valOf code (fpOperand code (l.g a))) (valOf code (fpOperand code (l.g b)))
    .done ((l.setFlags r.2).setP pd r.1)
/-- BRI (R152). -/
def execBri (a : BitVec 7) (s : State) : Host.Outcome State Fault Refusal := instr s 1 [a] fun _ l => branchTo l l (l.g a)
/-- RET (R152). -/
def execRet (a : BitVec 7) (s : State) : Host.Outcome State Fault Refusal := instr s 1 [a] fun _ l => branchTo l l (l.g a)
/-- BR (R150). -/
def execBr (disp : BitVec 20) (s : State) : Host.Outcome State Fault Refusal := instr s 1 [] fun _ l => branchTo l l (dispTarget l.th.pc disp)
/-- BR to a literal (R150, R60). -/
def execBrLit (lit : Word) (s : State) : Host.Outcome State Fault Refusal := instr s 3 [] fun _ l => branchTo l l lit
/-- BRP (R150). -/
def execBrp (pg : BitVec 3) (pn : Bool) (disp : BitVec 20) (s : State) : Host.Outcome State Fault Refusal :=
  instr s 1 [] fun _ l => branchIf l l pg pn (dispTarget l.th.pc disp)
/-- BRP to a literal (R150, R60). -/
def execBrpLit (pg : BitVec 3) (pn : Bool) (lit : Word) (s : State) : Host.Outcome State Fault Refusal :=
  instr s 3 [] fun _ l => branchIf l l pg pn lit
/-- CALL (R150): it names g7 as its destination whether or not it is taken. -/
def execCall (pg : BitVec 3) (pn : Bool) (disp : BitVec 20) (s : State) : Host.Outcome State Fault Refusal :=
  instr s 1 [7] fun _ l => callBody l pg pn (dispTarget l.th.pc disp)
/-- CALL to a literal (R150, R60). -/
def execCallLit (pg : BitVec 3) (pn : Bool) (lit : Word) (s : State) : Host.Outcome State Fault Refusal :=
  instr s 3 [7] fun _ l => callBody l pg pn lit
/-- LOOP (R151). -/
def execLoop (cnt : BitVec 3) (disp : BitVec 20) (s : State) : Host.Outcome State Fault Refusal :=
  instr s 1 [cnt.setWidth 7] fun _ l => loopBody l cnt (dispTarget l.th.pc disp)
/-- LOOP to a literal (R151, R60). -/
def execLoopLit (cnt : BitVec 3) (lit : Word) (s : State) : Host.Outcome State Fault Refusal :=
  instr s 3 [cnt.setWidth 7] fun _ l => loopBody l cnt lit
/-- FENCE (R154). -/
def execFence (s : State) : Host.Outcome State Fault Refusal :=
  instr s 1 [] fun _ l => if l.dev.pendingAccess l.dev.cur then .park l (.order .accesses) else .done l
/-- FENCE.RED (R154). -/
def execFenceRed (s : State) : Host.Outcome State Fault Refusal :=
  instr s 1 [] fun _ l =>
    if l.dev.pendingAccess l.dev.cur || l.dev.redOut l.dev.cur != 0 then .park l (.order .all) else .done l
/-- FADD (R146). -/
def execFadd (x : Ext) (s : State) : Host.Outcome State Fault Refusal := fpArith s x [x.a, x.b] fun m v => exactSum m [v x.a, v x.b]
/-- FSUB (R146). -/
def execFsub (x : Ext) (s : State) : Host.Outcome State Fault Refusal := fpArith s x [x.a, x.b] fun m v => exactSum m [v x.a, (v x.b).negate]
/-- FMUL (R146). -/
def execFmul (x : Ext) (s : State) : Host.Outcome State Fault Refusal := fpArith s x [x.a, x.b] fun _ v => valMul (v x.a) (v x.b)
/-- FDIV (R146). -/
def execFdiv (x : Ext) (s : State) : Host.Outcome State Fault Refusal := fpArith s x [x.a, x.b] fun _ v => valDiv (v x.a) (v x.b)
/-- FMIN (R83, R146). -/
def execFmin (x : Ext) (s : State) : Host.Outcome State Fault Refusal := fpMinMax s x false
/-- FMAX (R83, R146). -/
def execFmax (x : Ext) (s : State) : Host.Outcome State Fault Refusal := fpMinMax s x true
/-- FSQRT (R146). -/
def execFsqrt (x : Ext) (s : State) : Host.Outcome State Fault Refusal := fpArith s x [x.a] fun _ v => valSqrt (v x.a)
/-- FFMA (R146): one rounding. -/
def execFfma (x : Ext) (s : State) : Host.Outcome State Fault Refusal :=
  fpArith s x [x.a, x.b, x.c] fun m v =>
    let p := valMul (v x.a) (v x.b)
    let t := exactSum m [p.1, v x.c]
    (t.1, p.2 ||| t.2)
/-- FCVT (R147): between equal formats the value is unchanged, so SAT changes nothing then. -/
def execFcvt (x : Ext) (s : State) : Host.Outcome State Fault Refusal :=
  instrX s x [x.d, x.a] [] fun _ l =>
    let v := valOf x.sfmt.toNat (fpOperand x.sfmt.toNat (l.g x.a))
    roundInto l x x.dfmt.toNat (x.sat && x.sfmt != x.dfmt) v (flagIf v.signals flagNV)
/-- FCLASS (R148). -/
def execFclass (x : Ext) (s : State) : Host.Outcome State Fault Refusal :=
  instrX s x [x.d, x.a] [] fun _ l =>
    .done (l.setG x.d (1#64 <<< classOf x.sfmt.toNat (fpOperand x.sfmt.toNat (l.g x.a))))
/-- EXT (R140). -/
def execExt (x : Ext) (s : State) : Host.Outcome State Fault Refusal :=
  instrX s x [x.d, x.a] [] fun _ l => .done (l.setG x.d (extS (l.g x.a) (fieldPos x.immZ) (fieldWid x.immZ)))
/-- EXTN (R140). -/
def execExtn (x : Ext) (s : State) : Host.Outcome State Fault Refusal :=
  instrX s x [x.d, x.a] [] fun _ l => .done (l.setG x.d (extU (l.g x.a) (fieldPos x.immZ) (fieldWid x.immZ)))
/-- INS (R140): it reads G[D]. -/
def execIns (x : Ext) (s : State) : Host.Outcome State Fault Refusal :=
  instrX s x [x.d, x.a] [] fun _ l =>
    .done (l.setG x.d (insW (l.g x.d) (l.g x.a) (fieldPos x.immZ) (fieldWid x.immZ)))

end Sys2Proof.Machine
end

