-- ==== Sys2Proof/Machine/Dispatch.lean ====
section
/-!
DEFINITION. One arm for every row of spec/opcode_table.json: the meaning it calls.
-/

namespace Sys2Proof.Machine

/-- The effect of an instruction, or of a step of the part, on a state. -/
def exec (i : Instr) (s : State) : Host.Outcome State Fault Refusal :=
  match i with
  | .nop => Sys2Proof.Machine.execNop s
  | .trap code => Sys2Proof.Machine.execTrap code s
  | .brk code => Sys2Proof.Machine.execBrk code s
  | .addi d a imm => Sys2Proof.Machine.execAddi d a imm s
  | .addiLit d a lit => Sys2Proof.Machine.execAddiLit d a lit s
  | .andi d a imm => Sys2Proof.Machine.execAndi d a imm s
  | .andiLit d a lit => Sys2Proof.Machine.execAndiLit d a lit s
  | .ori d a imm => Sys2Proof.Machine.execOri d a imm s
  | .oriLit d a lit => Sys2Proof.Machine.execOriLit d a lit s
  | .xori d a imm => Sys2Proof.Machine.execXori d a imm s
  | .xoriLit d a lit => Sys2Proof.Machine.execXoriLit d a lit s
  | .shli d a imm => Sys2Proof.Machine.execShli d a imm s
  | .shliLit d a lit => Sys2Proof.Machine.execShliLit d a lit s
  | .shri d a imm => Sys2Proof.Machine.execShri d a imm s
  | .shriLit d a lit => Sys2Proof.Machine.execShriLit d a lit s
  | .sari d a imm => Sys2Proof.Machine.execSari d a imm s
  | .sariLit d a lit => Sys2Proof.Machine.execSariLit d a lit s
  | .roti d a imm => Sys2Proof.Machine.execRoti d a imm s
  | .rotiLit d a lit => Sys2Proof.Machine.execRotiLit d a lit s
  | .movl d lit => Sys2Proof.Machine.execMovl d lit s
  | .lea d a imm => Sys2Proof.Machine.execLea d a imm s
  | .leaLit d a lit => Sys2Proof.Machine.execLeaLit d a lit s
  | .cmpi pd cc a imm => Sys2Proof.Machine.execCmpi pd cc a imm s
  | .cmpiLit pd cc a lit => Sys2Proof.Machine.execCmpiLit pd cc a lit s
  | .cmp pd cc a b => Sys2Proof.Machine.execCmp pd cc a b s
  | .add d a b => Sys2Proof.Machine.execAdd d a b s
  | .sub d a b => Sys2Proof.Machine.execSub d a b s
  | .and d a b => Sys2Proof.Machine.execAnd d a b s
  | .or d a b => Sys2Proof.Machine.execOr d a b s
  | .xor d a b => Sys2Proof.Machine.execXor d a b s
  | .andn d a b => Sys2Proof.Machine.execAndn d a b s
  | .min d a b => Sys2Proof.Machine.execMin d a b s
  | .max d a b => Sys2Proof.Machine.execMax d a b s
  | .shl d a b => Sys2Proof.Machine.execShl d a b s
  | .shr d a b => Sys2Proof.Machine.execShr d a b s
  | .sar d a b => Sys2Proof.Machine.execSar d a b s
  | .rot d a b => Sys2Proof.Machine.execRot d a b s
  | .minn d a b => Sys2Proof.Machine.execMinn d a b s
  | .maxn d a b => Sys2Proof.Machine.execMaxn d a b s
  | .mul d a b => Sys2Proof.Machine.execMul d a b s
  | .mulh d a b => Sys2Proof.Machine.execMulh d a b s
  | .mulhn d a b => Sys2Proof.Machine.execMulhn d a b s
  | .div d a b => Sys2Proof.Machine.execDiv d a b s
  | .divn d a b => Sys2Proof.Machine.execDivn d a b s
  | .rem d a b => Sys2Proof.Machine.execRem d a b s
  | .remn d a b => Sys2Proof.Machine.execRemn d a b s
  | .clz d a => Sys2Proof.Machine.execClz d a s
  | .ctz d a => Sys2Proof.Machine.execCtz d a s
  | .popc d a => Sys2Proof.Machine.execPopc d a s
  | .brev d a => Sys2Proof.Machine.execBrev d a s
  | .mov d a => Sys2Proof.Machine.execMov d a s
  | .pand d a b => Sys2Proof.Machine.execPand d a b s
  | .por d a b => Sys2Proof.Machine.execPor d a b s
  | .pxor d a b => Sys2Proof.Machine.execPxor d a b s
  | .pnot d a => Sys2Proof.Machine.execPnot d a s
  | .sel d a b n => Sys2Proof.Machine.execSel d a b n s
  | .fcmp pd cc a b f64 => Sys2Proof.Machine.execFcmp pd cc a b f64 s
  | .bri a => Sys2Proof.Machine.execBri a s
  | .ret a => Sys2Proof.Machine.execRet a s
  | .br disp => Sys2Proof.Machine.execBr disp s
  | .brLit lit => Sys2Proof.Machine.execBrLit lit s
  | .brp pg pn disp => Sys2Proof.Machine.execBrp pg pn disp s
  | .brpLit pg pn lit => Sys2Proof.Machine.execBrpLit pg pn lit s
  | .call pg pn disp => Sys2Proof.Machine.execCall pg pn disp s
  | .callLit pg pn lit => Sys2Proof.Machine.execCallLit pg pn lit s
  | .loop cnt disp => Sys2Proof.Machine.execLoop cnt disp s
  | .loopLit cnt lit => Sys2Proof.Machine.execLoopLit cnt lit s
  | .fence => Sys2Proof.Machine.execFence s
  | .fenceRed => Sys2Proof.Machine.execFenceRed s
  | .exit => Sys2Proof.Machine.execExit s
  | .yield => Sys2Proof.Machine.execYield s
  | .mfs d n => Sys2Proof.Machine.execMfs d n s
  | .mts d n => Sys2Proof.Machine.execMts d n s
  | .ldI8 d a ord off => Sys2Proof.Machine.execLdI8 d a ord off s
  | .ldI8Lit d a ord lit => Sys2Proof.Machine.execLdI8Lit d a ord lit s
  | .ldN8 d a ord off => Sys2Proof.Machine.execLdN8 d a ord off s
  | .ldN8Lit d a ord lit => Sys2Proof.Machine.execLdN8Lit d a ord lit s
  | .ldI16 d a ord off => Sys2Proof.Machine.execLdI16 d a ord off s
  | .ldI16Lit d a ord lit => Sys2Proof.Machine.execLdI16Lit d a ord lit s
  | .ldN16 d a ord off => Sys2Proof.Machine.execLdN16 d a ord off s
  | .ldN16Lit d a ord lit => Sys2Proof.Machine.execLdN16Lit d a ord lit s
  | .ldI32 d a ord off => Sys2Proof.Machine.execLdI32 d a ord off s
  | .ldI32Lit d a ord lit => Sys2Proof.Machine.execLdI32Lit d a ord lit s
  | .ldN32 d a ord off => Sys2Proof.Machine.execLdN32 d a ord off s
  | .ldN32Lit d a ord lit => Sys2Proof.Machine.execLdN32Lit d a ord lit s
  | .ld64 d a ord off => Sys2Proof.Machine.execLd64 d a ord off s
  | .ld64Lit d a ord lit => Sys2Proof.Machine.execLd64Lit d a ord lit s
  | .ld128 d a ord off => Sys2Proof.Machine.execLd128 d a ord off s
  | .ld128Lit d a ord lit => Sys2Proof.Machine.execLd128Lit d a ord lit s
  | .st8 d a ord off => Sys2Proof.Machine.execSt8 d a ord off s
  | .st8Lit d a ord lit => Sys2Proof.Machine.execSt8Lit d a ord lit s
  | .st16 d a ord off => Sys2Proof.Machine.execSt16 d a ord off s
  | .st16Lit d a ord lit => Sys2Proof.Machine.execSt16Lit d a ord lit s
  | .st32 d a ord off => Sys2Proof.Machine.execSt32 d a ord off s
  | .st32Lit d a ord lit => Sys2Proof.Machine.execSt32Lit d a ord lit s
  | .st64 d a ord off => Sys2Proof.Machine.execSt64 d a ord off s
  | .st64Lit d a ord lit => Sys2Proof.Machine.execSt64Lit d a ord lit s
  | .st128 d a ord off => Sys2Proof.Machine.execSt128 d a ord off s
  | .st128Lit d a ord lit => Sys2Proof.Machine.execSt128Lit d a ord lit s
  | .movToC a c => Sys2Proof.Machine.execMovToC a c s
  | .movFromC d c => Sys2Proof.Machine.execMovFromC d c s
  | .mtd t d fld imm => Sys2Proof.Machine.execMtd t d fld imm s
  | .mtdLit t d fld lit => Sys2Proof.Machine.execMtdLit t d fld lit s
  | .mfd t d fld => Sys2Proof.Machine.execMfd t d fld s
  | .tzero t fld => Sys2Proof.Machine.execTzero t fld s
  | .fadd x => Sys2Proof.Machine.execFadd x s
  | .fsub x => Sys2Proof.Machine.execFsub x s
  | .fmul x => Sys2Proof.Machine.execFmul x s
  | .fdiv x => Sys2Proof.Machine.execFdiv x s
  | .fmin x => Sys2Proof.Machine.execFmin x s
  | .fmax x => Sys2Proof.Machine.execFmax x s
  | .fsqrt x => Sys2Proof.Machine.execFsqrt x s
  | .ffma x => Sys2Proof.Machine.execFfma x s
  | .fcvt x => Sys2Proof.Machine.execFcvt x s
  | .fclass x => Sys2Proof.Machine.execFclass x s
  | .ext x => Sys2Proof.Machine.execExt x s
  | .extn x => Sys2Proof.Machine.execExtn x s
  | .ins x => Sys2Proof.Machine.execIns x s
  | .ldf x => Sys2Proof.Machine.execLdf x s
  | .ldfClr x => Sys2Proof.Machine.execLdfClr x s
  | .stf x => Sys2Proof.Machine.execStf x s
  | .sts x => Sys2Proof.Machine.execSts x s
  | .sete x => Sys2Proof.Machine.execSete x s
  | .setf x => Sys2Proof.Machine.execSetf x s
  | .feq x => Sys2Proof.Machine.execFeq x s
  | .roinv x => Sys2Proof.Machine.execRoinv x s
  | .aadd x => Sys2Proof.Machine.execAadd x s
  | .aand x => Sys2Proof.Machine.execAand x s
  | .aor x => Sys2Proof.Machine.execAor x s
  | .axor x => Sys2Proof.Machine.execAxor x s
  | .amin x => Sys2Proof.Machine.execAmin x s
  | .amax x => Sys2Proof.Machine.execAmax x s
  | .aminn x => Sys2Proof.Machine.execAminn x s
  | .amaxn x => Sys2Proof.Machine.execAmaxn x s
  | .axchg x => Sys2Proof.Machine.execAxchg x s
  | .acas x => Sys2Proof.Machine.execAcas x s
  | .afadd x => Sys2Proof.Machine.execAfadd x s
  | .redadd x => Sys2Proof.Machine.execRedadd x s
  | .redmin x => Sys2Proof.Machine.execRedmin x s
  | .redmax x => Sys2Proof.Machine.execRedmax x s
  | .redand x => Sys2Proof.Machine.execRedand x s
  | .redor x => Sys2Proof.Machine.execRedor x s
  | .redxor x => Sys2Proof.Machine.execRedxor x s
  | .redfadd x => Sys2Proof.Machine.execRedfadd x s
  | .spawn x => Sys2Proof.Machine.execSpawn x s
  | .migrate x => Sys2Proof.Machine.execMigrate x s
  | .rput x => Sys2Proof.Machine.execRput x s
  | .tld x => Sys2Proof.Machine.execTld x s
  | .tldv x => Sys2Proof.Machine.execTldv x s
  | .tst x => Sys2Proof.Machine.execTst x s
  | .tstAon x => Sys2Proof.Machine.execTstAon x s
  | .tmov x => Sys2Proof.Machine.execTmov x s
  | .ttr x => Sys2Proof.Machine.execTtr x s
  | .vadd x => Sys2Proof.Machine.execVadd x s
  | .vsub x => Sys2Proof.Machine.execVsub x s
  | .vmul x => Sys2Proof.Machine.execVmul x s
  | .vmin x => Sys2Proof.Machine.execVmin x s
  | .vmax x => Sys2Proof.Machine.execVmax x s
  | .vfma x => Sys2Proof.Machine.execVfma x s
  | .vabs x => Sys2Proof.Machine.execVabs x s
  | .vneg x => Sys2Proof.Machine.execVneg x s
  | .vand x => Sys2Proof.Machine.execVand x s
  | .vor x => Sys2Proof.Machine.execVor x s
  | .vxor x => Sys2Proof.Machine.execVxor x s
  | .vshl x => Sys2Proof.Machine.execVshl x s
  | .vshr x => Sys2Proof.Machine.execVshr x s
  | .vcmp x => Sys2Proof.Machine.execVcmp x s
  | .vsel x => Sys2Proof.Machine.execVsel x s
  | .vcvt x => Sys2Proof.Machine.execVcvt x s
  | .vqnt x => Sys2Proof.Machine.execVqnt x s
  | .vdq x => Sys2Proof.Machine.execVdq x s
  | .vexp2 x => Sys2Proof.Machine.execVexp2 x s
  | .vlog2 x => Sys2Proof.Machine.execVlog2 x s
  | .vrcp x => Sys2Proof.Machine.execVrcp x s
  | .vrsq x => Sys2Proof.Machine.execVrsq x s
  | .vredsum x => Sys2Proof.Machine.execVredsum x s
  | .vredmax x => Sys2Proof.Machine.execVredmax x s
  | .vredmin x => Sys2Proof.Machine.execVredmin x s
  | .vbcst x => Sys2Proof.Machine.execVbcst x s
  | .vperm x => Sys2Proof.Machine.execVperm x s
  | .vgather x => Sys2Proof.Machine.execVgather x s
  | .vscan x => Sys2Proof.Machine.execVscan x s
  | .mgang x => Sys2Proof.Machine.execMgang x s
  | .mleave x => Sys2Proof.Machine.execMleave x s
  | .wld x => Sys2Proof.Machine.execWld x s
  | .wswap x => Sys2Proof.Machine.execWswap x s
  | .mma x => Sys2Proof.Machine.execMma x s
  | .mdrain x => Sys2Proof.Machine.execMdrain x s
  | .mzero x => Sys2Proof.Machine.execMzero x s
  | .mstat x => Sys2Proof.Machine.execMstat x s
  | .wpush x => Sys2Proof.Machine.execWpush x s
  | .wpop x => Sys2Proof.Machine.execWpop x s
  | .wlen x => Sys2Proof.Machine.execWlen x s
  | .balcfg x => Sys2Proof.Machine.execBalcfg x s
  | .phnew x => Sys2Proof.Machine.execPhnew x s
  | .phreg x => Sys2Proof.Machine.execPhreg x s
  | .phdrop x => Sys2Proof.Machine.execPhdrop x s
  | .phsig x => Sys2Proof.Machine.execPhsig x s
  | .phwait x => Sys2Proof.Machine.execPhwait x s
  | .phnext x => Sys2Proof.Machine.execPhnext x s
  | .phfree x => Sys2Proof.Machine.execPhfree x s
  | .phq x => Sys2Proof.Machine.execPhq x s
  | .copen x => Sys2Proof.Machine.execCopen x s
  | .cresize x => Sys2Proof.Machine.execCresize x s
  | .cclose x => Sys2Proof.Machine.execCclose x s
  | .cquery x => Sys2Proof.Machine.execCquery x s
  | .cpy x => Sys2Proof.Machine.execCpy x s
  | .cpyg x => Sys2Proof.Machine.execCpyg x s
  | .cpys x => Sys2Proof.Machine.execCpys x s
  | .cpyc x => Sys2Proof.Machine.execCpyc x s
  | .cpyn x => Sys2Proof.Machine.execCpyn x s
  | .coll x => Sys2Proof.Machine.execColl x s
  | .qfence x => Sys2Proof.Machine.execQfence x s
  | .jwait x => Sys2Proof.Machine.execJwait x s
  | .jpoll x => Sys2Proof.Machine.execJpoll x s
  | .jcancel x => Sys2Proof.Machine.execJcancel x s
  | .wlds x => Sys2Proof.Machine.execWlds x s
  | .srq x => Sys2Proof.Machine.execSrq x s
  | .name x => Sys2Proof.Machine.execName x s
  | .nld x => Sys2Proof.Machine.execNld x s
  | .nref x => Sys2Proof.Machine.execNref x s
  | .nrel x => Sys2Proof.Machine.execNrel x s
  | .nswap x => Sys2Proof.Machine.execNswap x s
  | .nroot x => Sys2Proof.Machine.execNroot x s
  | .nstat x => Sys2Proof.Machine.execNstat x s
  | .tlbw x => Sys2Proof.Machine.execTlbw x s
  | .tlbi x => Sys2Proof.Machine.execTlbi x s
  | .tlbp x => Sys2Proof.Machine.execTlbp x s
  | .walkret x => Sys2Proof.Machine.execWalkret x s
  | .threadWake tid => Sys2Proof.Machine.execThreadWake tid s
  | .yieldHoldEnd tid => Sys2Proof.Machine.execYieldHoldEnd tid s
  | .setptWrite cluster v => Sys2Proof.Machine.execSetptWrite cluster v s
  | .setptChangeDone cluster => Sys2Proof.Machine.execSetptChangeDone cluster s
  | .supplyDroop cluster freq under => Sys2Proof.Machine.execSupplyDroop cluster freq under s
  | .coldBoot b => Sys2Proof.Machine.execColdBoot b s
  | .fwrldWrite v => Sys2Proof.Machine.execFwrldWrite v s
  | .imageVerifyDone ok b => Sys2Proof.Machine.execImageVerifyDone ok b s
  | .flitArrival flit bad => Sys2Proof.Machine.execFlitArrival flit bad s
  | .circuitInject cnum rev n => Sys2Proof.Machine.execCircuitInject cnum rev n s
  | .configFlitReceive msg => Sys2Proof.Machine.execConfigFlitReceive msg s
  | .configFlitForward msg => Sys2Proof.Machine.execConfigFlitForward msg s
  | .configAckReceive msg => Sys2Proof.Machine.execConfigAckReceive msg s
  | .commitReceive msg => Sys2Proof.Machine.execCommitReceive msg s
  | .switchTurn turn => Sys2Proof.Machine.execSwitchTurn turn s
  | .injectStop cnum => Sys2Proof.Machine.execInjectStop cnum s
  | .relayFlitSend node dir ctx => Sys2Proof.Machine.execRelayFlitSend node dir ctx s
  | .creditReturnSend node dir ctx => Sys2Proof.Machine.execCreditReturnSend node dir ctx s
  | .creditReturnReceive node dir ctx => Sys2Proof.Machine.execCreditReturnReceive node dir ctx s
  | .relayMessageAccept msg => Sys2Proof.Machine.execRelayMessageAccept msg s
  | .relayPlaceRequest ctx ask => Sys2Proof.Machine.execRelayPlaceRequest ctx ask s
  | .homeRequestArrive req part macFail => Sys2Proof.Machine.execHomeRequestArrive req part macFail s
  | .granuleWake tid => Sys2Proof.Machine.execGranuleWake tid s
  | .granuleRetryTimeout tid => Sys2Proof.Machine.execGranuleRetryTimeout tid s
  | .dramRequestArrive req part => Sys2Proof.Machine.execDramRequestArrive req part s
  | .hbmAccessWindow pc win macFail => Sys2Proof.Machine.execHbmAccessWindow pc win macFail s
  | .hbmRefresh pc => Sys2Proof.Machine.execHbmRefresh pc s
  | .lpddrServe ch macFail => Sys2Proof.Machine.execLpddrServe ch macFail s
  | .hbmrateRequest v => Sys2Proof.Machine.execHbmrateRequest v s
  | .hbmRateStallBegin => Sys2Proof.Machine.execHbmRateStallBegin s
  | .hbmRateSwitchDone => Sys2Proof.Machine.execHbmRateSwitchDone s
  | .ptpExchange port skew => Sys2Proof.Machine.execPtpExchange port skew s
  | .remoteReplyArrive req => Sys2Proof.Machine.execRemoteReplyArrive req s
  | .storeAckArrive req => Sys2Proof.Machine.execStoreAckArrive req s
  | .redAckArrive reqs => Sys2Proof.Machine.execRedAckArrive reqs s
  | .relayFailureReport req lost => Sys2Proof.Machine.execRelayFailureReport req lost s
  | .rputDeliver req => Sys2Proof.Machine.execRputDeliver req s
  | .migrationPlace req => Sys2Proof.Machine.execMigrationPlace req s
  | .migrationFlitLand req => Sys2Proof.Machine.execMigrationFlitLand req s
  | .migrationAccept req => Sys2Proof.Machine.execMigrationAccept req s
  | .spawnRemoteCreate req => Sys2Proof.Machine.execSpawnRemoteCreate req s
  | .spawnReply req => Sys2Proof.Machine.execSpawnReply req s
  | .joinMessage req => Sys2Proof.Machine.execJoinMessage req s
  | .gangBarrierRelease head => Sys2Proof.Machine.execGangBarrierRelease head s
  | .mgangTimeout head => Sys2Proof.Machine.execMgangTimeout head s
  | .mmaBegin head => Sys2Proof.Machine.execMmaBegin head s
  | .mmaComplete head => Sys2Proof.Machine.execMmaComplete head s
  | .wldReadsDone core => Sys2Proof.Machine.execWldReadsDone core s
  | .weightChunkVerify core => Sys2Proof.Machine.execWeightChunkVerify core s
  | .tldvRetry req => Sys2Proof.Machine.execTldvRetry req s
  | .balanceInstant cluster ctx knum => Sys2Proof.Machine.execBalanceInstant cluster ctx knum s
  | .balanceInsert cluster => Sys2Proof.Machine.execBalanceInsert cluster s
  | .coreRelease ctx knum lc => Sys2Proof.Machine.execCoreRelease ctx knum lc s
  | .phaserRequest req => Sys2Proof.Machine.execPhaserRequest req s
  | .phaserReply req => Sys2Proof.Machine.execPhaserReply req s
  | .phaserRetryTimeout tid => Sys2Proof.Machine.execPhaserRetryTimeout tid s
  | .cmRequest req => Sys2Proof.Machine.execCmRequest req s
  | .cmPeerRequest p => Sys2Proof.Machine.execCmPeerRequest p s
  | .cmPeerTimeout cnum => Sys2Proof.Machine.execCmPeerTimeout cnum s
  | .circuitAnswer req => Sys2Proof.Machine.execCircuitAnswer req s
  | .linkFail node port cause => Sys2Proof.Machine.execLinkFail node port cause s
  | .routeRecompute => Sys2Proof.Machine.execRouteRecompute s
  | .jobBegin job => Sys2Proof.Machine.execJobBegin job s
  | .jobItemStart job item => Sys2Proof.Machine.execJobItemStart job item s
  | .jobUnstall job present => Sys2Proof.Machine.execJobUnstall job present s
  | .jobItemDone job item => Sys2Proof.Machine.execJobItemDone job item s
  | .collEnqueueAccept req => Sys2Proof.Machine.execCollEnqueueAccept req s
  | .ringFlitArrive f => Sys2Proof.Machine.execRingFlitArrive f s
  | .collTimeout job => Sys2Proof.Machine.execCollTimeout job s
  | .streamDescriptor req => Sys2Proof.Machine.execStreamDescriptor req s
  | .streamFlitArrive cluster cnum => Sys2Proof.Machine.execStreamFlitArrive cluster cnum s
  | .rowAck job count => Sys2Proof.Machine.execRowAck job count s
  | .engineWatchdog job item => Sys2Proof.Machine.execEngineWatchdog job item s
  | .launch q => Sys2Proof.Machine.execLaunch q s
  | .thresume q => Sys2Proof.Machine.execThresume q s
  | .thend q => Sys2Proof.Machine.execThend q s
  | .kend q => Sys2Proof.Machine.execKend q s
  | .doorbellWrite q v => Sys2Proof.Machine.execDoorbellWrite q v s
  | .queueScan => Sys2Proof.Machine.execQueueScan s
  | .heapBind => Sys2Proof.Machine.execHeapBind s
  | .bindRecord => Sys2Proof.Machine.execBindRecord s
  | .preemptRequest ctx knum => Sys2Proof.Machine.execPreemptRequest ctx knum s
  | .coreSave ctx knum lc => Sys2Proof.Machine.execCoreSave ctx knum lc s
  | .kernelSaved ctx knum => Sys2Proof.Machine.execKernelSaved ctx knum s
  | .kernelRetire ctx knum => Sys2Proof.Machine.execKernelRetire ctx knum s
  | .retireReport => Sys2Proof.Machine.execRetireReport s
  | .schedHeartbeatTimeout => Sys2Proof.Machine.execSchedHeartbeatTimeout s
  | .schedImemError => Sys2Proof.Machine.execSchedImemError s
  | .standbyReady => Sys2Proof.Machine.execStandbyReady s
  | .progressCheck => Sys2Proof.Machine.execProgressCheck s
  | .borderMove cluster => Sys2Proof.Machine.execBorderMove cluster s
  | .create ctx owner prot spill ptroot pages => Sys2Proof.Machine.execCreate ctx owner prot spill ptroot pages s
  | .attach ctx cluster mask base size => Sys2Proof.Machine.execAttach ctx cluster mask base size s
  | .epset ctx cluster ep entry => Sys2Proof.Machine.execEpset ctx cluster ep entry s
  | .activate ctx => Sys2Proof.Machine.execActivate ctx s
  | .rekey ctx slot key => Sys2Proof.Machine.execRekey ctx slot key s
  | .efwd ctx on => Sys2Proof.Machine.execEfwd ctx on s
  | .destroy ctx => Sys2Proof.Machine.execDestroy ctx s
  | .resume ctx => Sys2Proof.Machine.execResume ctx s
  | .keyload ctx slot key adom => Sys2Proof.Machine.execKeyload ctx slot key adom s
  | .lend cluster borrower => Sys2Proof.Machine.execLend cluster borrower s
  | .recallCluster cluster => Sys2Proof.Machine.execRecallCluster cluster s
  | .snap owner nonce => Sys2Proof.Machine.execSnap owner nonce s
  | .adomcfg adom dk lines => Sys2Proof.Machine.execAdomcfg adom dk lines s
  | .rekeySwap ctx => Sys2Proof.Machine.execRekeySwap ctx s
  | .rekeyAbandon ctx => Sys2Proof.Machine.execRekeyAbandon ctx s
  | .fabricRekeyAuto ctx => Sys2Proof.Machine.execFabricRekeyAuto ctx s
  | .contextPoison ctx => Sys2Proof.Machine.execContextPoison ctx s
  | .hotReset => Sys2Proof.Machine.execHotReset s
  | .suspendExpire ctx => Sys2Proof.Machine.execSuspendExpire ctx s
  | .hostLinkDown => Sys2Proof.Machine.execHostLinkDown s
  | .hostLinkUp => Sys2Proof.Machine.execHostLinkUp s
  | .scrubStart ctx => Sys2Proof.Machine.execScrubStart ctx s
  | .scrubDone ctx => Sys2Proof.Machine.execScrubDone ctx s
  | .dieLoss die => Sys2Proof.Machine.execDieLoss die s
  | .machineCheck m => Sys2Proof.Machine.execMachineCheck m s
  | .atticNameRequest req => Sys2Proof.Machine.execAtticNameRequest req s
  | .atticChildReply req => Sys2Proof.Machine.execAtticChildReply req s
  | .atticRefRequest req => Sys2Proof.Machine.execAtticRefRequest req s
  | .atticRelRequest req => Sys2Proof.Machine.execAtticRelRequest req s
  | .atticNldRequest req => Sys2Proof.Machine.execAtticNldRequest req s
  | .atticStatRequest req => Sys2Proof.Machine.execAtticStatRequest req s
  | .atticLeafRead req => Sys2Proof.Machine.execAtticLeafRead req s
  | .atticReclaim stack entry => Sys2Proof.Machine.execAtticReclaim stack entry s
  | .atticReply req => Sys2Proof.Machine.execAtticReply req s
  | .walkerMissArrive core => Sys2Proof.Machine.execWalkerMissArrive core s
  | .missDeferExpire core miss => Sys2Proof.Machine.execMissDeferExpire core miss s
  | .walkerOverdue core miss => Sys2Proof.Machine.execWalkerOverdue core miss s
  | .tlbiRemote req cluster => Sys2Proof.Machine.execTlbiRemote req cluster s
  | .pageFillDone ctx va pte => Sys2Proof.Machine.execPageFillDone ctx va pte s
  | .pageFillTimeout ctx va => Sys2Proof.Machine.execPageFillTimeout ctx va s
  | .pageMigrationDone ctx va pte => Sys2Proof.Machine.execPageMigrationDone ctx va pte s
  | .remapTableError pc => Sys2Proof.Machine.execRemapTableError pc s
  | .pseudoChannelUnfence pc => Sys2Proof.Machine.execPseudoChannelUnfence pc s
  | .laneErrorThreshold link lane => Sys2Proof.Machine.execLaneErrorThreshold link lane s
  | .laneRepairApply link => Sys2Proof.Machine.execLaneRepairApply link s
  | .trecoRetrain port => Sys2Proof.Machine.execTrecoRetrain port s
  | .trecoTrained port lanesUp descOk peerPkg peerPort => Sys2Proof.Machine.execTrecoTrained port lanesUp descOk peerPkg peerPort s
  | .trecoAlign port skewMax peerPlane peerGuard => Sys2Proof.Machine.execTrecoAlign port skewMax peerPlane peerGuard s
  | .trecoLaneFail port => Sys2Proof.Machine.execTrecoLaneFail port s
  | .ueTransportFail cnum => Sys2Proof.Machine.execUeTransportFail cnum s
  | .uePortDown q => Sys2Proof.Machine.execUePortDown q s
  | .ideIntegrityFail => Sys2Proof.Machine.execIdeIntegrityFail s
  | .ideKeyProgram => Sys2Proof.Machine.execIdeKeyProgram s
  | .lpddrFence ch => Sys2Proof.Machine.execLpddrFence ch s
  | .eyeSample n h v => Sys2Proof.Machine.execEyeSample n h v s
  | .eyeMonitorWrite n v => Sys2Proof.Machine.execEyeMonitorWrite n v s
  | .rtrstatWrite node v => Sys2Proof.Machine.execRtrstatWrite node v s
  | .lnkstatWrite link v => Sys2Proof.Machine.execLnkstatWrite link v s
  | .uestatWrite q v => Sys2Proof.Machine.execUestatWrite q v s
  | .lpstatWrite ch v => Sys2Proof.Machine.execLpstatWrite ch v s
  | .trkwhlWrite port v => Sys2Proof.Machine.execTrkwhlWrite port v s
  | .qcfgWrite q v => Sys2Proof.Machine.execQcfgWrite q v s
  | .fqcfgWrite ctx v => Sys2Proof.Machine.execFqcfgWrite ctx v s
  | .owncfgWrite owner v => Sys2Proof.Machine.execOwncfgWrite owner v s
  | .registerWrite addr v => Sys2Proof.Machine.execRegisterWrite addr v s
  | .faultRecordWrite ctx => Sys2Proof.Machine.execFaultRecordWrite ctx s
  | .takeOverEnd => Sys2Proof.Machine.execTakeOverEnd s
  | .ieee1588Lost port => Sys2Proof.Machine.execIeee1588Lost port s
  | .uePortUp q => Sys2Proof.Machine.execUePortUp q s
  | .debugSessionOpen => Sys2Proof.Machine.execDebugSessionOpen s
  | .debugRead target => Sys2Proof.Machine.execDebugRead target s
  | .spdmRequest session ask => Sys2Proof.Machine.execSpdmRequest session ask s
  | .serviceCoreWatchdog unit => Sys2Proof.Machine.execServiceCoreWatchdog unit s
  | .fabricReferenceLost => Sys2Proof.Machine.execFabricReferenceLost s
  | .thermalShutdown => Sys2Proof.Machine.execThermalShutdown s

end Sys2Proof.Machine
end

