-- ==== Sys2Proof/Machine/Issue.lean ====
section
/-!
DEFINITION. The issue of a core: its rotation (R112), the fetch and the decode checks (R61 to R63), completion latencies (R133, R165), and the
time that an issue cycle takes.
-/

namespace Sys2Proof.Machine

/-- Rows of an instruction's range. -/
def vecRows (x : Ext) : Nat := x.rcnt.toNat + 1

/-- Cycles of the vector unit that an instruction takes, none for one that does not use it (R165). -/
def vecCycles : Instr → Nat
  | .vadd x | .vsub x | .vmul x | .vmin x | .vmax x | .vfma x | .vabs x | .vneg x => vecRows x
  | .vand x | .vor x | .vxor x | .vshl x | .vshr x | .vcmp x | .vsel x | .vcvt x | .vbcst x => vecRows x
  | .vredsum x | .vredmax x | .vredmin x => vecRows x
  | .vexp2 x | .vlog2 x | .vrcp x | .vrsq x => 2 * vecRows x
  | .vqnt x | .vdq x | .vperm x | .vgather x | .vscan x | .tmov x => 2 * vecRows x
  | .ttr _ | .tzero _ _ => 32
  | _ => 0

/-- The latency of scalar floating point of some formats (R133). The table gives 6 for .fp32 as destination or wider operand and 8 for .fp64:
where both rows match (fcvt.fp32.fp64) the model takes 8, and where neither does (fcvt.bf16.fp16, fcvt.i64.fp32) 6 (assumption 89). -/
def fpLatency (a b : BitVec 4) : Nat := if a.toNat = 8 || b.toNat = 8 then 8 else 6

/-- The completion latency L of an instruction (R112, R133, R165, R270, R289, R300, R390); one that waits takes what it waits. -/
def latencyOf (i : Instr) : Nat :=
  match i with
  | .tlbp _ => 8
  | .phnew _ | .phreg _ | .phdrop _ | .phsig _ | .phwait _ | .phnext _ | .phfree _ | .phq _ => 10
  | .cpy _ | .cpyg _ | .cpys _ | .cpyc _ | .cpyn _ => 12
  | .fadd x | .fsub x | .fmul x | .ffma x | .fmin x | .fmax x => fpLatency (x.dfmt.setWidth 4) (x.dfmt.setWidth 4)
  | .fcvt x => fpLatency (x.dfmt.setWidth 4) (x.sfmt.setWidth 4)
  | .fdiv x | .fsqrt x => if x.dfmt.toNat = 8 then 20 else 12
  | .cquery _ => 12
  | .vredsum x | .vredmax x | .vredmin x => 8 + vecRows x
  | .vexp2 x | .vlog2 x | .vrcp x | .vrsq x => 9 + 2 * vecRows x
  | .ttr _ | .tzero _ _ => 38
  | i => if vecCycles i = 0 then 6 else 5 + vecCycles i

/-- The completion latency of an instruction where it issues: a single-word access on path 0x2 takes 8 cycles and a path 0x1 read that hits 10;
that of any other access follows from its home and its route, a free number of cycles beyond the least that R112 allows (R224, assumption 4). -/
def latencyAt (b : Boot) (l : Live) (i : Instr) : Nat :=
  match memAddress l i with
  | none => latencyOf i
  | some a =>
    if wbits a 63 60 == 2 then 8
    else if wbits a 63 60 == 1 && (match l.translate b l.myCore (wbits a 47 0) 0 0 with
      | .pa l pa _ => (roFind l l.myCluster l.myCtx pa).isSome
      | _ => false) then 10
    else 6 + Config.accessCycles l.dev.tick

/-- A thread's kernel lets it issue: it is populated, running or draining (R310). -/
def Dev.mayIssue (d : Dev) (t : Thread) : Bool :=
  match d.kernel? t.ctx t.knum with
  | some k => k.st == 1 || k.st == 2 || k.st == 5
  | none => true

/-- A thread is READY for the rotation: it is READY, or parked with its wake event past or a deferred fault due, and its kernel lets it issue
(R110, R112, R222). -/
def Dev.isReady (d : Dev) (tid : Nat) : Bool :=
  let t := d.thread tid
  (match t.st with
    | .ready => true
    | .parked p => t.deferred.isSome || wakeMet d tid p
    | _ => false) && (tid % 64 == 63 || d.mayIssue t)

/-- A thread can issue but for a hold: READY, with nothing in flight (R112). -/
def Dev.canIssue (d : Dev) (tid : Nat) : Bool := d.isReady tid && (d.thread tid).flight == .none

/-- WALKRET waits for the next miss: the walker takes no turn of the rotation (R391). -/
def Flight.idle : Flight → Bool
  | .walk _ => true
  | _ => false

/-- A READY thread for which a YIELD of another thread of its core waits (R126): one with an instruction in flight too, but not a walker that
waits for a miss (assumption 90). -/
def Dev.awaitedByYield (d : Dev) (tid : Nat) : Bool := d.isReady tid && !(d.thread tid).flight.idle

/-- The hold of YIELD has not ended (R126): some READY thread of the core has still to issue, and 64 issue cycles have not passed. -/
def Dev.yielding (d : Dev) (tid : Nat) : Bool :=
  match (d.thread tid).hold with
  | none => false
  | some (others, n) => decide ((d.core (tid / 64)).cycle < n) && others.any fun o => d.awaitedByYield (tid / 64 * 64 + o)

/-- The slots of the other READY threads of a thread's core. -/
def Dev.othersReady (d : Dev) (tid : Nat) : List Nat :=
  (List.range 64).filter fun i => i != tid % 64 && d.awaitedByYield (tid / 64 * 64 + i)

/-- YIELDs of a core that have completed begin their holds (R126): until every other thread that is READY now has issued once, or 64 issue cycles
have passed; with no other READY thread there is none. -/
def Live.startHolds (l : Live) (core : Nat) : Live :=
  let now := (l.dev.core core).cycle
  (l.dev.threads.filter fun e => e.1 / 64 == core && e.2.yieldAt.any fun n => decide (n ≤ now)).foldl (fun l e =>
    let others := l.dev.othersReady e.1
    l.onThread e.1 fun t => { t with yieldAt := none, hold := if others.isEmpty then none else some (others, now + 64) }) l

/-- A slot is eligible in the core's present issue cycle (R112). -/
def Dev.eligible (d : Dev) (tid : Nat) : Bool :=
  d.canIssue tid && decide ((d.thread tid).busy ≤ (d.core (tid / 64)).cycle) && !d.yielding tid && !d.replaying tid

/-- What a fetch gives (R61 to R63). -/
inductive Fetched where
  | instr (l : Live) (i : Instr)
  | miss (l : Live)
  /-- cause, detail, and the sort of gang-issued instruction that the word names (R191) -/
  | trap (l : Live) (cause detail gang : Nat)

/-- Blocks that a core's 64 KiB instruction cache holds (R13). -/
def icacheBlocks : Nat := 1024

/-- The 64-byte fetch block at a physical address (R62); none when it must be filled and a granule is poisoned. A store to code is seen from the next
launch on (R62, R244), so the bytes are those of the core's code, whether the cache still held the block or not; the block least recently used
leaves (assumption 10). -/
def Live.fetchBlock (b : Boot) (l : Live) (core pa : Nat) : Option (Live × BitVec 512) :=
  let r := l.dev.core core
  let v := BitVec.ofNat 512 (Mem.read { cells := r.code } (pa / 64 * 64) 64)
  let keep := fun (l : Live) => l.onCore core fun r => { r with icache := (pa / 64 :: r.icache.filter (· != pa / 64)).take icacheBlocks }
  if r.icache.contains (pa / 64) then some (keep l, v)
  else if l.mem.anyPoison (pa / 64 * 64) 64 then none
  else some (keep (l.chargeBytes b (l.coreCtx core) pa 64), v)

/-- An instruction-cache fill is reported failed on the relay (R290, R424): the route to the block's home, or the way back, crosses a link that
has failed, or there is none. -/
def Live.fillFails (b : Boot) (l : Live) (core pa : Nat) : Bool :=
  !l.dev.links.failed.isEmpty && !(l.dev.core core).icache.contains (pa / 64) &&
    (match paHome b pa with
    | none => false
    | some h =>
      let here := nodeEnd (core / 8)
      let there := relayRoute b l here none h.dest (some (h.cluster b))
      let back := relayRoute b l h.dest (some (h.cluster b)) here none
      h.dest != here && (there.isEmpty || back.isEmpty || !(there ++ back).all fun x => linkOk b l x.1 x.2))

/-- The words of a fetch block from a word on. -/
def blockWords (v : BitVec 512) (pos : Nat) : List Code := ((List.range 16).map fun i => v.extractLsb' (32 * i) 32).drop pos

/-- DETAIL of the illegal-instruction trap (R424). -/
def errDetail : DecodeError → Nat
  | .straddle => 1
  | .unassigned => 2
  | .field => 3
  | .zeroOrLength => 4
  | .short => 1

/-- The sort of gang-issued instruction that a word names (R191): 1 for MGANG, 2 for another, 0 for none. -/
def gangWord (w : Code) : Nat :=
  match (majOf w).toNat, (minOf w).toNat with
  | 0x38, 0 => 1
  | 0x38, n => if n ≤ 6 then 2 else 0
  | 0x3D, 0 => 2
  | _, _ => 0

/-- Fetch and decode at a thread's PC: translation, the block, checks 1 to 4 of R63. -/
def Live.fetch (b : Boot) (l : Live) (tid : Nat) : Fetched :=
  let core := tid / 64
  let pc := (l.dev.thread tid).pc
  if wbits pc 63 48 != 0 then .trap l 0x05 0 0
  else match l.translate b core (wbits pc 47 0) 2 0x60 with
    | .miss l => .miss l
    | .fail l cause => .trap l cause 0 0
    | .pa l pa _ =>
      if l.fillFails b core pa then .trap l 0x0B 0 0
      else match l.fetchBlock b core pa with
      | none => .trap l 0x0A 0 0
      | some (l, v) =>
        let pos := wbits pc 5 2
        let ws := blockWords v pos
        match decode pos ws with
        | .ok i => .instr l i
        | .error e => .trap l 0x01 (errDetail e) (if e == .field then gangWord (ws.headD 0) else 0)

/-- The vector unit accepts the next instruction of a thread now (R165). -/
def Live.unitFree (b : Boot) (l : Live) (tid : Nat) : Bool :=
  let r := l.dev.core (tid / 64)
  decide (r.vecFree ≤ r.cycle) || (match l.fetch b tid with
    | .instr _ i => vecCycles i == 0
    | _ => true)

/-- The slot that issues on a core now (R112): the first after the last one that issued, in ascending slot order and cyclically. -/
def Live.nextSlot (b : Boot) (l : Live) (core : Nat) : Option Nat :=
  ((List.range 64).map fun i => ((l.dev.core core).last + 1 + i) % 64).find? fun i => l.dev.eligible (core * 64 + i) && l.unitFree b (core * 64 + i)

/-- A slot is given the issue cycle (R109, R112, R126): a thread whose wake event is past becomes READY, and holds that wait for it wait no more. -/
def Live.beginIssue (l : Live) (tid : Nat) : Live :=
  let core := tid / 64
  let l := match (l.dev.thread tid).st with
    | .parked _ => wakeThread tid l
    | _ => l
  let l := l.map fun d => { d with cur := tid, threads := d.threads.map fun e =>
    if e.1 / 64 == core then (e.1, { e.2 with hold := e.2.hold.map fun h => (serase h.1 (tid % 64), h.2) }) else e }
  l.onCore core fun r => { r with last := tid % 64 }

/-- Owners for whom a core holds or is reserved for a thread (R348). -/
def Live.coreOwners (l : Live) (core : Nat) : List Nat :=
  distinct ((l.dev.threads.filter fun e => e.1 / 64 == core && e.1 % 64 != 63 && e.2.live).map (fun e => e.2.owner) ++
    (l.dev.kernels.filter fun k => (l.boundCores k).contains core).map Kernel.owner)

/-- Cycles of a cluster's clock pass (R117, R348). -/
def Live.passCycles (l : Live) (cluster n : Nat) : Live :=
  let l := l.onCluster cluster fun r => { r with cycle := r.cycle + n }
  (List.range 8).foldl (fun l i => (l.coreOwners (cluster * 8 + i)).foldl (fun l o => l.charge o 0 n) l) l

/-- The issue cycle of a core ends: the time it takes passes, a free choice beyond the cycle itself, and tile writes that are due land
(R26, R112, R166, R348). -/
def Live.endCycle (b : Boot) (l : Live) (core : Nat) : Live :=
  let t := l.dev.tick
  let l := l.map fun d => { d with tick := t + 1 }
  let l := l.onCore core fun r => { r with cycle := r.cycle + 1 }
  let now := (l.dev.core core).cycle
  let l := (l.landTiles core fun w => decide (w.due ≤ now)).startHolds core
  (l.passCycles (core / 8) (1 + Config.cyclesPassed t)).passSlots b (Config.slotsPassed t)

/-- So many cycles of a cluster's clock pass with no issue; none while the clock is stopped (R18). -/
def Live.idleCycles (l : Live) (c n : Nat) : Live :=
  if (l.dev.cluster c).busy then l
  else (List.range 8).foldl (fun l i =>
    let l := l.onCore (c * 8 + i) fun r => { r with cycle := r.cycle + n }
    let now := (l.dev.core (c * 8 + i)).cycle
    (l.landTiles (c * 8 + i) fun w => decide (w.due ≤ now)).startHolds (c * 8 + i)) (l.passCycles c n)

/-- The bank of its own cluster's memory that an instruction needs in its issue cycle (R113, R213): that of a single-word access, or of the first
granule of a tile access, whose home is there. -/
def bankOf (b : Boot) (l : Live) (core : Nat) (i : Instr) : Option Nat :=
  let a := match i with
    | .tld x | .tldv x | .tst x | .tstAon x => some (imageAddr l x)
    | i => memAddress l i
  match a with
  | none => none
  | some a =>
    match wbits a 63 60 with
    | 2 => some (wbits a 9 4)
    | 3 => if wbits a 29 22 == core / 8 then some (wbits a 9 4) else none
    | 0 => match l.translate b core (wbits a 47 0) 0 0 with
      | .pa _ pa _ => if paHome b pa == some (Home.bank (core / 8)) then some (pa / 16 % 64) else none
      | _ => none
    | _ => none

/-- A requester of a cluster asks for a bank now: a core whose next instruction needs it, or the copy unit with an access there (R213). -/
def Live.asksBank (b : Boot) (l : Live) (cluster bank r : Nat) : Bool :=
  if r == 8 then l.dev.reqs.any fun q => q.src == cluster && (match q.kind with
    | .piece _ _ => q.parts.any fun p => !p.done && paHome b p.pa == some (.bank cluster) && p.pa / 16 % 64 == bank
    | _ => false)
  else
    let core := cluster * 8 + r
    decide (r < 8) && match l.nextSlot b core with
      | none => false
      | some s => match l.fetch b (core * 64 + s) with
        | .instr _ i => bankOf b { l with dev := { l.dev with cur := core * 64 + s } } core i == some bank
        | _ => false

/-- The core port of a bank grants one of those that ask: the first after the one it last granted, in the order cores 0 to 7, copy unit (R213). -/
def grantee (ptr : Nat) (ask : List Nat) (me : Nat) : Nat :=
  (((List.range 9).map fun j => (ptr + 1 + j) % 9).find? fun r => ask.contains r).getD me

/-- Arbitration for the bank that an instruction needs (R113, R213): whether it issues, and the bank's pointer after. -/
def Live.arbitrate (b : Boot) (l : Live) (core : Nat) (i : Instr) (rivals : List Nat) : Bool × Live :=
  match bankOf b l core i with
  | none => (true, l)
  | some k =>
    let me := core % 8
    let w := grantee (tget (l.dev.cluster (core / 8)).bankPtr 8 k) (me :: rivals.filter fun r => r != me && l.asksBank b (core / 8) k r) me
    (w == me, l.grantBank (core / 8) k w)

/-- A slot whose instruction lost its bank: the cycle passes unused, the thread stays eligible, and the rotation goes on from it (R113). -/
def Live.lost (l : Live) (tid : Nat) : Live := l.onCore (tid / 64) fun r => { r with last := tid % 64 }

/-- Nothing of an instruction that lost its bank stays but the bank's pointer (R113). -/
def Live.keepBanks (l after : Live) (cluster : Nat) : Live := l.onCluster cluster fun r => { r with bankPtr := (after.dev.cluster cluster).bankPtr }

/-- What follows an instruction's own effect: the issue cycle from which its thread is eligible again after a latency, the vector unit's, and the
owner's energy (R112, R165, R348). -/
def Live.afterInstr (l : Live) (tid : Nat) (i : Instr) (latency : Nat) : Live :=
  let n := (l.dev.core (tid / 64)).cycle
  let t := l.dev.thread tid
  let l := if t.st == .free then l else l.onThread tid fun t => { t with busy := n + latency }
  let l := if vecCycles i = 0 then l else l.onCore (tid / 64) fun r => { r with vecFree := n + vecCycles i }
  l.charge t.owner 8 (Config.energyCharged l.dev.tick)

/-- A state with a new part and the memory changes of a step made. -/
def State.put (s : State) (l : Live) : State := { s with dev := l.dev, mem := s.mem.applyAll l.writes.reverse }

/-- What a step works on at a state. -/
def State.live (s : State) : Live := ⟨s.dev, s.mem, []⟩

/-- The issue cycle passes with no instruction executed. -/
def State.unissued (s : State) (core : Nat) (l : Live) : State := s.put (l.endCycle s.boot core)

/-- The state in which a fetched instruction is executed. -/
def State.issued (s : State) (l : Live) : State := s.put l

/-- The state after an instruction that a slot issued, with its latency. -/
def State.completed (s : State) (tid : Nat) (i : Instr) (latency : Nat) : State :=
  s.put ((s.live.afterInstr tid i latency).endCycle s.boot (tid / 64))

/-- The thread at a fetch that gives no instruction: a miss parks it, a failure traps it. -/
def fetchFailed (b : Boot) (f : Fetched) : Live :=
  match f with
  | .miss l => finish b 1 (parkTlb l (wbits l.th.pc 47 0) 2)
  | .trap l cause detail gang => finish b 1 (.trap (l.onTh fun t => { t with toGang := gang }) cause detail 0)
  | .instr l _ => l

end Sys2Proof.Machine
end

