-- ==== Sys2Proof/Machine/Held.lean ====
section
/-!
DEFINITION. Vector instructions and tile stores that read their rows between issue and completion (R166): such an instruction is held from its
issue on, and has its effect when it completes, on rows as they were at instants in between.
-/

namespace Sys2Proof.Machine

/-- An instruction that may be held: it reads rows of tiles. -/
def holdable (i : Instr) : Bool :=
  vecCycles i != 0 || (match i with
    | .tst _ | .tstAon _ => true
    | _ => false)

/-- The descriptors of a core's tile registers as a thread reads them in its issue cycle (R160, R166). -/
def readDescs (l : Live) : Nat → List Word × Live
  | 0 => ([], l)
  | n + 1 =>
    let r := readDescs l n
    let v := readLate r.2 true n (tget r.2.dev.descs descReset (tileKey r.2.myCore n))
    (r.1 ++ [v.1], v.2)

/-- What a held instruction works on: the descriptors and registers that it read at issue, rows as given, and no write that is still to come. -/
def Held.view (h : Held) (l : Live) (rows : Dev → Dev) : Live :=
  let core := h.tid / 64
  let l := l.onCore core fun r => { r with late := r.late.filter fun e => !e.tile, tileWrites := [], held := [] }
  l.map fun d => { rows (h.regs.zipIdx.foldl (fun d e => { d with regs := tset d.regs 0 (regKey h.tid (d.thread h.tid) (e.2 + 1)) e.1 })
    { d with descs := h.descs.zipIdx.foldl (fun t e => tset t descReset (tileKey core e.2) e.1) d.descs }) with cur := h.tid }

/-- A word of a tile area at one instant since an issue cycle: what it held before some change since, or what it holds (R166). -/
def pastRow (past : List (Nat × Nat × Nat × BitVec 4096)) (since : Nat) (l : Live) (e : Nat × Nat) : Live :=
  let olds := (past.filter fun p => decide (since ≤ p.1) && p.2.1 == e.1 && p.2.2.1 == e.2).map fun p => p.2.2.2
  let c := l.choose (olds.length + 1)
  match olds[c.1]? with
  | some v => c.2.map fun d => d.putTileArea e.1 e.2 v
  | none => c.2

/-- The rows as a held instruction reads them, each at an instant between its issue and now. -/
def Held.rows (h : Held) (l : Live) : Live :=
  let past := (l.dev.core (h.tid / 64)).past
  let keys := (past.filter fun p => decide (h.since ≤ p.1)).foldl (fun acc p => if acc.contains (p.2.1, p.2.2.1) then acc else acc ++ [(p.2.1, p.2.2.1)]) []
  keys.foldl (pastRow past h.since) l

/-- Takes what a held instruction has done on its view into the part: its own tile writes land, and what it did not write is as it was. -/
def Held.settle (h : Held) (l view after : Live) : Live :=
  let core := h.tid / 64
  let ws := (after.dev.core core).tileWrites
  let old := l.dev.thread h.tid
  let new := after.dev.thread h.tid
  let r := l.dev.core core
  let d := { after.dev with
    cur := l.dev.cur
    tiles := l.dev.tiles, scales := l.dev.scales, books := l.dev.books, descs := l.dev.descs, regs := l.dev.regs
    cores := tput after.dev.cores core { after.dev.core core with late := r.late, tileWrites := r.tileWrites, held := r.held, past := r.past }
    threads := tput after.dev.threads h.tid { new with status := old.status ||| new.status, absent := old.absent } }
  let d := (List.range (new.wsize - 1)).foldl (fun d i =>
    if after.dev.getG h.tid (i + 1) == view.dev.getG h.tid (i + 1) then d else d.setG h.tid (i + 1) (after.dev.getG h.tid (i + 1))) d
  { after with dev := ws.foldl (fun d w => d.setTileArea w.area w.key (w.onto (d.tileArea w.area w.key))) d }

/-- The thread of a held instruction still waits for it. -/
def Held.waits (h : Held) (l : Live) : Bool :=
  match (l.dev.thread h.tid).flight with
  | .unit _ => true
  | _ => false

/-- A held instruction completes: it runs on its view. -/
def Held.finish (h : Held) (s : State) : State :=
  let core := h.tid / 64
  let l := s.live.onCore core fun r => { r with held := r.held.filter (· != h), past := if r.held.length ≤ 1 then [] else r.past }
  if !h.waits s.live then s.put l
  else
    let base := l.onThread h.tid fun t => { t with flight := .none }
    let rows := h.rows { base with dev := { base.dev with cores := s.dev.cores } }
    let view := h.view base fun d => { d with tiles := rows.dev.tiles, scales := rows.dev.scales, books := rows.dev.books, tick := rows.dev.tick }
    match exec h.instr (s.put view) with
    | .next t => t.put (h.settle base view t.live)
    | _ => s.put base

/-- The held instructions of a core that have come to their completion complete, in the order of completion. -/
def State.finishHeld (s : State) (core : Nat) : State :=
  let r := s.dev.core core
  (r.held.filter fun h => decide (h.due ≤ r.cycle)).foldl (fun s h => h.finish s) s

/-- Issues an instruction that is held (R166): its checks are made in its issue cycle; one that parks or traps there is not held. -/
def State.issueHeld (s : State) (tid : Nat) (i : Instr) (latency : Nat) (now : Host.Outcome State Fault Refusal) : Host.Outcome State Fault Refusal :=
  let ds := readDescs s.live 16
  let l := ds.2
  let cycle := (l.dev.core (tid / 64)).cycle
  let h : Held := { tid, instr := i, since := cycle, due := cycle + latency, descs := ds.1, regs := l.dev.windowRegs tid (l.dev.thread tid).wsize }
  match exec i (s.put (h.view l id)) with
  | .next t =>
    let u := t.dev.thread tid
    if u.st != .ready || u.pc == (l.dev.thread tid).pc && u.flight == .none then now
    else .next (s.put ((l.onThread tid fun x => { x with flight := .unit x.pc }).onCore (tid / 64) fun r => { r with held := r.held ++ [h] }))
  | _ => now

end Sys2Proof.Machine
end

