-- ==== Sys2Proof/Machine/Step.lean ====
section
/-!
DEFINITION. One step of the machine: the next item of its schedule (assumption 2), or an issue cycle of a core (R112); and how a test
instruction is placed where the next step fetches it.
-/

namespace Sys2Proof.Machine

/-- One of the part's own steps, as against an instruction of a program. -/
def isEvent (i : Instr) : Bool := (encode i).isEmpty

/-- An instruction is executed in the issue cycle it was given, or held from it (R166). -/
def execute (s : State) (tid : Nat) (i : Instr) (latency : Nat) (held : Bool) : Host.Outcome State Fault Refusal :=
  if held && holdable i then s.issueHeld tid i latency (exec i s) else exec i s

/-- A slot issues: its deferred fault, the walker's firmware, or the instruction at its PC, which may lose its bank to a rival (R113). -/
def issueSlot (s : State) (tid : Nat) (rivals : List Nat) (held : Bool) : Host.Outcome State Fault Refusal :=
  let l := s.live.beginIssue tid
  let t := l.dev.thread tid
  match t.deferred with
  | some f => .next (s.unissued (tid / 64) (takeDeferred s.boot l tid f))
  | none =>
    if tid % 64 == 63 && t.pc == Config.walkerEntry then .next (s.unissued (tid / 64) (walkerPass s.boot l))
    else match l.fetch s.boot tid with
      | .instr l i =>
        let a := l.arbitrate s.boot (tid / 64) i rivals
        if !a.1 then .next (s.unissued (tid / 64) ((s.live.keepBanks a.2 (tid / 512)).lost tid))
        else
          let latency := latencyAt s.boot a.2 i
          match execute (s.issued a.2) tid i latency held with
          | .next s' => .next (s'.completed tid i latency)
          | r => r
      | f => .next (s.unissued (tid / 64) (fetchFailed s.boot f))

/-- One issue cycle of a core (R112): none while its cluster's clock is stopped (R18). -/
def issue (s : State) (core : Nat) (rivals : List Nat) (held : Bool) : Host.Outcome State Fault Refusal :=
  if s.dev.stopped.isSome then .fault .packageStopped
  else if (s.dev.cluster (core / 8)).busy || (s.dev.core core).lost then .next (s.put (s.live.passSlots s.boot 1))
  else
    let s := s.finishHeld core
    match s.live.nextSlot s.boot core with
    | none => .next (s.unissued core s.live)
    | some slot => issueSlot s (core * 64 + slot) rivals held

/-- One step. -/
def step (s : State) : Host.Outcome State Fault Refusal :=
  match s.agenda with
  | [] => issue s s.core [] false
  | .event i :: rest => if isEvent i then exec i { s with agenda := rest } else .next { s with agenda := rest }
  | .core c :: rest => issue { s with agenda := rest } c [] false
  | .issue c rivals held :: rest => issue { s with agenda := rest } c rivals held
  | .slots n :: rest => event { s with agenda := rest } fun b l => l.passSlots b n
  | .cycles c n :: rest => event ((List.range 8).foldl (fun s i => s.finishHeld (c * 8 + i)) { s with agenda := rest }) fun _ l => l.idleCycles c n

/-- The capability registers of a whole package with a legal wheel (R23, R33), for a test instruction. -/
def testBoot : Boot :=
  (bootUp { imageOk := true, failedLinks := [], failedChannels := [], hbmRate := 0, whldesc := 0x0000000802008004, log2b := 10, pkg := 0,
            homes := [], trecoRoutes := [], peers := [], fillLimit := false }).1

/-- The thread that runs a test instruction: READY at VA 0 in a window of 128 registers and 16 tile registers. -/
def testThread : Thread :=
  { st := .ready, wbase := 0, wsize := 128, tbase := 0, tsize := 16,
    k0 := BitVec.allOnes 128, k1 := BitVec.allOnes 128, k2 := BitVec.allOnes 128, k3 := BitVec.allOnes 128 }

/-- The page that holds a test instruction: VA 0 to 0xFFFF at HBM4 PA 0, ordinary and writable (R380, R383). -/
def testEntry : TlbEntry := { ctx := 0, page := 0, big := false, pte := 0xD200000000000000 }

/-- An instruction placed where the next step fetches (assumption 3): its bytes at HBM4 PA 0 of a whole package, a READY thread in slot 0 of
core 0 whose page a TLB entry maps, and core 0 next to issue. -/
def State.withFetchWord (s : State) (nbits w : Nat) : State :=
  let mem := [0, 1, 2, 3].foldl (fun (m : Mem) g => m.apply (.poison g false)) s.mem
  let mem := (bytesOfWords (tableWords nbits w)).zipIdx.foldl (fun (m : Mem) e => m.apply (.byte e.2 e.1)) mem
  { s with
    boot := testBoot
    mem
    dev := { s.dev with
      stopped := none
      threads := tput s.dev.threads 0 testThread
      clusters := tput s.dev.clusters 0 { s.dev.cluster 0 with busy := false }
      cores := tput s.dev.cores 0 { s.dev.core 0 with last := 63, ctxnum := 0, tlb := [testEntry], icache := [], code := mem.cells, held := [], lost := false, vecFree := 0 } }
    agenda := []
    core := 0 }

end Sys2Proof.Machine
end

