-- ==== Sys2Proof/Safety.lean ====
section
/-!
DEFINITION. What counts as a safe run, and the invariants that statements about all runs use.
-/

namespace Sys2Proof

open Sys2Proof.Machine

/-- A step is safe when it answers a next state: it neither faults nor is refused. -/
def SafeStep (s : State) : Prop := ∃ t, step s = .next t

/-- So many steps are safe. -/
def SafeRun : Nat → State → Prop
  | 0, _ => True
  | n + 1, s => ∃ t, step s = .next t ∧ SafeRun n t

/-- WHLDESC has VALID set exactly in a part that has booted with it, and its descriptor is then legal (R33, R34). -/
def BootSound (b : Boot) : Prop :=
  (b.whldesc.getLsbD 63 = true ↔ b.status = 1) ∧ (b.status = 1 → wheelLegal b.whldesc = true)

/-- The invariant of every step: memory is in its canonical form and what boot published is consistent (R23, R33, R34). -/
def Inv (s : State) : Prop := s.mem.wf = true ∧ BootSound s.boot

end Sys2Proof
end

