-- ==== Sys2Proof/Certificates/Slice0/Obligations.lean ====
section
/-!
DEFINITION. The statements for the provers, and the words they are said in.
-/

namespace Sys2Proof.Say

open Sys2Proof.Machine

/-- The issuing thread. -/
abbrev thr (s : State) : Thread := s.dev.thread s.dev.cur

/-- G[i] of the issuing thread. -/
abbrev reg (s : State) (i : BitVec 7) : Word := s.dev.getG s.dev.cur i.toNat

/-- The package runs, and the registers named lie in the issuing thread's window and are present (R63, R70, R421). -/
abbrev Ready (s : State) (gs : List (BitVec 7)) : Prop :=
  s.dev.stopped = none ∧ ∀ i ∈ gs, i.toNat < (thr s).wsize ∧ (thr s).lacks i.toNat = false

/-- The same for an extended form: its tile registers lie in the tile window, and its guard is true (R59). -/
abbrev ReadyX (s : State) (x : Ext) (gs ts : List (BitVec 7)) : Prop :=
  Ready s gs ∧ (∀ i ∈ ts, i.toNat < (thr s).tsize) ∧ ((thr s).p x.pg.toNat != x.pn) = true

/-- The issuing thread passes an instruction of so many words. -/
def passed (len : Nat) (s : State) : State :=
  { s with dev := s.dev.setThread s.dev.cur { thr s with pc := (thr s).pc + BitVec.ofNat 64 (4 * len), retries := 0 } }

/-- The issuing thread goes on at another address. -/
def jumped (target : Word) (s : State) : State := { s with dev := s.dev.setThread s.dev.cur { thr s with pc := target } }

/-- G[d] of the issuing thread is written. -/
def withReg (d : BitVec 7) (v : Word) (s : State) : State := { s with dev := s.dev.setG s.dev.cur d.toNat v }

/-- P[d] of the issuing thread is written. -/
def withPred (d : Nat) (v : Bool) (s : State) : State := { s with dev := s.dev.setThread s.dev.cur ((thr s).setP d v) }

/-- Flags of STATUS are set, none cleared (R87). -/
def withFlags (f : Flags) (s : State) : State :=
  { s with dev := s.dev.setThread s.dev.cur { thr s with status := (thr s).status ||| f.setWidth 64 } }

/-- The hidden generator of the issuing thread (R93). -/
def withRng (v : Word) (s : State) : State := { s with dev := s.dev.setThread s.dev.cur { thr s with rng := v } }

/-- An instruction of so many words that writes one register and nothing else. -/
def wrote (s : State) (len : Nat) (d : BitVec 7) (v : Word) : State := passed len (withReg d v s)

/-- Words of an extended form (R49). -/
def words (x : Ext) : Nat := if x.lit.isSome then 5 else 3

/-- The issuing thread has trapped with this cause and DETAIL: FAULTINFO holds both, its PC, registers and memory are as they were, and it
is TRAPPED, or HALTED where the trap has ended its kernel (R313, R414). -/
def Trapped (s t : State) (cause detail : Nat) : Prop :=
  (thr t).faultInfo = BitVec.ofNat 64 (detail * 65536 + cause) ∧ (thr t).pc = (thr s).pc ∧ t.dev.cur = s.dev.cur ∧ t.dev.regs = s.dev.regs ∧
    t.mem = s.mem ∧ ((thr t).st = .trapped ∨ (thr t).st = .halted true)

/-- A thread whose trap takes no gang with it and restarts no walker (R191, R424). -/
abbrev Alone (s : State) : Prop := s.dev.cur % 64 ≠ 63 ∧ (thr s).toGang = 0

/-- A target that R62 lets a branch go to. -/
abbrev Legal (t : Word) : Prop := t.toNat % 64 = 0 ∧ t.toNat < 2 ^ 48

end Sys2Proof.Say

open Sys2Proof Sys2Proof.Machine Sys2Proof.Say

/-- R134: the three-register integer members, with their words: the value is computed from the unsigned and signed readings of the operands,
G[D] is written, and nothing else changes: no flag is set and no trap is raised. -/
def Obligations.ThreeRegisterResults : Prop :=
  ∀ (s : State) (d a b : BitVec 7),
    let A := reg s a
    let B := reg s b
    let n := B.toNat % 64
    let gives := fun (i : Instr) (maj fn : Nat) (v : Word) =>
      encode i = [BitVec.ofNat 32 (maj * 2 ^ 24 + d.toNat * 2 ^ 17 + a.toNat * 2 ^ 10 + b.toNat * 2 ^ 3 + fn)] ∧
      (Ready s [d, a, b] → exec i s = .next (wrote s 1 d v))
    gives (.add d a b) 0x10 0 (BitVec.ofNat 64 (A.toNat + B.toNat)) ∧
    gives (.sub d a b) 0x10 1 (BitVec.ofInt 64 ((A.toNat : Int) - B.toNat)) ∧
    gives (.and d a b) 0x10 2 (A &&& B) ∧ gives (.or d a b) 0x10 3 (A ||| B) ∧ gives (.xor d a b) 0x10 4 (A ^^^ B) ∧
    gives (.andn d a b) 0x10 5 (A &&& ~~~B) ∧
    gives (.min d a b) 0x10 6 (BitVec.ofInt 64 (min A.toInt B.toInt)) ∧ gives (.max d a b) 0x10 7 (BitVec.ofInt 64 (max A.toInt B.toInt)) ∧
    gives (.shl d a b) 0x11 0 (BitVec.ofNat 64 (A.toNat * 2 ^ n)) ∧ gives (.shr d a b) 0x11 1 (BitVec.ofNat 64 (A.toNat / 2 ^ n)) ∧
    gives (.sar d a b) 0x11 2 (BitVec.ofInt 64 (A.toInt / 2 ^ n)) ∧
    gives (.rot d a b) 0x11 3 (if n = 0 then A else (A <<< n) ||| (A >>> (64 - n))) ∧
    gives (.minn d a b) 0x11 4 (BitVec.ofNat 64 (min A.toNat B.toNat)) ∧ gives (.maxn d a b) 0x11 5 (BitVec.ofNat 64 (max A.toNat B.toNat))

/-- R138: the multiply and divide members, with their words: the low or high half of a product; a quotient truncated toward zero, a remainder
with the dividend's sign; a zero divisor raises the division-by-zero trap, cause 0x20, with nothing written. -/
def Obligations.MultiplyAndDivideResults : Prop :=
  ∀ (s : State) (d a b : BitVec 7),
    let A := reg s a
    let B := reg s b
    let word := fun (i : Instr) (fn : Nat) => encode i = [BitVec.ofNat 32 (0x12 * 2 ^ 24 + d.toNat * 2 ^ 17 + a.toNat * 2 ^ 10 + b.toNat * 2 ^ 3 + fn)]
    let gives := fun (i : Instr) (v : Word) => exec i s = .next (wrote s 1 d v)
    let q : Int := if A.toInt * B.toInt < 0 then -((A.toInt.natAbs / B.toInt.natAbs : Nat) : Int) else (A.toInt.natAbs / B.toInt.natAbs : Nat)
    word (.mul d a b) 0 ∧ word (.mulh d a b) 1 ∧ word (.mulhn d a b) 2 ∧ word (.div d a b) 3 ∧ word (.divn d a b) 4 ∧ word (.rem d a b) 5 ∧
    word (.remn d a b) 6 ∧
    (Ready s [d, a, b] →
      gives (.mul d a b) (BitVec.ofInt 64 (A.toInt * B.toInt)) ∧
      gives (.mulh d a b) (BitVec.ofInt 64 (A.toInt * B.toInt / 2 ^ 64)) ∧
      gives (.mulhn d a b) (BitVec.ofNat 64 (A.toNat * B.toNat / 2 ^ 64)) ∧
      (B ≠ 0 → gives (.div d a b) (BitVec.ofInt 64 q) ∧ gives (.rem d a b) (BitVec.ofInt 64 (A.toInt - B.toInt * q)) ∧
        gives (.divn d a b) (BitVec.ofNat 64 (A.toNat / B.toNat)) ∧ gives (.remn d a b) (BitVec.ofNat 64 (A.toNat % B.toNat))) ∧
      (B = 0 → Alone s → ∀ i ∈ [Instr.div d a b, .divn d a b, .rem d a b, .remn d a b], ∃ t, exec i s = .next t ∧ Trapped s t 0x20 0))

/-- R135, R136, R137: the immediate members, MOVL and LEA, each with its one-word and its literal form. -/
def Obligations.ImmediateResults : Prop :=
  ∀ (s : State) (d a : BitVec 7) (imm : BitVec 10) (lit : Word), Ready s [d, a] →
    let A := reg s a
    let v : Word := BitVec.ofInt 64 imm.toInt
    let rot := fun (n : Nat) => if n = 0 then A else (A <<< n) ||| (A >>> (64 - n))
    let gives := fun (i : Instr) (len : Nat) (v : Word) => exec i s = .next (wrote s len d v)
    gives (.addi d a imm) 1 (A + v) ∧ gives (.addiLit d a lit) 3 (A + lit) ∧
    gives (.andi d a imm) 1 (A &&& v) ∧ gives (.andiLit d a lit) 3 (A &&& lit) ∧
    gives (.ori d a imm) 1 (A ||| v) ∧ gives (.oriLit d a lit) 3 (A ||| lit) ∧
    gives (.xori d a imm) 1 (A ^^^ v) ∧ gives (.xoriLit d a lit) 3 (A ^^^ lit) ∧
    gives (.shli d a imm) 1 (BitVec.ofNat 64 (A.toNat * 2 ^ (imm.toNat % 64))) ∧
    gives (.shliLit d a lit) 3 (BitVec.ofNat 64 (A.toNat * 2 ^ (lit.toNat % 64))) ∧
    gives (.shri d a imm) 1 (BitVec.ofNat 64 (A.toNat / 2 ^ (imm.toNat % 64))) ∧
    gives (.shriLit d a lit) 3 (BitVec.ofNat 64 (A.toNat / 2 ^ (lit.toNat % 64))) ∧
    gives (.sari d a imm) 1 (BitVec.ofInt 64 (A.toInt / 2 ^ (imm.toNat % 64))) ∧
    gives (.sariLit d a lit) 3 (BitVec.ofInt 64 (A.toInt / 2 ^ (lit.toNat % 64))) ∧
    gives (.roti d a imm) 1 (rot (imm.toNat % 64)) ∧ gives (.rotiLit d a lit) 3 (rot (lit.toNat % 64)) ∧
    gives (.movl d lit) 3 lit ∧
    gives (.lea d a imm) 1 ((thr s).pc + A + v) ∧ gives (.leaLit d a lit) 3 ((thr s).pc + A + lit)

/-- R139: the bit-count and move members, with their words; a word with a B field that is not zero is refused. -/
def Obligations.BitCountResults : Prop :=
  ∀ (s : State) (d a : BitVec 7),
    let A := reg s a
    let word := fun (i : Instr) (fn : Nat) => encode i = [BitVec.ofNat 32 (0x13 * 2 ^ 24 + d.toNat * 2 ^ 17 + a.toNat * 2 ^ 10 + fn)]
    word (.clz d a) 0 ∧ word (.ctz d a) 1 ∧ word (.popc d a) 2 ∧ word (.brev d a) 3 ∧ word (.mov d a) 4 ∧
    (∀ (b : BitVec 7) (fn : Nat), b ≠ 0 → fn ≤ 4 →
      decode 0 [BitVec.ofNat 32 (0x13 * 2 ^ 24 + d.toNat * 2 ^ 17 + a.toNat * 2 ^ 10 + b.toNat * 2 ^ 3 + fn)] = .error .field) ∧
    (Ready s [d, a] →
      (∃ n ≤ 64, exec (.clz d a) s = .next (wrote s 1 d (BitVec.ofNat 64 n)) ∧ A.toNat < 2 ^ (64 - n) ∧ (n < 64 → 2 ^ (63 - n) ≤ A.toNat)) ∧
      (∃ n ≤ 64, exec (.ctz d a) s = .next (wrote s 1 d (BitVec.ofNat 64 n)) ∧ A.toNat % 2 ^ n = 0 ∧ (n < 64 → A.toNat / 2 ^ n % 2 = 1)) ∧
      exec (.popc d a) s = .next (wrote s 1 d (BitVec.ofNat 64 ((List.range 64).countP fun i => A.getLsbD i))) ∧
      (∃ r : Word, exec (.brev d a) s = .next (wrote s 1 d r) ∧ ∀ i < 64, r.getLsbD i = A.getLsbD (63 - i)) ∧
      exec (.mov d a) s = .next (wrote s 1 d A))

/-- R140: the bit-field members. -/
def Obligations.BitFieldResults : Prop :=
  ∀ (s : State) (x : Ext), ReadyX s x [x.d, x.a] [] → bitFieldOk x.immZ = true →
    let A := reg s x.a
    let D := reg s x.d
    let wid := x.immZ.toNat / 64 % 128
    let pos := x.immZ.toNat % 64
    (∃ r : Word, exec (.ext x) s = .next (wrote s (words x) x.d r) ∧
      ∀ i < 64, r.getLsbD i = A.getLsbD (pos + if i < wid then i else wid - 1)) ∧
    (∃ r : Word, exec (.extn x) s = .next (wrote s (words x) x.d r) ∧ ∀ i < 64, r.getLsbD i = (decide (i < wid) && A.getLsbD (pos + i))) ∧
    (∃ r : Word, exec (.ins x) s = .next (wrote s (words x) x.d r) ∧
      ∀ i < 64, r.getLsbD i = if pos ≤ i ∧ i < pos + wid then A.getLsbD (i - pos) else D.getLsbD i)

/-- R142, R143, R144, R145: compares and predicate members write P[PD] alone (FCMP also NV), and SEL reads its predicate. A write to p0 is
discarded (R56). -/
def Obligations.CompareAndPredicateResults : Prop :=
  (∀ (s : State) (pd : BitVec 3) (cc : BitVec 4) (a b : BitVec 7) (imm : BitVec 10) (lit : Word), Ready s [a, b] → cc.toNat ≤ 11 →
    let holds := fun (A B : Word) => [decide (A = B), decide (A ≠ B), decide (A.toInt < B.toInt), decide (B.toInt ≤ A.toInt), decide (A.toInt ≤ B.toInt),
      decide (B.toInt < A.toInt), decide (A.toNat < B.toNat), decide (B.toNat ≤ A.toNat), decide (A.toNat ≤ B.toNat), decide (B.toNat < A.toNat),
      decide (A &&& B ≠ 0), decide (A &&& B = 0)].getD cc.toNat false
    exec (.cmp pd cc a b) s = .next (passed 1 (withPred pd.toNat (holds (reg s a) (reg s b)) s)) ∧
    exec (.cmpi pd cc a imm) s = .next (passed 1 (withPred pd.toNat (holds (reg s a) (BitVec.ofInt 64 imm.toInt)) s)) ∧
    exec (.cmpiLit pd cc a lit) s = .next (passed 3 (withPred pd.toNat (holds (reg s a) lit) s))) ∧
  (∀ (s : State) (pd : BitVec 3) (cc : BitVec 4) (a b : BitVec 7) (f64 : Bool), Ready s [a, b] → cc.toNat ≤ 7 →
    let f := if f64 then fmt64 else fmt32
    let w := if f64 then 64 else 32
    let X := f.val ((reg s a).toNat % 2 ^ w)
    let Y := f.val ((reg s b).toNat % 2 ^ w)
    let un := X.isNan || Y.isNan
    let r := [!un && X.eqv Y, un || !X.eqv Y, !un && X.lt Y, !un && !X.lt Y, !un && !Y.lt X, !un && Y.lt X, un, !un].getD cc.toNat false
    let nv := if 2 ≤ cc.toNat ∧ cc.toNat ≤ 5 then un else X.signals || Y.signals
    exec (.fcmp pd cc a b f64) s = .next (passed 1 (withPred pd.toNat r (withFlags (if nv then 0x10 else 0) s)))) ∧
  (∀ (s : State) (d a b : BitVec 7), Ready s [] →
    let P := fun (i : BitVec 7) => (thr s).p i.toNat
    exec (.pand d a b) s = .next (passed 1 (withPred d.toNat (P a && P b) s)) ∧
    exec (.por d a b) s = .next (passed 1 (withPred d.toNat (P a || P b) s)) ∧
    exec (.pxor d a b) s = .next (passed 1 (withPred d.toNat (P a != P b) s)) ∧
    exec (.pnot d a) s = .next (passed 1 (withPred d.toNat (!P a) s))) ∧
  (∀ (s : State) (d a b : BitVec 7) (n : BitVec 3), Ready s [d, a, b] →
    exec (.sel d a b n) s = .next (wrote s 1 d (if (thr s).p n.toNat then reg s a else reg s b)))

/-- R149, R150, R151, R152: taken branches with a legal target, branches that are not taken, CALL's link and LOOP's count. -/
def Sys2Proof.Say.BranchesGoWhereTheyAreTold : Prop :=
  ∀ (s : State) (a : BitVec 7) (disp : BitVec 20) (lit : Word) (pg c : BitVec 3) (pn : Bool), Ready s [7, a, c.setWidth 7] → c ≠ 0 →
    let block := (thr s).pc.toNat / 64 * 64
    let T : Word := BitVec.ofInt 64 (block + disp.toInt * 64)
    let taken := (thr s).p pg.toNat != pn
    let link : Word := BitVec.ofNat 64 (block + 64)
    let cr : BitVec 7 := c.setWidth 7
    let n := reg s cr - 1
    (Legal (reg s a) → exec (.bri a) s = .next (jumped (reg s a) s) ∧ exec (.ret a) s = .next (jumped (reg s a) s)) ∧
    (Legal T → exec (.br disp) s = .next (jumped T s) ∧ (taken = true → exec (.brp pg pn disp) s = .next (jumped T s)) ∧
      (taken = true → exec (.call pg pn disp) s = .next (jumped T (withReg 7 link s))) ∧
      (n ≠ 0 → exec (.loop c disp) s = .next (jumped T (withReg cr n s)))) ∧
    (Legal lit → exec (.brLit lit) s = .next (jumped lit s) ∧ (taken = true → exec (.brpLit pg pn lit) s = .next (jumped lit s)) ∧
      (taken = true → exec (.callLit pg pn lit) s = .next (jumped lit (withReg 7 link s))) ∧
      (n ≠ 0 → exec (.loopLit c lit) s = .next (jumped lit (withReg cr n s)))) ∧
    (taken = false → exec (.brp pg pn disp) s = .next (passed 1 s) ∧ exec (.brpLit pg pn lit) s = .next (passed 3 s) ∧
      exec (.call pg pn disp) s = .next (passed 1 s) ∧ exec (.callLit pg pn lit) s = .next (passed 3 s)) ∧
    (n = 0 → exec (.loop c disp) s = .next (wrote s 1 cr 0) ∧ exec (.loopLit c lit) s = .next (wrote s 3 cr 0))

/-- R62, R149, R151: a taken branch to a target with non-zero bits [5:0] traps with cause 0x04, to one with non-zero bits [63:48] and a whole
block address with cause 0x05, before any of its effects. -/
def Sys2Proof.Say.BranchTargetTraps : Prop :=
  ∀ (s : State) (a : BitVec 7) (lit : Word) (pg c : BitVec 3) (pn : Bool), Ready s [7, a, c.setWidth 7] → Alone s → c ≠ 0 →
    ((thr s).p pg.toNat != pn) = true → reg s (c.setWidth 7) ≠ 1 →
    let is := [Instr.brLit lit, .brpLit pg pn lit, .callLit pg pn lit, .loopLit c lit]
    (lit.toNat % 64 ≠ 0 → ∀ i ∈ is, ∃ t, exec i s = .next t ∧ Trapped s t 0x04 0) ∧
    (lit.toNat % 64 = 0 → 2 ^ 48 ≤ lit.toNat → ∀ i ∈ is, ∃ t, exec i s = .next t ∧ Trapped s t 0x05 0) ∧
    ((reg s a).toNat % 64 ≠ 0 → ∀ i ∈ [Instr.bri a, .ret a], ∃ t, exec i s = .next t ∧ Trapped s t 0x04 0) ∧
    ((reg s a).toNat % 64 = 0 → 2 ^ 48 ≤ (reg s a).toNat → ∀ i ∈ [Instr.bri a, .ret a], ∃ t, exec i s = .next t ∧ Trapped s t 0x05 0)

/-- R149 to R152, R62: branches: where taken ones go, what is linked and counted, and the traps of illegal targets. -/
def Obligations.BranchResults : Prop := BranchesGoWhereTheyAreTold ∧ BranchTargetTraps

/-- R146, R147, R148, R90, R94: scalar floating point: the exact result of the values of its operands, rounded once in the mode that RM or
FPMODE selects, with at most one draw of the generator; FMIN, FMAX and FCLASS do not round. -/
def Sys2Proof.Say.ScalarFloatingPointResults : Prop :=
  ∀ (s : State) (x : Ext), ReadyX s x [x.d, x.a, x.b, x.c] [] →
    let m := resolveMode x.rm.toNat (thr s).fpmode.toNat
    let code := x.dfmt.toNat
    let V := fun (i : BitVec 7) => valOf code ((reg s i).toNat % 2 ^ fmtBits code)
    let rounded := fun (sat : Bool) (v : Val × Flags) =>
      let r := roundDraw code sat m.1 (thr s).rng v.1
      passed (words x) (withReg x.d (extendFmt code r.1) (withFlags (v.2 ||| r.2.1 ||| m.2) (withRng r.2.2 s)))
    let chosen := fun (wantMax : Bool) =>
      let r := minMaxFp (fpFmt code) wantMax ((reg s x.a).toNat % 2 ^ fmtBits code) ((reg s x.b).toNat % 2 ^ fmtBits code)
      passed (words x) (withReg x.d (BitVec.ofNat 64 r.1) (withFlags r.2 s))
    let src := valOf x.sfmt.toNat ((reg s x.a).toNat % 2 ^ fmtBits x.sfmt.toNat)
    exec (.fadd x) s = .next (rounded false (exactSum m.1 [V x.a, V x.b])) ∧
    exec (.fsub x) s = .next (rounded false (exactSum m.1 [V x.a, (V x.b).negate])) ∧
    exec (.fmul x) s = .next (rounded false (valMul (V x.a) (V x.b))) ∧
    exec (.fdiv x) s = .next (rounded false (valDiv (V x.a) (V x.b))) ∧
    exec (.fsqrt x) s = .next (rounded false (valSqrt (V x.a))) ∧
    exec (.ffma x) s = .next (rounded false
      ((exactSum m.1 [(valMul (V x.a) (V x.b)).1, V x.c]).1, (valMul (V x.a) (V x.b)).2 ||| (exactSum m.1 [(valMul (V x.a) (V x.b)).1, V x.c]).2)) ∧
    exec (.fmin x) s = .next (chosen false) ∧ exec (.fmax x) s = .next (chosen true) ∧
    exec (.fcvt x) s = .next (rounded (x.sat && x.sfmt != x.dfmt) (src, if src.signals then 0x10 else 0)) ∧
    (∃ n ≤ 9, exec (.fclass x) s = .next (wrote s (words x) x.d (1#64 <<< n)))

/-- R80, R91: a number that a format holds is rounded to itself with no flag, in every mode and whatever is drawn. -/
def Sys2Proof.Say.RepresentableValuesRoundToThemselves : Prop :=
  ∀ (code : Nat) (sat : Bool) (mode : Mode) (r e : Nat), 8 ≤ code → code ≤ 13 → r < 2 ^ 32 → e < 2 ^ fmtBits code →
    ((fpFmt code).val e).nonFinite = false → roundFp (fpFmt code) sat mode r ((fpFmt code).val e) = (e, 0)

/-- R94, R93: a rounding draws once under .rsr and never otherwise, and a draw moves the generator by its constant. -/
def Sys2Proof.Say.OneDrawPerStochasticRounding : Prop :=
  ∀ (code : Nat) (sat : Bool) (mode : Mode) (g : Word) (v : Val),
    (roundDraw code sat mode g v).2.2 = (if mode = .rsr then g + 0x9E3779B97F4A7C15 else g)

/-- R80, R90, R91, R93, R94, R146 to R148: scalar floating point: the results, that a number a format holds rounds to itself, and that a
rounding draws once under .rsr and never otherwise. -/
def Obligations.ScalarFloatingPointRoundsOnce : Prop := ScalarFloatingPointResults ∧ RepresentableValuesRoundToThemselves ∧ OneDrawPerStochasticRounding

/-- R63, R70, R115: a three-register member that names a register outside its window traps with cause 0x03; one that names a register whose
presence bit is clear parks with reason PRESENCE; either changes no register and no memory. -/
def Obligations.OperandChecks : Prop :=
  ∀ (s : State) (d a b : BitVec 7), s.dev.stopped = none → Alone s →
    ∀ i ∈ [Instr.add d a b, .sub d a b, .and d a b, .mul d a b, .shl d a b, .max d a b, .div d a b],
      ((∃ r ∈ [d, a, b], (thr s).wsize ≤ r.toNat) → ∃ t, exec i s = .next t ∧ Trapped s t 0x03 0) ∧
      ((∀ r ∈ [d, a, b], r.toNat < (thr s).wsize) → (∃ r ∈ [d, a, b], (thr s).lacks r.toNat = true) →
        ∃ r ∈ [d, a, b], (thr s).lacks r.toNat = true ∧
          exec i s = .next { s with dev := s.dev.setThread s.dev.cur { thr s with st := .parked (.presence r.toNat) } })

/-- R79, R126, R154: NOP passes; FENCE and FENCE.RED pass once the accesses they wait for are performed and change nothing else, and park with
reason ORDER before; YIELD passes, and from its completion, six issue cycles on, its thread waits for the other READY threads of its core to issue
once, for at most 64 issue cycles. -/
def Obligations.FenceYieldAndNop : Prop :=
  ∀ (s : State), Ready s [] →
    let me := s.dev.cur
    let now := (s.dev.core (me / 64)).cycle
    let parked := fun (w : OrderWait) => { s with dev := s.dev.setThread me { thr s with st := .parked (.order w) } }
    exec .nop s = .next (passed 1 s) ∧
    (s.dev.pendingAccess me = false → exec .fence s = .next (passed 1 s)) ∧
    (s.dev.pendingAccess me = true → exec .fence s = .next (parked .accesses)) ∧
    (s.dev.pendingAccess me = false → s.dev.redOut me = 0 → exec .fenceRed s = .next (passed 1 s)) ∧
    (s.dev.pendingAccess me = true ∨ s.dev.redOut me ≠ 0 → exec .fenceRed s = .next (parked .all)) ∧
    exec .yield s = .next (passed 1 { s with dev := s.dev.setThread me { thr s with yieldAt := some (now + 6), hold := none } }) ∧
    (∀ n, (thr s).yieldAt = some n → n ≤ now →
      let u := (s.live.startHolds (me / 64)).dev.thread me
      u.yieldAt = none ∧ u.hold = if s.dev.othersReady me = [] then none else some (s.dev.othersReady me, now + 64))

/-- R153, R313, R414, R417: TRAP and BRK take the software and the breakpoint trap with their code as DETAIL; under a policy that keeps the
kernel the thread is TRAPPED and would resume at the next instruction, and a record with its PC goes to its context's collector. -/
def Sys2Proof.Say.TrapAndBreakpointAreTaken : Prop :=
  ∀ (s : State) (code : BitVec 16), Ready s [] → Alone s →
    (∀ k, s.dev.kernel? (thr s).ctx (thr s).knum = some k → k.fpol % 4 ≠ 0) →
    ∀ p ∈ [(Instr.trap code, 6), (Instr.brk code, 7)], ∃ t, exec p.1 s = .next t ∧ Trapped s t p.2 code.toNat ∧ (thr t).st = .trapped ∧
      (thr t).resumeAt = some ((thr s).pc + 4) ∧ (thr t).status = (thr s).status ∧ (thr t).preds = (thr s).preds ∧
      ∃ r, (t.dev.collector (thr s).ctx).queue = (s.dev.collector (thr s).ctx).queue ++ [r] ∧ r.cause = p.2 ∧ r.detail = code.toNat ∧
        r.pc = (thr s).pc ∧ r.phys = s.dev.cur ∧ r.ctx = (thr s).ctx ∧ r.knum = (thr s).knum

/-- R414, R417: taking a trap from any instruction: FAULTINFO, the saved PC, the record, the thread's state; no register, predicate, flag,
memory byte or other thread outside its kernel changes. -/
def Sys2Proof.Say.TakingATrap : Prop :=
  ∀ (b : Boot) (l : Live) (tid cause detail src flags : Nat) (pc addr handle : Word) (resume : Option Word),
    tid % 64 ≠ 63 → (l.dev.thread tid).toGang = 0 → cause < 256 → detail < 65536 →
    let t := l.dev.thread tid
    let m := takeTrap b tid cause detail src flags pc addr handle resume l
    (m.dev.thread tid).faultInfo = BitVec.ofNat 64 (detail * 65536 + cause) ∧ (m.dev.thread tid).pc = t.pc ∧
    (m.dev.thread tid).resumeAt = resume ∧ (m.dev.thread tid).status = t.status ∧ (m.dev.thread tid).preds = t.preds ∧
    m.dev.regs = l.dev.regs ∧ m.mem = l.mem ∧ m.writes = l.writes ∧
    (∃ r, (m.dev.collector t.ctx).queue = (l.dev.collector t.ctx).queue ++ [r] ∧ r.cause = cause ∧ r.detail = detail ∧ r.pc = pc ∧
      r.addr = addr ∧ r.handle = handle ∧ r.src = src ∧ r.phys = tid ∧ r.lc = t.lcore ∧ r.lt = t.lthread ∧ r.owner = t.owner) ∧
    (∀ x, x ≠ tid → (l.dev.thread x).of t.ctx t.knum = false → m.dev.thread x = l.dev.thread x) ∧
    ((∀ k, l.dev.kernel? t.ctx t.knum = some k → k.fpol % 4 ≠ 0) → (m.dev.thread tid).st = .trapped)

/-- R153, R313, R414, R417: TRAP and BRK, and the taking of a trap by any instruction. -/
def Obligations.TrapsAreTaken : Prop := TrapAndBreakpointAreTaken ∧ TakingATrap

/-- R109, R313: a TRAPPED thread that is resumed is READY at the instruction its trap recorded, else at the trapping one; another is unchanged. -/
def Sys2Proof.Say.ReturningFromATrap : Prop :=
  ∀ (l : Live) (tid : Nat),
    let t := l.dev.thread tid
    let m := resumeThread tid l
    (t.st = .trapped → (m.dev.thread tid).st = .ready ∧ (m.dev.thread tid).pc = (match t.resumeAt with | some p => p | none => t.pc) ∧
      (m.dev.thread tid).resumeAt = none ∧ (m.dev.thread tid).status = t.status ∧ (m.dev.thread tid).faultInfo = t.faultInfo) ∧
    (t.st ≠ .trapped → m.dev.thread tid = t) ∧ m.dev.regs = l.dev.regs ∧ m.mem = l.mem ∧ ∀ x, x ≠ tid → m.dev.thread x = l.dev.thread x

/-- R125, R190: EXIT of a thread that is in no gang, with every access performed, no reduction outstanding and no join registration, frees its
slot; a gang thread's EXIT traps with cause 0x27. -/
def Sys2Proof.Say.ExitFreesTheSlot : Prop :=
  ∀ (s : State), Ready s [] →
    (Alone s → s.dev.gangOf s.dev.cur = none → (thr s).landing = false → s.dev.pendingAccess s.dev.cur = false → s.dev.redOut s.dev.cur = 0 →
      (thr s).join = none → ∃ t, exec .exit s = .next t ∧ (t.dev.thread s.dev.cur).st = .free ∧ t.dev.regs = s.dev.regs ∧ t.mem = s.mem ∧
        ∀ x, x ≠ s.dev.cur → t.dev.thread x = s.dev.thread x) ∧
    (Alone s → (s.dev.gangOf s.dev.cur).isSome = true → ∃ t, exec .exit s = .next t ∧ Trapped s t 0x27 0)

/-- R109, R125, R190, R313: a resumed thread, and EXIT. -/
def Obligations.ReturnFromATrapAndExit : Prop := ReturningFromATrap ∧ ExitFreesTheSlot

/-- R117 to R122, R333, R382: MFS gives each system register's fields. -/
def Sys2Proof.Say.SystemRegisterReads : Prop :=
  ∀ (s : State) (d : BitVec 7), Ready s [d] →
    let t := thr s
    let c := s.dev.core (s.dev.cur / 64)
    let reads := fun (n : Nat) (v : Word) => exec (.mfs d (BitVec.ofNat 12 n)) s = .next (wrote s 1 d v)
    reads 0x000 (BitVec.ofNat 64 s.dev.cur) ∧ reads 0x001 (BitVec.ofNat 64 (t.lthread % 2 ^ 16)) ∧
    reads 0x002 (BitVec.ofNat 64 (t.ncore * 2 ^ 16 + t.lcore)) ∧ reads 0x003 (BitVec.ofNat 64 (t.lclu * 2 ^ 32 + s.dev.cur / 512)) ∧
    reads 0x004 (BitVec.ofNat 64 (t.lstk * 2 ^ 32 + stackOf (s.dev.cur / 512))) ∧
    reads 0x005 (BitVec.ofNat 64 (s.boot.pkg * 2 ^ 16 + s.boot.whldesc.toNat / 2 ^ 42 % 2 ^ 16)) ∧
    reads 0x006 (BitVec.ofNat 64 (t.owner * 2 ^ 32 + t.knum)) ∧ reads 0x007 t.jobseed ∧
    (∃ v, reads 0x008 v ∧ v.getLsbD 23 = decide (s.dev.cur % 64 = 63) ∧ ∀ k ∈ [0, 1, 2, 3, 4, 5, 6, 7, 20, 21], v.getLsbD k = t.status.getLsbD k) ∧
    reads 0x009 (t.fpmode.setWidth 64) ∧ reads 0x00A (BitVec.ofNat 64 (t.wsize * 2 ^ 16 + t.wbase)) ∧
    reads 0x00B (BitVec.ofNat 64 (t.tsize * 2 ^ 8 + t.tbase)) ∧ reads 0x00C (BitVec.ofNat 64 (s.dev.cluster (s.dev.cur / 512)).cycle) ∧
    reads 0x00D (BitVec.ofNat 64 (s.dev.slots / s.boot.wheel)) ∧ reads 0x00E (BitVec.ofNat 64 (s.dev.slots % s.boot.wheel)) ∧
    reads 0x00F t.faultInfo ∧
    (s.dev.cur % 64 = 63 → reads 0x802 c.ptroot ∧ reads 0x803 c.ctxnum ∧ reads 0x804 c.cmwin)

/-- R118, R121, R122, R333, R382: MTS changes the RW fields of its register and nothing else. -/
def Sys2Proof.Say.SystemRegisterWrites : Prop :=
  ∀ (s : State) (d : BitVec 7), Ready s [d] →
    let v := reg s d
    let mts := fun (n : Nat) => Instr.mts d (BitVec.ofNat 12 n)
    let thread := fun (t : Thread) => passed 1 { s with dev := s.dev.setThread s.dev.cur t }
    let core := fun (c : CoreRec) => passed 1 { s with dev := { s.dev with cores := tput s.dev.cores (s.dev.cur / 64) c } }
    let c := s.dev.core (s.dev.cur / 64)
    exec (mts 0x008) s = .next (thread { thr s with status := v &&& 0x3000FF }) ∧
    exec (mts 0x009) s = .next (thread { thr s with fpmode := v.setWidth 3 }) ∧
    exec (mts 0x00F) s = .next (thread { thr s with faultInfo := v &&& 0xFFFF00FF }) ∧
    (s.dev.cur % 64 = 63 →
      exec (mts 0x802) s = .next (core { c with ptroot := (v &&& 0xFFFFFFFFFC000) ||| (c.ptroot &&& ~~~0xFFFFFFFFFC000) }) ∧
      exec (mts 0x803) s = .next (core { c with ctxnum := (v &&& 0xFFFF) ||| (c.ctxnum &&& ~~~0xFFFF) }) ∧
      exec (mts 0x804) s = .next (core { c with cmwin := (v &&& 0x3F7F) ||| (c.cmwin &&& ~~~0x3F7F) }))

/-- R122: a privileged number used by an unprivileged thread raises the privilege trap, cause 0x02, an unassigned one the illegal-instruction
trap with DETAIL 2, and a write of a register with no RW field the illegal-instruction trap with DETAIL 3: no system register changes. -/
def Sys2Proof.Say.SystemRegisterTraps : Prop :=
  ∀ (s : State) (d : BitVec 7) (n : BitVec 12), s.dev.stopped = none → Alone s →
    let same := fun (t : State) => (t.dev.core (s.dev.cur / 64)).ptroot = (s.dev.core (s.dev.cur / 64)).ptroot ∧
      (t.dev.core (s.dev.cur / 64)).ctxnum = (s.dev.core (s.dev.cur / 64)).ctxnum ∧
      (t.dev.core (s.dev.cur / 64)).cmwin = (s.dev.core (s.dev.cur / 64)).cmwin
    (0x800 ≤ n.toNat → n.toNat ≤ 0x804 →
      (∃ t, exec (.mfs d n) s = .next t ∧ Trapped s t 0x02 0) ∧ ∃ t, exec (.mts d n) s = .next t ∧ Trapped s t 0x02 0 ∧ same t) ∧
    (0x00F < n.toNat → (n.toNat < 0x800 ∨ 0x804 < n.toNat) →
      (∃ t, exec (.mfs d n) s = .next t ∧ Trapped s t 0x01 2) ∧ ∃ t, exec (.mts d n) s = .next t ∧ Trapped s t 0x01 2) ∧
    (n.toNat ≤ 0x00E → n.toNat ≠ 0x008 → n.toNat ≠ 0x009 → ∃ t, exec (.mts d n) s = .next t ∧ Trapped s t 0x01 3)

/-- R114, R141: MOV to a core-shared register writes it for the writer and records the old value for the others; MOV from one reads the newest
value where no other thread's write is still late. -/
def Sys2Proof.Say.CoreSharedRegisters : Prop :=
  ∀ (s : State) (g : BitVec 7) (c : BitVec 4), Ready s [g] →
    let core := s.dev.cur / 64
    let k := core * 16 + c.toNat
    let now := tget s.dev.cregs 0 k
    (∃ t, exec (.movToC g c) s = .next t ∧ tget t.dev.cregs 0 k = reg s g ∧ (∀ j, j ≠ k → tget t.dev.cregs 0 j = tget s.dev.cregs 0 j) ∧
      (∃ e ∈ (t.dev.core core).late, e.slot = s.dev.cur % 64 ∧ e.tile = false ∧ e.idx = c.toNat ∧ e.old = now ∧
        e.until_ = (s.dev.core core).cycle + 6) ∧
      t.dev.regs = s.dev.regs ∧ t.mem = s.mem ∧ (thr t).pc = (thr s).pc + 4) ∧
    ((∀ e ∈ (s.dev.core core).late, e.tile = false → e.idx = c.toNat → e.slot = s.dev.cur % 64 ∨ e.until_ ≤ (s.dev.core core).cycle) →
      exec (.movFromC g c) s = .next (wrote s 1 g now)) ∧
    (∃ v t, exec (.movFromC g c) s = .next t ∧ t.dev.getG s.dev.cur g.toNat = (if g = 0 then 0 else v) ∧ t.dev.cregs = s.dev.cregs ∧
      (v = now ∨ ∃ e ∈ (s.dev.core core).late, e.tile = false ∧ e.idx = c.toNat ∧ v = e.old))

/-- R122, R141: MFS of an assigned register and MTS of one with RW fields complete, the privileged ones in the walker's slot; MOV to and from a core-shared
register completes in every thread. -/
def Sys2Proof.Say.SystemAndCoreSharedInstructionsComplete : Prop :=
  (∀ (s : State) (d : BitVec 7) (n : BitVec 12), Ready s [d] →
    (n.toNat ≤ 0x00F ∨ (0x800 ≤ n.toNat ∧ n.toNat ≤ 0x804 ∧ s.dev.cur % 64 = 63)) →
    ∃ v, exec (.mfs d n) s = .next (wrote s 1 d v)) ∧
  (∀ (s : State) (d : BitVec 7) (n : BitVec 12), Ready s [d] →
    (n.toNat ∈ [0x008, 0x009, 0x00F] ∨ (n.toNat ∈ [0x802, 0x803, 0x804] ∧ s.dev.cur % 64 = 63)) →
    ∃ t, exec (.mts d n) s = .next t ∧ (thr t).pc = (thr s).pc + 4 ∧ t.dev.regs = s.dev.regs ∧ t.dev.cregs = s.dev.cregs ∧ t.mem = s.mem) ∧
  (∀ (s : State) (a : BitVec 7) (c : BitVec 4), Ready s [a] →
    ∃ t, exec (.movToC a c) s = .next t ∧ tget t.dev.cregs 0 (s.dev.cur / 64 * 16 + c.toNat) = reg s a ∧ (thr t).pc = (thr s).pc + 4 ∧
      t.dev.regs = s.dev.regs ∧ t.mem = s.mem) ∧
  (∀ (s : State) (d : BitVec 7) (c : BitVec 4), Ready s [d] →
    ∃ v t, exec (.movFromC d c) s = .next t ∧ t.dev.getG s.dev.cur d.toNat = (if d = 0 then 0 else v) ∧ (thr t).pc = (thr s).pc + 4 ∧
      t.dev.cregs = s.dev.cregs ∧ t.mem = s.mem)

/-- R114, R117 to R122, R141, R333, R382: MFS, MTS and MOV to and from a core-shared register complete; what MFS reads, what MTS writes and where they
trap, and what the core-shared registers hold. -/
def Obligations.SystemRegisterAndCoreSharedAccesses : Prop :=
  SystemAndCoreSharedInstructionsComplete ∧ SystemRegisterReads ∧ SystemRegisterWrites ∧ SystemRegisterTraps ∧ CoreSharedRegisters

namespace Sys2Proof.Say

open Sys2Proof.Machine

/-- The physical address of an address on path 0x2: an offset in the memory of the issuing thread's cluster (R209, R211). -/
abbrev place (s : State) (a : Word) : Nat := 2 * 2 ^ 48 + s.dev.cur / 512 * 2 ^ 22 + a.toNat % 2 ^ 22

/-- An access of n bytes on path 0x2 that is aligned and in the core's window (R209, R214, R224). -/
abbrev Near (s : State) (a : Word) (n : Nat) : Prop :=
  a.toNat / 2 ^ 60 = 2 ∧ a.toNat % 2 ^ 60 < 2 ^ 22 ∧ a.toNat % n = 0 ∧ inWindow (s.dev.core (s.dev.cur / 64)).cmwin (a.toNat % 2 ^ 22) = true

/-- Such an access, free of poison and behind no other access of its thread (R217, R220). -/
abbrev Own (s : State) (a : Word) (n : Nat) : Prop :=
  Near s a n ∧ s.mem.anyPoison (place s a) n = false ∧ s.dev.pendingAccess s.dev.cur = false ∧ (thr s).live = true

/-- The relay service takes a message of the issuing thread to an end now: there is a credit, and no rekey holds it (R40, R341). -/
abbrev CanSend (s : State) (dest : Dest) (home : Option Nat) : Prop :=
  let l : Live := ⟨s.dev, s.mem, []⟩
  l.sendBlocked (s.dev.ctxOf s.dev.cur) dest (relayRoute s.boot l (nodeEnd (s.dev.cur / 512)) none dest home) = none

/-- The issuing thread has sent a request to a unit and waits for its reply; nothing else of it, no register and no memory has changed
(R39, R70). -/
def Asks (s t : State) (kind : ReqKind) (dest : Dest) (len : Nat) : Prop :=
  ∃ r, t.dev.reqs = s.dev.reqs ++ [r] ∧ r.id = s.dev.fresh ∧ r.kind = kind ∧ r.tid = s.dev.cur ∧ r.dest = dest ∧ r.stage = .going ∧
    (∃ m, t.dev.msgs = s.dev.msgs ++ [m] ∧ m.req = r.id ∧ m.back = false ∧ m.dest = dest) ∧ t.mem = s.mem ∧ t.dev.regs = s.dev.regs ∧
    thr t = { thr s with flight := .request r.id ((thr s).pc + BitVec.ofNat 64 (4 * len)) }

/-- No byte outside n bytes from pa changes. -/
def SameOutside (m m' : Mem) (pa n : Nat) : Prop := ∀ x, x < pa ∨ pa + n ≤ x → m'.byteAt x = m.byteAt x

/-- The states and the poison of every granule are as they were. -/
def SameGranules (m m' : Mem) : Prop := ∀ g, m'.isFull g = m.isFull g ∧ m'.isPoisoned g = m.isPoisoned g

/-- A value of a format code extended to a register (R132, R227). -/
def extended (code x : Nat) : Word :=
  if code < 4 then (BitVec.ofNat (fmtBits code) x).signExtend 64 else (BitVec.ofNat (fmtBits code) x).setWidth 64

/-- The byte offset of an extended form: the literal, or IMM19 sign-extended (R225). -/
def offsetOf (x : Ext) : Word :=
  match x.lit with
  | some v => v
  | none => x.imm.signExtend 64

/-- The byte offset of an atomic: the literal, or the low 17 bits of IMM19 sign-extended (R227). -/
def atomicOffset (x : Ext) : Word :=
  match x.lit with
  | some v => v
  | none => (x.imm.setWidth 17).signExtend 64

/-- ORD of an atomic: 0 with a literal (R227). -/
def atomicOrd (x : Ext) : Nat := if x.lit.isSome then 0 else x.imm.toNat / 2 ^ 17

end Sys2Proof.Say

/-- R220, R224: a plain load on path 0x2 that Own describes completes with the bytes of memory, sign- or zero-extended, and changes no memory
and no state but its destination. -/
def Sys2Proof.Say.PlainLoadResults : Prop :=
  ∀ (s : State) (d a : BitVec 7) (off : BitVec 8) (lit : Word), Ready s [d, a] →
    let at_ := fun (n : Nat) => reg s a + BitVec.ofInt 64 (off.toInt * n)
    let bytes := fun (p : Word) (n : Nat) => s.mem.read (place s p) n
    let loads := fun (i j : Instr) (n : Nat) (v : Nat → Word) =>
      (Own s (at_ n) n → exec i s = .next (wrote s 1 d (v (bytes (at_ n) n)))) ∧
      (Own s (reg s a + lit) n → exec j s = .next (wrote s 3 d (v (bytes (reg s a + lit) n))))
    loads (.ldI8 d a 0 off) (.ldI8Lit d a 0 lit) 1 (fun v => (BitVec.ofNat 8 v).signExtend 64) ∧
    loads (.ldN8 d a 0 off) (.ldN8Lit d a 0 lit) 1 (BitVec.ofNat 64) ∧
    loads (.ldI16 d a 0 off) (.ldI16Lit d a 0 lit) 2 (fun v => (BitVec.ofNat 16 v).signExtend 64) ∧
    loads (.ldN16 d a 0 off) (.ldN16Lit d a 0 lit) 2 (BitVec.ofNat 64) ∧
    loads (.ldI32 d a 0 off) (.ldI32Lit d a 0 lit) 4 (fun v => (BitVec.ofNat 32 v).signExtend 64) ∧
    loads (.ldN32 d a 0 off) (.ldN32Lit d a 0 lit) 4 (BitVec.ofNat 64) ∧
    loads (.ld64 d a 0 off) (.ld64Lit d a 0 lit) 8 (BitVec.ofNat 64) ∧
    (d.toNat % 2 = 0 → Ready s [d, d + 1, a] →
      let pair := fun (len : Nat) (p : Word) =>
        passed len (withReg (d + 1) (BitVec.ofNat 64 (bytes p 16 / 2 ^ 64)) (withReg d (BitVec.ofNat 64 (bytes p 16)) s))
      (Own s (at_ 16) 16 → exec (.ld128 d a 0 off) s = .next (pair 1 (at_ 16))) ∧
      (Own s (reg s a + lit) 16 → exec (.ld128Lit d a 0 lit) s = .next (pair 3 (reg s a + lit))))

/-- R220, R224: a plain store on path 0x2 that Own describes puts the low bytes of its register into memory, little-endian, at the address its
operands give: every other byte, every granule's state and every register stay. -/
def Sys2Proof.Say.PlainStoreResults : Prop :=
  ∀ (s : State) (d a : BitVec 7) (off : BitVec 8) (lit : Word), Ready s [d, a] →
    let at_ := fun (n : Nat) => reg s a + BitVec.ofInt 64 (off.toInt * n)
    let stores := fun (i : Instr) (len : Nat) (p : Word) (n : Nat) (v : Nat) => Own s p n → ∃ t, exec i s = .next t ∧
      t.dev = (passed len s).dev ∧ t.mem.read (place s p) n = v % 256 ^ n ∧ SameOutside s.mem t.mem (place s p) n ∧ SameGranules s.mem t.mem
    let v := (reg s d).toNat
    stores (.st8 d a 0 off) 1 (at_ 1) 1 v ∧ stores (.st8Lit d a 0 lit) 3 (reg s a + lit) 1 v ∧
    stores (.st16 d a 0 off) 1 (at_ 2) 2 v ∧ stores (.st16Lit d a 0 lit) 3 (reg s a + lit) 2 v ∧
    stores (.st32 d a 0 off) 1 (at_ 4) 4 v ∧ stores (.st32Lit d a 0 lit) 3 (reg s a + lit) 4 v ∧
    stores (.st64 d a 0 off) 1 (at_ 8) 8 v ∧ stores (.st64Lit d a 0 lit) 3 (reg s a + lit) 8 v ∧
    (Ready s [d, d + 1, a] → stores (.st128 d a 0 off) 1 (at_ 16) 16 (v + (reg s (d + 1)).toNat * 2 ^ 64) ∧
      stores (.st128Lit d a 0 lit) 3 (reg s a + lit) 16 (v + (reg s (d + 1)).toNat * 2 ^ 64))

/-- R209, R214, R215, R217, R220, R224: plain loads and stores on path 0x2. -/
def Obligations.PlainLoadsAndStores : Prop := PlainLoadResults ∧ PlainStoreResults

/-- R227: a plain atomic on path 0x2 that Own describes reads the old value, writes the new one and gives the old one, in one step; it changes
no granule's state. -/
def Obligations.AtomicResults : Prop :=
  ∀ (s : State) (x : Ext), ReadyX s x [x.d, x.a, x.b, x.c] [] → atomicOrd x = 0 →
    let w := fmtBits x.dfmt.toNat
    let n := w / 8
    let p := reg s x.a + atomicOffset x
    let old := s.mem.read (place s p) n
    let b := (reg s x.b).toNat % 2 ^ w
    let c := (reg s x.c).toNat % 2 ^ w
    let S := fun (y : Nat) => (BitVec.ofNat w y).toInt
    let gives := fun (i : Instr) (new : Nat) (out : Word) (f : Flags) => ∃ t, exec i s = .next t ∧
      t.dev = (passed (words x) (withFlags f (withReg x.d out s))).dev ∧ t.mem.read (place s p) n = new ∧
      SameOutside s.mem t.mem (place s p) n ∧ SameGranules s.mem t.mem
    let is := fun (i : Instr) (new : Nat) => gives i new (extended x.dfmt.toNat old) 0
    Own s p n →
    (x.dfmt.toNat ∈ [2, 3, 6, 7] →
      is (.aadd x) ((old + b) % 2 ^ w) ∧ is (.aand x) (old &&& b) ∧ is (.aor x) (old ||| b) ∧ is (.axor x) (old ^^^ b) ∧
      is (.amin x) (if S old < S b then old else b) ∧ is (.amax x) (if S old < S b then b else old) ∧
      is (.aminn x) (min old b) ∧ is (.amaxn x) (max old b) ∧ is (.axchg x) b ∧ is (.acas x) (if old = b then c else old)) ∧
    (x.dfmt.toNat ∈ [8, 9] →
      let f := fpFmt x.dfmt.toNat
      let sum := exactSum .rne [f.val old, f.val b]
      let r := roundFp f false .rne 0 sum.1
      gives (.afadd x) r.1 (BitVec.ofNat 64 old) (sum.2 ||| r.2))

/-- R215, R216, R225: the granule instructions on path 0x2, by the granule's state: the value, the state left, and the park of one that meets
the wrong state, which changes nothing of memory and no register. -/
def Obligations.GranuleInstructionResults : Prop :=
  ∀ (s : State) (x : Ext), ReadyX s x [x.d, x.a, x.b] [] → x.dfmt.toNat < 8 →
    let n := fmtBits x.dfmt.toNat / 8
    let p := reg s x.a + offsetOf x
    let pa := place s p
    let g := pa / 16
    let full := s.mem.isFull g
    let ok := fun (i : Instr) (size : Nat) (out : Option Word) (after : Bool) (store : Nat) => Own s p size → ∃ t, exec i s = .next t ∧
      t.dev.getG s.dev.cur x.d.toNat = (match out with
        | some v => if x.d = 0 then 0 else v
        | none => reg s x.d) ∧
      (∀ r, r ≠ x.d.toNat → t.dev.getG s.dev.cur r = s.dev.getG s.dev.cur r) ∧
      (thr t).pc = (thr s).pc + BitVec.ofNat 64 (4 * words x) ∧ t.mem.isFull g = after ∧ (∀ h, h ≠ g → t.mem.isFull h = s.mem.isFull h) ∧
      (store = 0 → ∀ a, t.mem.byteAt a = s.mem.byteAt a) ∧
      (store ≠ 0 → t.mem.read pa store = (reg s x.b).toNat % 256 ^ store ∧ SameOutside s.mem t.mem pa store)
    let parks := fun (i : Instr) => Own s p n → ∃ t k, exec i s = .next t ∧ (thr t).st = .parked (.granule g k) ∧ t.mem = s.mem ∧
      t.dev.regs = s.dev.regs ∧ (thr t).pc = (thr s).pc ∧ (k = true → (g, s.dev.cur) ∈ t.dev.grWaits)
    let value := extended x.dfmt.toNat (s.mem.read pa n)
    (full = true → ok (.ldf x) n (some value) true 0 ∧ ok (.ldfClr x) n (some value) false 0 ∧ parks (.stf x)) ∧
    (full = false → parks (.ldf x) ∧ parks (.ldfClr x) ∧ ok (.stf x) n none true n) ∧
    ok (.sts x) n none true n ∧ ok (.sete x) 1 none false 0 ∧ ok (.setf x) 1 none true 0 ∧
    ok (.feq x) 1 (some (if full then 1 else 0)) full 0

/-- R220, R221, R230: relaxed accesses and reductions on path 0x2 complete at issue with a request outstanding: RELOUT or REDOUT counts it, a
destination's presence bit is clear, and memory and registers are as they were. -/
def Sys2Proof.Say.RelaxedAccessesAndReductionsIssue : Prop :=
  ∀ (s : State) (d a : BitVec 7) (off : BitVec 8) (x : Ext), s.dev.stopped = none → s.dev.cur % 64 ≠ 63 →
    let me := s.dev.cur
    let out := fun (i : Instr) (len : Nat) (p : Word) (n : Nat) (cls : Cls) (op : MemOp) (dst : Option Nat) =>
      Near s p n → ∃ t r, exec i s = .next t ∧ t.dev.reqs = s.dev.reqs ++ [r] ∧ r.tid = me ∧ r.cls = cls ∧ r.va = p ∧ r.pc = (thr s).pc ∧
        r.stage = .home ∧ r.ctx = (thr s).ctx ∧ (∃ k, r.kind = .mem op k) ∧ r.parts = [{ pa := place s p, n := n }] ∧
        t.mem = s.mem ∧ t.dev.regs = s.dev.regs ∧ (thr t).pc = (thr s).pc + BitVec.ofNat 64 (4 * len) ∧
        ∀ k, k < 128 → (thr t).absent.getLsbD k = ((thr s).absent.getLsbD k || decide (dst = some k ∧ k ≠ 0))
    let p := reg s a + BitVec.ofInt 64 (off.toInt * 8)
    let apart := ∀ r ∈ s.dev.reqs, r.tid = me → r.performed = false → (r.cls = .relaxed ∨ r.cls = .release) → ∀ op k, r.kind = .mem op k →
      r.va.toNat + op.size ≤ p.toNat ∨ p.toNat + 8 ≤ r.va.toNat
    (Ready s [d, a] → s.dev.relOut me < 8 →
      (apart → out (.ld64 d a 1 off) 1 p 8 .relaxed (.load 8 false) (some d.toNat)) ∧
      (apart → out (.st64 d a 1 off) 1 p 8 .relaxed (.store 8 ((reg s d).setWidth 128)) none) ∧
      (s.dev.pendingAccess me = false → out (.st64 d a 2 off) 1 p 8 .release (.store 8 ((reg s d).setWidth 128)) none)) ∧
    (ReadyX s x [x.a, x.b] [] → s.dev.redOut me < 255 →
      let p := reg s x.a + offsetOf x
      let n := fmtBits x.dfmt.toNat / 8
      let red := fun (i : Instr) (k : Nat) => out i (words x) p n .red (.red k x.dfmt.toNat (reg s x.b)) none
      let signed := x.dfmt.toNat < 4
      (x.dfmt.toNat ∈ [2, 3, 6, 7] → red (.redadd x) 0 ∧ red (.redmin x) (if signed then 4 else 6) ∧ red (.redmax x) (if signed then 5 else 7) ∧
        red (.redand x) 1 ∧ red (.redor x) 2 ∧ red (.redxor x) 3) ∧
      (x.dfmt.toNat ∈ [8, 9] → red (.redfadd x) 10))

/-- R226: ROINV of an address whose page the core's TLB maps removes its line, for the issuing context, from the cluster's read-only buffer and
changes nothing else of the buffer, of memory or of the registers. -/
def Sys2Proof.Say.RoinvRemovesTheLine : Prop :=
  ∀ (s : State) (x : Ext) (e : TlbEntry), ReadyX s x [x.a] [] → s.dev.pendingAccess s.dev.cur = false →
    let p := reg s x.a + offsetOf x
    let c := s.dev.cur / 512
    let core := s.dev.cur / 64
    let va := p.toNat % 2 ^ 48
    let pa := leafPa e.pte e.big va
    p.toNat / 2 ^ 48 = 0x1000 → (s.dev.core core).tlb.find? (fun e => e.covers ((s.dev.core core).ctxnum.toNat % 2 ^ 16) va) = some e →
    pteVerdict e.pte 0 0x60 = .ok → (paHome s.boot pa).isSome = true →
    ∃ t, exec (.roinv x) s = .next t ∧
      (t.dev.cluster c).robuf = (s.dev.cluster c).robuf.filter (fun l => l.1 != s.dev.ctxOf s.dev.cur || l.2.1 != pa / 128) ∧
      t.mem = s.mem ∧ t.dev.regs = s.dev.regs ∧ (thr t).pc = (thr s).pc + BitVec.ofNat 64 (4 * words x)

/-- R220, R221, R226, R230: relaxed accesses, reductions and ROINV. -/
def Obligations.RelaxedAccessesReductionsAndRoinv : Prop := RelaxedAccessesAndReductionsIssue ∧ RoinvRemovesTheLine

/-- R209, R219, R220, R383: plain accesses on path 0x0: one whose page no TLB entry maps parks with reason TLB and posts its miss; one whose page
the core's TLB maps to another cluster's controller sets out for that home and waits. -/
def Sys2Proof.Say.TranslatedAccesses : Prop :=
  ∀ (s : State) (d a : BitVec 7) (lit : Word), Ready s [d, a] → s.dev.pendingAccess s.dev.cur = false → (thr s).status.getLsbD 21 = false →
    let p := reg s a + lit
    let core := s.dev.cur / 64
    let va := p.toNat
    let finds := fun (l : List TlbEntry) => l.find? fun e => e.covers ((s.dev.core core).ctxnum.toNat % 2 ^ 16) va
    p.toNat < 2 ^ 48 → p.toNat % 8 = 0 →
    (finds (s.dev.core core).tlb = none → finds (s.dev.cluster (s.dev.cur / 512)).tlb2 = none →
      ∀ i ∈ [(Instr.ld64Lit d a 0 lit, 0), (.st64Lit d a 0 lit, 1)], ∃ t m, exec i.1 s = .next t ∧ (thr t).st = .parked .tlb ∧
        m ∈ (t.dev.core core).misses ∧ m.kind = i.2 ∧ m.va = va ∧ m.slot = s.dev.cur % 64 ∧ m.job = 0 ∧ t.mem = s.mem ∧ t.dev.regs = s.dev.regs) ∧
    (∀ e h, finds (s.dev.core core).tlb = some e → paHome s.boot (leafPa e.pte e.big va) = some (.hbm h) →
      let home := some (pcHome s.boot (h / 64) (h % 64))
      CanSend s (Home.hbm h).dest home →
      (pteVerdict e.pte 0 0x60 = .ok → ∃ t, exec (.ld64Lit d a 0 lit) s = .next t ∧ Asks s t (.mem (.load 8 false) d.toNat) (Home.hbm h).dest 3) ∧
      (pteVerdict e.pte 1 0x61 = .ok → ∃ t, exec (.st64Lit d a 0 lit) s = .next t ∧
        Asks s t (.mem (.store 8 ((reg s d).setWidth 128)) 0) (Home.hbm h).dest 3))

/-- R209 to R214, R224: accesses that their path refuses: misaligned, a store on path 0x1, an unassigned path, a path 0x6 access, reserved
address bits, an offset outside the core's window, a path 0xE access of an unprivileged thread. -/
def Sys2Proof.Say.RefusedAccessesTrap : Prop :=
  ∀ (s : State) (d a : BitVec 7) (lit : Word), Ready s [d, a] → Alone s →
    let p := reg s a + lit
    let path := p.toNat / 2 ^ 60
    let both := fun (cause : Nat) => ∀ i ∈ [Instr.ld64Lit d a 0 lit, .ld64Lit d a 1 lit, .st64Lit d a 0 lit, .st64Lit d a 1 lit, .st64Lit d a 2 lit],
      ∃ t, exec i s = .next t ∧ Trapped s t cause 0
    (p.toNat % 8 ≠ 0 → both 0x42) ∧
    (p.toNat % 8 = 0 →
      (path ∈ [4, 5, 7, 8, 9, 10, 11, 12, 13, 15] → both 0x41) ∧
      (path = 6 → (∃ t, exec (.ld64Lit d a 0 lit) s = .next t ∧ Trapped s t 0x60 0) ∧ ∃ t, exec (.st64Lit d a 0 lit) s = .next t ∧ Trapped s t 0x61 0) ∧
      (path = 14 → both 0x02) ∧
      (path = 1 → ∃ t, exec (.st64Lit d a 0 lit) s = .next t ∧ Trapped s t 0x41 0) ∧
      (path = 0 → 2 ^ 48 ≤ p.toNat % 2 ^ 60 → both 0x40) ∧
      (path = 2 → 2 ^ 22 ≤ p.toNat % 2 ^ 60 → both 0x40) ∧
      (path = 2 → p.toNat % 2 ^ 60 < 2 ^ 22 → inWindow (s.dev.core (s.dev.cur / 64)).cmwin (p.toNat % 2 ^ 22) = false → both 0x44))

/-- R209 to R214, R383, R384: accesses by virtual address, and those that trap. -/
def Obligations.TranslatedAndRefusedAccesses : Prop := TranslatedAccesses ∧ RefusedAccessesTrap

namespace Sys2Proof.Say

open Sys2Proof.Machine

/-- A request of this number is under way. -/
abbrev HasReq (s : State) (n : Nat) (r : Req) : Prop := s.dev.reqs.find? (fun q => q.id == n) = some r

/-- A request has come to its unit, or (back) its reply to its sender: it stands there, or its message has arrived at its end (R41). -/
abbrev Came (s : State) (r : Req) (back : Bool) : Prop :=
  r.stage = (if back then .replied else .home) ∨
    (r.stage = (if back then .back else .going) ∧ s.dev.msgs.any (fun m => m.req == r.id && m.back == back && s.live.arrived m) = true)

/-- The thread of a request waits for it, to go on at an address. -/
abbrev Awaited (s : State) (r : Req) (next : Word) : Prop := (s.dev.thread r.tid).flight = .request r.id next

/-- A thread's instruction that waited has completed (R70). -/
def Completed (t : State) (tid : Nat) (next : Word) : Prop :=
  (t.dev.thread tid).flight = .none ∧ (t.dev.thread tid).pc = next

/-- A request that has been answered is gone. -/
def Gone (t : State) (n : Nat) : Prop := ∀ r ∈ t.dev.reqs, r.id ≠ n

/-- The issuing thread has made a request of a unit of its own cluster and waits for it (R70). -/
def Waits (s t : State) (kind : ReqKind) (len : Nat) : Prop :=
  ∃ r, t.dev.reqs = s.dev.reqs ++ [r] ∧ r.id = s.dev.fresh ∧ r.kind = kind ∧ r.tid = s.dev.cur ∧ r.stage = .home ∧ t.mem = s.mem ∧
    t.dev.regs = s.dev.regs ∧ thr t = { thr s with flight := .request r.id ((thr s).pc + BitVec.ofNat 64 (4 * len)) }

/-- A phaser handle names an OPEN phaser of the issuing thread's cluster and kernel (R261, R262). -/
abbrev NamesPhaser (s : State) (h : Word) (p : Phaser) : Prop :=
  phUnit (s.dev.kernel? (thr s).ctx (thr s).knum) h = some (s.dev.cur / 512) ∧ s.dev.phaser (s.dev.cur / 512) (h.toNat % 32) = p ∧
    p.st = 1 ∧ p.ctx = (thr s).ctx ∧ p.knum = (thr s).knum ∧ p.gen = h.toNat / 2 ^ 32 % 2 ^ 16

end Sys2Proof.Say

/-- R258, R259: a core's work list is a LIFO list of its holder's threads: WPUSH adds at the tail, WPOP takes from it or gives 0, WLEN counts,
BALCFG sets the parameters of the cluster's lists that the kernel holds. -/
def Sys2Proof.Say.WorkListResults : Prop :=
  ∀ (s : State) (x : Ext), ReadyX s x [x.d, x.a, x.b] [] →
    let core := s.dev.cur / 64
    let w := s.dev.list core
    let mine := some ((thr s).ctx, (thr s).knum)
    let withList := fun (items : List Word) => { s with dev := { s.dev with work := tput s.dev.work core { w with items := items } } }
    w.holder = mine →
    (s.dev.pendingAccess s.dev.cur = false → reg s x.a ≠ 0 → w.items.length < 64 →
      exec (.wpush x) s = .next (passed (words x) (withList (w.items ++ [reg s x.a])))) ∧
    (∀ v, w.items.getLast? = some v → exec (.wpop x) s = .next (wrote (withList w.items.dropLast) (words x) x.d v)) ∧
    (w.items = [] → exec (.wpop x) s = .next (wrote (withList []) (words x) x.d 0)) ∧
    exec (.wlen x) s = .next (wrote s (words x) x.d (BitVec.ofNat 64 w.items.length)) ∧
    ((reg s x.a).toNat < 2 ^ 16 → (reg s x.b).toNat < 2 ^ 6 → ∃ t, exec (.balcfg x) s = .next t ∧ t.mem = s.mem ∧ t.dev.regs = s.dev.regs ∧
      (thr t).pc = (thr s).pc + BitVec.ofNat 64 (4 * words x) ∧
      ∀ c, c / 8 = s.dev.cur / 512 → t.dev.list c = if (s.dev.list c).holder = mine then
        { s.dev.list c with interval := (reg s x.a).toNat, thr := (reg s x.b).toNat } else s.dev.list c)

/-- R258, R259: the work-list trap, cause 0xA5: DETAIL 3 without the list, 2 for a zero entry, 1 for a full list. -/
def Sys2Proof.Say.WorkListTraps : Prop :=
  ∀ (s : State) (x : Ext), ReadyX s x [x.d, x.a] [] → Alone s → s.dev.pendingAccess s.dev.cur = false →
    let w := s.dev.list (s.dev.cur / 64)
    let mine := some ((thr s).ctx, (thr s).knum)
    let traps := fun (i : Instr) (d : Nat) => ∃ t, exec i s = .next t ∧ Trapped s t 0xA5 d
    (w.holder ≠ mine → traps (.wpush x) 3 ∧ traps (.wpop x) 3 ∧ traps (.wlen x) 3) ∧
    (w.holder = mine → reg s x.a = 0 → traps (.wpush x) 2) ∧
    (w.holder = mine → reg s x.a ≠ 0 → 64 ≤ w.items.length → traps (.wpush x) 1)

/-- R255, R257 to R260: the work-list instructions: their results and their traps. -/
def Obligations.WorkListResultsAndTheirTraps : Prop := WorkListResults ∧ WorkListTraps

/-- R261 to R271: the phaser instructions on a phaser of the issuer's cluster: what each does to the counts and to the handle. -/
def Sys2Proof.Say.PhaserResults : Prop :=
  ∀ (s : State) (x : Ext), ReadyX s x [x.d, x.a, x.b] [] →
    let c := s.dev.cur / 512
    let h := reg s x.a
    let i := h.toNat % 32
    let quiet := s.dev.pendingAccess s.dev.cur = false ∧ s.dev.redOut s.dev.cur = 0
    let done := fun (t : State) => (thr t).pc = (thr s).pc + BitVec.ofNat 64 (4 * words x) ∧ t.mem = s.mem
    let A := fun (t : State) => t.dev.getG s.dev.cur x.a.toNat
    x.a ≠ 0 →
    (h.toNat < 4 → ∀ k, k < 32 → (s.dev.phaser c k).st = 0 → (∀ j, j < k → (s.dev.phaser c j).st ≠ 0) → ∃ t, exec (.phnew x) s = .next t ∧ done t ∧
      t.dev.phaser c k = { st := 1, gen := (s.dev.phaser c k).gen, ctx := (thr s).ctx, knum := (thr s).knum, ph := 0, sigreg := h.toNat % 2,
                           waitreg := h.toNat / 2, arrived := 0 } ∧
      (x.d ≠ 0 → t.dev.getG s.dev.cur x.d.toNat =
        BitVec.ofNat 64 (2 ^ 63 + (thr s).lclu * 2 ^ 48 + (s.dev.phaser c k).gen * 2 ^ 32 + h.toNat % 2 * 2 ^ 15 + h.toNat / 2 * 2 ^ 14 + k))) ∧
    (h.toNat < 4 → (∀ j, j < 32 → (s.dev.phaser c j).st ≠ 0) → exec (.phnew x) s = .next (wrote s (words x) x.d 0)) ∧
    (∀ p, NamesPhaser s h p →
      (reg s x.b = 1 → h.getLsbD 15 = false → p.sigreg < 65535 → p.waitreg ≤ 65535 → ∃ t, exec (.phreg x) s = .next t ∧ done t ∧
        t.dev.phaser c i = { p with sigreg := p.sigreg + 1 } ∧ A t = h ||| 0x8000) ∧
      (reg s x.b = 4 → (thr s).join = none → p.sigreg < 65535 → p.waitreg ≤ 65535 → ∃ t, exec (.phreg x) s = .next t ∧ done t ∧
        t.dev.phaser c i = { p with sigreg := p.sigreg + 1 } ∧ A t = h ∧ (thr t).join = some h) ∧
      (quiet → h.getLsbD 15 = true → p.arrived + 1 < p.sigreg → p.arrived < 65535 → ∃ t, exec (.phsig x) s = .next t ∧ done t ∧
        t.dev.phaser c i = { p with arrived := p.arrived + 1 } ∧ t.dev.regs = s.dev.regs) ∧
      (quiet → h.getLsbD 15 = true → p.arrived + 1 = p.sigreg → p.arrived < 65535 → ∃ t, exec (.phsig x) s = .next t ∧ done t ∧
        t.dev.phaser c i = { p with arrived := 0, ph := (p.ph + 1) % 2 ^ 32 } ∧ t.dev.regs = s.dev.regs ∧
        ∀ w ∈ s.dev.phWaits, w.1 = c → w.2.1 = i → w.2.2 ∈ t.dev.wakes ∧ w ∉ t.dev.phWaits) ∧
      (h.getLsbD 14 = true → 1 ≤ (p.ph % 2 ^ 16 + 2 ^ 16 - h.toNat / 2 ^ 16 % 2 ^ 16) % 2 ^ 16 → (p.ph % 2 ^ 16 + 2 ^ 16 - h.toNat / 2 ^ 16 % 2 ^ 16) % 2 ^ 16 < 2 ^ 15 →
        ∃ t, exec (.phwait x) s = .next t ∧ done t ∧ t.dev.phaser c i = p ∧ A t = setBits h 16 16 (h.toNat / 2 ^ 16 % 2 ^ 16 + 1)) ∧
      (h.getLsbD 14 = true → p.ph % 2 ^ 16 = h.toNat / 2 ^ 16 % 2 ^ 16 → (s.dev.phWaits.filter fun w => w.1 == c).length < 128 →
        ∃ t, exec (.phwait x) s = .next t ∧ (thr t).st = .parked (.phaser c i (h.toNat / 2 ^ 16 % 2 ^ 16) true) ∧
          (c, i, s.dev.cur) ∈ t.dev.phWaits ∧ t.dev.regs = s.dev.regs ∧ (thr t).pc = (thr s).pc) ∧
      (quiet → (thr s).phNext = false → h.getLsbD 15 = true → h.getLsbD 14 = true → p.arrived + 1 = p.sigreg → p.arrived < 65535 →
        p.ph % 2 ^ 16 = h.toNat / 2 ^ 16 % 2 ^ 16 → ∃ t, exec (.phnext x) s = .next t ∧ done t ∧
          t.dev.phaser c i = { p with arrived := 0, ph := (p.ph + 1) % 2 ^ 32 } ∧ A t = setBits h 16 16 (h.toNat / 2 ^ 16 % 2 ^ 16 + 1)) ∧
      (quiet → h.getLsbD 15 = true → h.getLsbD 14 = false → p.arrived + 1 < p.sigreg → ∃ t, exec (.phdrop x) s = .next t ∧ done t ∧
        t.dev.phaser c i = { p with sigreg := p.sigreg - 1 } ∧ A t = h &&& ~~~0xC000) ∧
      (p.sigreg = 0 → p.waitreg = 0 → p.arrived = 0 → (∀ w ∈ s.dev.phWaits, ¬(w.1 = c ∧ w.2.1 = i)) →
        ∃ t, exec (.phfree x) s = .next t ∧ done t ∧ t.dev.phaser c i = { gen := (p.gen + 1) % 2 ^ 16 } ∧ t.dev.regs = s.dev.regs) ∧
      exec (.phq x) s = .next (wrote s (words x) x.d (BitVec.ofNat 64 (p.sigreg * 2 ^ 48 + p.waitreg * 2 ^ 32 + p.arrived * 2 ^ 16 + p.ph % 2 ^ 16))))

/-- R262, R273: a handle that names no phaser of the issuer's kernel raises the phaser trap, cause 0xA4, DETAIL 1; a handle of a phaser in
another cluster is sent there and waited for. -/
def Sys2Proof.Say.PhaserHandleChecks : Prop :=
  ∀ (s : State) (x : Ext), ReadyX s x [x.d, x.a, x.b] [] →
    let h := reg s x.a
    let unit := phUnit (s.dev.kernel? (thr s).ctx (thr s).knum) h
    (Alone s → unit = none → ∀ i ∈ [Instr.phreg x, .phdrop x, .phsig x, .phwait x, .phnext x, .phfree x, .phq x],
      ∃ t, exec i s = .next t ∧ Trapped s t 0xA4 1) ∧
    (∀ u, unit = some u → u ≠ s.dev.cur / 512 → CanSend s (.cluster u) none →
      (∃ t, exec (.phwait x) s = .next t ∧ Asks s t (.phaser 4 h 0 x.a.toNat) (.cluster u) (words x)) ∧
      (∃ t, exec (.phfree x) s = .next t ∧ Asks s t (.phaser 6 h 0 x.a.toNat) (.cluster u) (words x)) ∧
      (∃ t, exec (.phq x) s = .next t ∧ Asks s t (.phaser 7 h 0 x.d.toNat) (.cluster u) (words x)))

/-- R261 to R269: the phaser instructions: their results and the checks of their handles. -/
def Obligations.PhaserResultsAndTheirTraps : Prop := PhaserResults ∧ PhaserHandleChecks

/-- R123, R124: SPAWN to a core of its own cluster with a free slot and window, and no join: the child is READY at the entry with the copy range
of its parent's registers and zeros elsewhere, and g[D] takes its THREADID; with neither slot nor window g[D] takes all ones. -/
def Sys2Proof.Say.SpawnInTheOwnCluster : Prop :=
  ∀ (s : State) (x : Ext) (k : Kernel), ReadyX s x [x.d, x.a, x.b, x.c] [] → (thr s).st = .ready → s.dev.cur % 64 ≠ 63 →
    s.dev.pendingAccess s.dev.cur = false → s.dev.kernel? (thr s).ctx (thr s).knum = some k → reg s x.c = 0 →
    (thr s).wbase + (thr s).wsize ≤ 2048 →
    let lc := (reg s x.a).toNat
    let core := k.cores.getD lc 0
    let first := (reg s x.b).toNat % 128
    let count := (reg s x.b).toNat / 256
    let entry : Word := match x.lit with
      | some v => v
      | none => BitVec.ofInt 64 ((thr s).pc.toNat / 64 * 64 + x.imm.toInt * 64)
    lc < (thr s).ncore → lc < k.cores.length → core / 8 = s.dev.cur / 512 → unpopulated k lc = false →
    (reg s x.b).toNat / 128 % 2 = 0 → count < 128 → (count = 0 ∨ 1 ≤ first) → first + count ≤ (thr s).wsize → Legal entry →
    (∀ i, i < count → (thr s).lacks (first + i) = false) →
    (∀ child base, s.dev.findPlace k core (thr s).wsize = some (child, base) → ∃ t, exec (.spawn x) s = .next t ∧
      t.dev.getG s.dev.cur x.d.toNat = (if x.d = 0 then 0 else BitVec.ofNat 64 child) ∧
      (t.dev.thread child).st = .ready ∧ (t.dev.thread child).pc = entry ∧ (t.dev.thread child).wbase = base ∧
      (t.dev.thread child).wsize = (thr s).wsize ∧ (t.dev.thread child).ctx = (thr s).ctx ∧ (t.dev.thread child).knum = (thr s).knum ∧
      (t.dev.thread child).preds = 0 ∧ (t.dev.thread child).k0 = BitVec.allOnes 128 ∧ (t.dev.thread child).absent = 0 ∧
      (t.dev.thread child).join = none ∧
      (∀ i, 1 ≤ i → i < (thr s).wsize → t.dev.getG child i = if first ≤ i ∧ i < first + count then s.dev.getG s.dev.cur i else 0) ∧
      (thr t).pc = (thr s).pc + BitVec.ofNat 64 (4 * words x) ∧ t.mem = s.mem) ∧
    (s.dev.findPlace k core (thr s).wsize = none → exec (.spawn x) s = .next (wrote s (words x) x.d (BitVec.allOnes 64)))

/-- R116, R127, R128: an RPUT to another core of its cluster hands its value to the write port and waits; one to a thread of its own core writes or
empties the register, or traps where the slot holds no thread that may take it. MIGRATE to its own cluster passes; to another its thread is MIGRATING,
its state in a message to that cluster's NI, to go on after the MIGRATE. -/
def Sys2Proof.Say.RputAndMigrateIssue : Prop :=
  ∀ (s : State) (x : Ext), s.dev.pendingAccess s.dev.cur = false →
    let me := s.dev.cur
    let c := me / 512
    let v := reg s x.a
    let p := v + offsetOf x
    let target := c * 512 + v.toNat % 512
    (ReadyX s x [x.a, x.b] [] → x.d.toNat < (thr s).wsize → v.toNat % 2 ^ 63 < 512 →
      (∀ k, s.dev.kernel? (thr s).ctx (thr s).knum = some k → target / 64 ∈ k.cores → unpopulated k (k.lcOf (target / 64)) = false) →
      (target / 64 ≠ me / 64 →
        ∃ t, exec (.rput x) s = .next t ∧ Waits s t (.rput target x.d.toNat (reg s x.b) (v.getLsbD 63)) (words x)) ∧
      (target / 64 = me / 64 → rputOk s.dev (s.dev.ctxOf me) (thr s).knum target x.d.toNat = true →
        exec (.rput x) s = .next (passed (words x) { s with dev :=
          (if v.getLsbD 63 = true then s.dev.clearPresent target x.d.toNat else s.dev.setG target x.d.toNat (reg s x.b)) })) ∧
      (target / 64 = me / 64 → rputOk s.dev (s.dev.ctxOf me) (thr s).knum target x.d.toNat = false → Alone s →
        ∃ t, exec (.rput x) s = .next t ∧ Trapped s t 0xA1 0)) ∧
    (ReadyX s x [x.a] [] → (thr s).wsize = 16 → (thr s).tsize = 0 → s.dev.redOut me = 0 →
      let far := p.toNat / 2 ^ 22 % 256
      (p.toNat / 2 ^ 60 = 2 → exec (.migrate x) s = .next (passed (words x) s)) ∧
      (p.toNat / 2 ^ 60 = 3 → far = c → exec (.migrate x) s = .next (passed (words x) s)) ∧
      (∀ k core, p.toNat / 2 ^ 60 = 3 → far ≠ c → s.dev.kernel? (thr s).ctx (thr s).knum = some k → core ∈ k.openCores far →
        unpopulated k (k.lcOf core) = false → CanSend s (.cluster far) none → ∃ t r, exec (.migrate x) s = .next t ∧ (thr t).st = .migrating ∧
          t.dev.reqs = s.dev.reqs ++ [r] ∧ r.tid = me ∧ r.dest = .cluster far ∧ r.stage = .going ∧
          r.kind = .migrate { pc := (thr s).pc + BitVec.ofNat 64 (4 * words x) } [] (p.toNat / 2 ^ 7 % 8) 0 none ∧ t.dev.regs = s.dev.regs ∧
          t.mem = s.mem))

/-- R123, R124, R127 to R129: SPAWN in the own cluster, RPUT and MIGRATE. -/
def Obligations.SpawnRputAndMigrate : Prop := SpawnInTheOwnCluster ∧ RputAndMigrateIssue

/-- R109, R110, R126, R216, R269: the wakes: a parked thread whose wake event has occurred is READY and re-executes its instruction, and nothing
else of it or of another thread changes; a wake of a thread that is not parked changes no thread. -/
def Sys2Proof.Say.WakesMakeThreadsReady : Prop :=
  ∀ (s : State) (tid : Nat), s.dev.stopped = none →
    let t0 := s.dev.thread tid
    let wakes := fun (i : Instr) => ∃ t, exec i s = .next t ∧ t.dev.thread tid = { t0 with st := .ready } ∧
      (∀ x, x ≠ tid → t.dev.thread x = s.dev.thread x) ∧ t.mem = s.mem ∧ t.dev.regs = s.dev.regs
    (∀ p, t0.st = .parked p → wakeMet s.dev tid p = true → wakes (.threadWake tid)) ∧
    (∀ g k, t0.st = .parked (.granule g k) → t0.flight = .none → (tid ∈ s.dev.wakes ∨ (s.live.wakeAt tid).isSome = true) → wakes (.granuleWake tid)) ∧
    (∀ g, t0.st = .parked (.granule g false) → wakes (.granuleRetryTimeout tid)) ∧
    (∀ u i p, t0.st = .parked (.phaser u i p false) → wakes (.phaserRetryTimeout tid)) ∧
    (∀ o n, t0.hold = some (o, n) → n ≤ (s.dev.core (tid / 64)).cycle → ∃ t, exec (.yieldHoldEnd tid) s = .next t ∧
      t.dev.thread tid = { t0 with hold := none } ∧ t.mem = s.mem) ∧
    ((∀ p, t0.st ≠ .parked p) → ∀ i ∈ [Instr.threadWake tid, .granuleWake tid, .granuleRetryTimeout tid, .phaserRetryTimeout tid],
      ∃ t, exec i s = .next t ∧ ∀ x, t.dev.thread x = s.dev.thread x)

/-- R111, R116, R124, R127, R268: RPUT's delivery, after those that its core issued before to the same register, and what becomes of a SPAWN in another
cluster and of a join message. -/
def Sys2Proof.Say.ThreadMessagesArrive : Prop :=
  ∀ (s : State) (n : Nat) (r : Req), s.dev.stopped = none → HasReq s n r →
    let First := fun (target g : Nat) => ∀ q ∈ s.dev.reqs, ∀ v e, q.kind = .rput target g v e → q.tid / 64 = r.tid / 64 → n ≤ q.id
    let sent := fun (t : State) (k : ReqKind) => ∃ q ∈ t.dev.reqs, q.kind = k
    (∀ target g v e, r.kind = .rput target g v e → ¬First target g → exec (.rputDeliver n) s = .next s) ∧
    (∀ target g v next, r.kind = .rput target g v false → First target g → Awaited s r next → (s.dev.thread target).st = .ready →
      s.dev.ctxOf target = r.ctx → 1 ≤ g → g < (s.dev.thread target).wsize → ∃ t, exec (.rputDeliver n) s = .next t ∧
        t.dev.getG target g = v ∧ (t.dev.thread target).lacks g = false ∧ Completed t r.tid next ∧ Gone t n ∧ t.mem = s.mem) ∧
    (∀ target g v next, r.kind = .rput target g v true → First target g → Awaited s r next → (s.dev.thread target).st = .ready →
      s.dev.ctxOf target = r.ctx → 1 ≤ g → g < (s.dev.thread target).wsize → g < 128 → ∃ t, exec (.rputDeliver n) s = .next t ∧
        (t.dev.thread target).lacks g = true ∧ t.dev.regs = s.dev.regs ∧ Completed t r.tid next ∧ Gone t n) ∧
    (∀ t0 regs lc w j d k child base, r.kind = .spawn t0 regs lc w j d → r.out2 = 0 → Came s r false → s.dev.kernel? t0.ctx t0.knum = some k →
      unpopulated k lc = false → k.st ≠ 3 → s.dev.findPlace k (k.cores.getD lc 0) w = some (child, base) →
      ∃ t, exec (.spawnRemoteCreate n) s = .next t ∧ (t.dev.thread child).st = .ready ∧ (t.dev.thread child).pc = t0.pc ∧
        (t.dev.thread child).wbase = base ∧ (t.dev.thread child).wsize = w ∧ ∃ q, HasReq t n q ∧ q.out = BitVec.ofNat 64 child) ∧
    (∀ t0 regs lc w d, r.kind = .spawn t0 regs lc w 0 d → Came s r true → r.reported = false → r.out ≠ BitVec.allOnes 64 → 1 ≤ d →
      (s.dev.thread r.tid).live = true → s.dev.ctxOf r.tid = r.ctx → ∃ t, exec (.spawnReply n) s = .next t ∧
        t.dev.getG r.tid d = r.out ∧ sent t (.joinMsg r.out.toNat none)) ∧
    (∀ target j, r.kind = .joinMsg target j → Came s r false →
      (r.dest = .cluster (target / 512) → (s.dev.thread target).live = true → ∃ t, exec (.joinMessage n) s = .next t ∧
        (t.dev.thread target).join = j ∧ (t.dev.thread target).landing = false ∧ Gone t n ∧ t.dev.regs = s.dev.regs) ∧
      (r.dest ≠ .cluster (target / 512) → ∃ t q, exec (.joinMessage n) s = .next t ∧ q ∈ t.dev.reqs ∧ q.kind = .joinMsg target j ∧
        q.dest = .cluster (target / 512) ∧ t.dev.threads = s.dev.threads))

/-- R108, R129, R130: an arriving migration takes a guest slot of its cluster, its flits bring its registers and make it READY, and the
acceptance frees the origin's slot and zeroes its window. -/
def Sys2Proof.Say.MigrationArrives : Prop :=
  ∀ (s : State) (n : Nat) (r : Req), s.dev.stopped = none → HasReq s n r →
    (∀ t0 regs start landed c k, r.kind = .migrate t0 regs start landed none → r.dest = .cluster c → Came s r false →
      let t1 := s.dev.thread r.tid
      s.dev.kernel? t1.ctx t1.knum = some k →
      ∀ core slot, core / 8 = c → core % 8 = start % 8 → core ∈ k.openCores c → unpopulated k (k.lcOf core) = false →
        s.dev.freeSlot core 56 7 = some slot → r.tid ≠ core * 64 + slot → ∃ t, exec (.migrationPlace n) s = .next t ∧
          let g := t.dev.thread (core * 64 + slot)
          g.st = .guest ∧ g.wbase = 1904 + 16 * (slot - 56) ∧ g.wsize = 16 ∧ g.tsize = 0 ∧ g.pc = t0.pc ∧ g.preds = t1.preds ∧
          g.status = t1.status ∧ g.rng = t1.rng ∧ g.ctx = t1.ctx ∧ g.knum = t1.knum ∧ g.k0 = BitVec.allOnes 128 ∧
          t.dev.thread r.tid = t1) ∧
    (∀ t0 regs start tid k, r.kind = .migrate t0 regs start 0 (some tid) → (s.dev.thread tid).st = .guest →
      s.dev.kernel? (s.dev.thread tid).ctx (s.dev.thread tid).knum = some k → k.st ≠ 3 → k.st ≠ 6 → t0.absent = 0 →
      ∃ t, exec (.migrationFlitLand n) s = .next t ∧ (t.dev.thread tid).st = .ready ∧ t.dev.getG tid 1 = regs.getD 0 0 ∧
        t.dev.getG tid 2 = regs.getD 1 0 ∧ (t.dev.thread tid).lacks 1 = false ∧ (t.dev.thread tid).lacks 2 = false) ∧
    (∀ t0 regs start landed tid, r.kind = .migrate t0 regs start landed (some tid) → Came s r true → r.reported = false → r.out2 ≠ 1 →
      (s.dev.thread r.tid).landing = false → r.tid % 64 ≠ 63 → r.tid ≠ tid →
      ∃ t q, exec (.migrationAccept n) s = .next t ∧ (t.dev.thread r.tid).st = .free ∧
        (∀ e, r.tid / 64 * 2048 + (s.dev.thread r.tid).wbase ≤ e → e < r.tid / 64 * 2048 + (s.dev.thread r.tid).wbase + (s.dev.thread r.tid).wsize →
          tget t.dev.regs 0 e = 0) ∧ q ∈ t.dev.reqs ∧ q.kind = .joinMsg tid (s.dev.thread r.tid).join)

/-- R108, R111, R124, R127, R129, R130, R268: what the messages of threads do where they arrive. -/
def Obligations.ThreadMessagesTakeEffect : Prop := ThreadMessagesArrive ∧ MigrationArrives

/-- R253, R260, R264, R269: the balancer's two steps, the release of a core, and phaser requests at their unit and their replies. -/
def Sys2Proof.Say.GroupAndPhaserSteps : Prop :=
  ∀ (s : State), s.dev.stopped = none →
    (∀ cluster ctx knum c a, a = c + 1 → c / 8 = cluster → a / 8 = cluster →
      (∀ m ∈ (s.dev.cluster cluster).moves, ¬(m.ctx = ctx ∧ m.knum = knum)) →
      (∀ k, k / 8 = cluster → ((s.dev.list k).holder = some (ctx, knum) ↔ k = c ∨ k = a)) →
      let n := (s.dev.list c).items.length
      let na := (s.dev.list a).items.length
      let m := min (n - (s.dev.list c).thr) ((n - na) / 2)
      (s.dev.list c).interval ≠ 0 → (s.dev.list c).thr < n → na ≤ (s.dev.list a).thr → 1 ≤ m → ∃ t, exec (.balanceInstant cluster ctx knum) s = .next t ∧
        (t.dev.list c).items = (s.dev.list c).items.drop m ∧ t.dev.list a = s.dev.list a ∧
        (t.dev.cluster cluster).moves = (s.dev.cluster cluster).moves ++ [{ core := a, ctx := ctx, knum := knum, items := (s.dev.list c).items.take m }]) ∧
    (∀ cluster, (∀ m ∈ (s.dev.cluster cluster).moves, (s.dev.list m.core).holder = some (m.ctx, m.knum) ∧
        64 < (s.dev.list m.core).items.length + m.items.length) → exec (.balanceInsert cluster) s = .next s) ∧
    (∀ cluster m rest, (s.dev.cluster cluster).moves = m :: rest → (s.dev.list m.core).holder = some (m.ctx, m.knum) →
      (s.dev.list m.core).items.length + m.items.length ≤ 64 → ∃ t, exec (.balanceInsert cluster) s = .next t ∧ (t.dev.list m.core).items = (s.dev.list m.core).items ++ m.items ∧
        (t.dev.cluster cluster).moves = rest) ∧
    (∀ ctx knum lc k core, s.dev.kernel? ctx knum = some k → k.cores[lc]? = some core → k.st = 2 → s.dev.coreGroupEmpty ctx knum core = true →
      ∃ t q, exec (.coreRelease ctx knum lc) s = .next t ∧ t.dev.kernel? ctx knum = some q ∧ lc ∈ q.released ∧ q.cores = k.cores) ∧
    (∀ n r h mode d unit, HasReq s n r → r.kind = .phaser 3 h mode d → r.dest = .cluster unit → Came s r false →
      let p := s.dev.phaser unit (h.toNat % 32)
      p.st = 1 → p.ctx = r.ctx → p.knum = r.va.toNat % 2 ^ 32 → p.gen = h.toNat / 2 ^ 32 % 2 ^ 16 → h.getLsbD 15 = true → p.arrived + 1 < p.sigreg →
      p.arrived < 65535 → ∃ t q, exec (.phaserRequest n) s = .next t ∧ t.dev.phaser unit (h.toNat % 32) = { p with arrived := p.arrived + 1 } ∧
        HasReq t n q ∧ q.fail = r.fail ∧ q.stage ≠ .home ∧ q.stage ≠ .going) ∧
    (∀ n r op h mode d next, HasReq s n r → r.kind = .phaser op h mode d → op ∈ [1, 2, 4, 7] → Came s r true → r.fail = none → r.park = none →
      Awaited s r next → 1 ≤ d → ∃ t, exec (.phaserReply n) s = .next t ∧ t.dev.getG r.tid d = r.out ∧ Completed t r.tid next ∧ Gone t n)

/-- R109, R110, R126, R216, R253, R260, R264, R269: wakes, the balancer, the release of cores, phaser requests and replies. -/
def Obligations.WakesGroupsAndPhaserSteps : Prop := WakesMakeThreadsReady ∧ GroupAndPhaserSteps

namespace Sys2Proof.Say

open Sys2Proof.Machine

/-- The tile register of its core that a tile index of the issuing thread names (R107). -/
abbrev tileOf (s : State) (n : Nat) : Nat := ((thr s).tbase + n) % 16

/-- Its descriptor. -/
abbrev descOf (s : State) (n : BitVec 7) : Word := tget s.dev.descs descReset (s.dev.cur / 64 * 16 + tileOf s n.toNat)

/-- The key of a row of it. -/
abbrev rowKey (s : State) (n : BitVec 7) (r : Nat) : Nat := (s.dev.cur / 64 * 16 + tileOf s n.toNat) * 32 + r

/-- A row of it as a number, element 0 lowest. -/
abbrev rowOf (s : State) (n : BitVec 7) (r : Nat) : Nat := (tget s.dev.tiles 0 (rowKey s n r)).toNat

/-- No tile write and no descriptor write of the issuing core has still to become visible (R160, R166). -/
abbrev Calm (s : State) : Prop := (s.dev.core (s.dev.cur / 64)).tileWrites = [] ∧ (s.dev.core (s.dev.cur / 64)).late = []

/-- Tile operands pass the checks of R164 with these formats. -/
abbrev Fits (s : State) (x : Ext) (ops : List (BitVec 7 × Nat)) : Prop :=
  ∀ p ∈ ops, descOk (descOf s p.1) = true ∧ x.row0.toNat + x.rcnt.toNat < dRows (descOf s p.1) ∧ dFmt (descOf s p.1) = p.2

/-- Lane j of a tile operand in row r (R162). -/
abbrev lane (s : State) (n : BitVec 7) (r j : Nat) : Nat :=
  elemAt (rowOf s n r) (fmtBits (dFmt (descOf s n))) (dEcol (descOf s n) + j)

/-- The active lanes for some tile operands (R163). -/
abbrev Active (s : State) (x : Ext) (lanes : Nat) (ts : List (BitVec 7)) (j : Nat) : Prop :=
  j < lanes ∧ (∀ n ∈ ts, dEcol (descOf s n) + j < dCols (descOf s n)) ∧ (x.men = true → governs ((thr s).k x.km.toNat) lanes j = true)

/-- What a word of the issuing core's tile registers holds once every write that is on its way has landed (R166): 0 data, 1 scales,
2 codebook, 3 descriptor. -/
abbrev settled (t : State) (area key : Nat) : Nat :=
  ((t.live.landTiles (t.dev.cur / 64) fun _ => true).dev.tileArea area key).toNat

/-- Nothing but tile contents, the mask registers, STATUS and the generator has changed, and the instruction is passed. -/
def OnlyTiles (s t : State) (len : Nat) : Prop :=
  t.mem = s.mem ∧ t.dev.regs = s.dev.regs ∧ t.dev.descs = s.dev.descs ∧ t.dev.accs = s.dev.accs ∧ t.dev.cregs = s.dev.cregs ∧
    t.dev.cur = s.dev.cur ∧ (∀ i, i ≠ s.dev.cur → t.dev.thread i = s.dev.thread i) ∧
    thr t = { thr s with pc := (thr s).pc + BitVec.ofNat 64 (4 * len), retries := 0, status := (thr t).status, rng := (thr t).rng,
                         k0 := (thr t).k0, k1 := (thr t).k1, k2 := (thr t).k2, k3 := (thr t).k3 }

/-- Every element of every row of the tile registers of the issuing core: in the rows of the range, element ECOL + j of D for an active lane j is
the value that f gives for row and lane; every other element is as it was (R163, R173). -/
def RowsWritten (s t : State) (x : Ext) (w : Nat) (active : Nat → Prop) (f : Nat → Nat → Nat) : Prop :=
  (∀ r, x.row0.toNat ≤ r → r ≤ x.row0.toNat + x.rcnt.toNat → ∀ c, c < 4096 / w →
    (dEcol (descOf s x.d) ≤ c ∧ active (c - dEcol (descOf s x.d)) → elemAt (settled t 0 (rowKey s x.d r)) w c = f r (c - dEcol (descOf s x.d)) % 2 ^ w) ∧
    (¬(dEcol (descOf s x.d) ≤ c ∧ active (c - dEcol (descOf s x.d))) → elemAt (settled t 0 (rowKey s x.d r)) w c = elemAt (rowOf s x.d r) w c)) ∧
  ∀ k, (∀ r, x.row0.toNat ≤ r → r ≤ x.row0.toNat + x.rcnt.toNat → k ≠ rowKey s x.d r) → settled t 0 k = (tget s.dev.tiles 0 k).toNat

/-- STATUS after a vector instruction: the flags of every active lane of every row are set, and IM with them (R89, R90). -/
def FlagsOf (s t : State) (x : Ext) (active : Nat → Prop) (im : Flags) (f : Nat → Nat → Flags) : Prop :=
  ∀ b, (thr t).status.getLsbD b = true ↔ (thr s).status.getLsbD b = true ∨ im.getLsbD b = true ∨
    ∃ r j, x.row0.toNat ≤ r ∧ r ≤ x.row0.toNat + x.rcnt.toNat ∧ active j ∧ (f r j).getLsbD b = true

/-- Active lanes below lane n. -/
abbrev activeBelow (s : State) (x : Ext) (lanes : Nat) (ts : List (BitVec 7)) (n : Nat) : Nat :=
  (List.range n).countP fun j => decide (Active s x lanes ts j)

/-- The generator that lane j of row r draws from, under .rsr: one draw for every active lane before it, rows and lanes ascending (R94). -/
abbrev genAt (s : State) (x : Ext) (lanes : Nat) (ts : List (BitVec 7)) (r j : Nat) : Word :=
  (thr s).rng + BitVec.ofNat 64 ((r - x.row0.toNat) * activeBelow s x lanes ts lanes + activeBelow s x lanes ts j) * 0x9E3779B97F4A7C15

/-- A lane-wise instruction: result and flags of every lane, and the generator after one draw, or none, a lane. -/
def Lanewise (s t : State) (x : Ext) (lanes : Nat) (ts : List (BitVec 7)) (im : Flags) (draws : Bool) (f : Nat → Nat → Nat × Flags) : Prop :=
  OnlyTiles s t (words x) ∧ (thr t).rng = (if draws then genAt s x lanes ts (x.row0.toNat + x.rcnt.toNat + 1) 0 else (thr s).rng) ∧
    (∀ i, i < 4 → (thr t).k i = (thr s).k i) ∧
    RowsWritten s t x (fmtBits x.dfmt.toNat) (Active s x lanes ts) (fun r j => (f r j).1) ∧
    FlagsOf s t x (Active s x lanes ts) im (fun r j => (f r j).2)

/-- A number as an element of a format, and read back: signed for the .iN formats (R80). -/
abbrev num (code v : Nat) : Int := if code < 4 then (BitVec.ofNat (fmtBits code) v).toInt else (v % 2 ^ fmtBits code : Nat)

/-- An integer fitted to a format: wrapped, or with SAT clamped to the format's bounds with ST (R80). -/
abbrev fitted (code : Nat) (sat : Bool) (i : Int) : Nat × Flags :=
  let w := fmtBits code
  let lo : Int := if code < 4 then -(2 ^ (w - 1)) else 0
  let hi : Int := if code < 4 then 2 ^ (w - 1) - 1 else 2 ^ w - 1
  if sat = true ∧ i < lo then ((lo % 2 ^ w).toNat, 0x20) else if sat = true ∧ hi < i then ((hi % 2 ^ w).toNat, 0x20) else ((i % 2 ^ w).toNat, 0)

/-- A legal plain image access in the issuing thread's own cluster: an address on path 0x2, wholly in the window and free of poison (R167,
R168). -/
abbrev ImageHere (s : State) (a : Word) (size : Nat) : Prop :=
  a.toNat % 64 = 0 ∧ a.toNat / 2 ^ 60 = 2 ∧ a.toNat % 2 ^ 60 + size ≤ 2 ^ 22 ∧
    (∀ o, o < size → inWindow (s.dev.core (s.dev.cur / 64)).cmwin (a.toNat % 2 ^ 22 + o) = true) ∧ s.mem.anyPoison (place s a) size = false ∧
    s.boot.hasCluster (s.dev.cur / 512) = true ∧ s.dev.pendingAccess s.dev.cur = false ∧ (thr s).live = true ∧ s.dev.split = false ∧
    (∀ r ∈ s.dev.reqs, r.tid ≠ s.dev.cur ∧ r.id ≠ s.dev.fresh) ∧ Calm s ∧ s.dev.cur % 64 ≠ 63

/-- The rows, scales, codebook and descriptor of D are those of the image at an address (R169). -/
def Loaded (s t : State) (x : Ext) (pa : Nat) (d : Word) : Prop :=
  (∀ r, x.row0.toNat ≤ r → r ≤ x.row0.toNat + x.rcnt.toNat →
    (tget t.dev.tiles 0 (rowKey s x.d r)).toNat = rowOf s x.d r / 2 ^ (8 * imageRow d) * 2 ^ (8 * imageRow d) +
      s.mem.read (pa + 64 + r * imageRow d) (imageRow d)) ∧
  (dScl d = true → ∀ r, x.row0.toNat ≤ r → r ≤ x.row0.toNat + x.rcnt.toNat →
    (tget t.dev.scales 0 (rowKey s x.d r)).toNat % 2 ^ (8 * scaleBytes d) = s.mem.read (pa + scalesAt d + r * scaleBytes d) (scaleBytes d)) ∧
  (dCbk d = true → (tget t.dev.books 0 (s.dev.cur / 64 * 16 + tileOf s x.d.toNat)).toNat = s.mem.read (pa + bookAt d) 32) ∧
  (∀ k, (∀ r, x.row0.toNat ≤ r → r ≤ x.row0.toNat + x.rcnt.toNat → k ≠ rowKey s x.d r) → tget t.dev.tiles 0 k = tget s.dev.tiles 0 k) ∧
  descOf t x.d = d ∧ t.mem = s.mem ∧ t.dev.regs = s.dev.regs ∧ t.dev.cur = s.dev.cur ∧ (thr t).pc = (thr s).pc + BitVec.ofNat 64 (4 * words x)

end Sys2Proof.Say

/-- R156 to R163, R173 to R175: the lane-wise arithmetic and logic of the vector unit, on operands that pass R164: every element of the
destination, every flag, the generator, and nothing else. -/
def Obligations.VectorArithmeticResults : Prop :=
  ∀ (s : State) (x : Ext), ReadyX s x [] [x.d, x.a, x.b, x.c] → Calm s →
    let code := x.dfmt.toNat
    let w := fmtBits code
    let m := resolveMode x.rm.toNat (thr s).fpmode.toNat
    let rsr := decide (m.1 = .rsr)
    let one := [x.d, x.a]
    let two := [x.d, x.a, x.b]
    let A := fun r j => lane s x.a r j
    let B := fun r j => lane s x.b r j
    let C := fun r j => lane s x.c r j
    let V := fun (e : Nat) => valOf code e
    let N := fun (e : Nat) => num code e
    let gives := fun (i : Instr) (ts : List (BitVec 7)) (f : Nat → Nat → Nat × Flags) =>
      ∃ t, exec i s = .next t ∧ Lanewise s t x (lanesOf code) ts 0 false f
    let rounds := fun (i : Instr) (ts : List (BitVec 7)) (f : Nat → Nat → Val × Flags) =>
      ∃ t, exec i s = .next t ∧ Lanewise s t x (lanesOf code) ts m.2 rsr fun r j =>
        let q := roundDraw code x.sat m.1 (genAt s x (lanesOf code) ts r j) (f r j).1
        (q.1, (f r j).2 ||| q.2.1)
    (Fits s x [(x.d, code), (x.a, code)] →
      (code ∈ [0, 1, 2, 4, 5, 6] →
        gives (.vabs x) one (fun r j => (((N (A r j)).natAbs % 2 ^ w : Nat), 0)) ∧
        gives (.vneg x) one (fun r j => ((-(N (A r j)) % 2 ^ w).toNat, 0))) ∧
      (code ∈ [9, 10, 11, 12, 13] →
        gives (.vabs x) one (fun r j => (A r j % 2 ^ (w - 1), 0)) ∧ gives (.vneg x) one (fun r j => (A r j ^^^ 2 ^ (w - 1), 0)))) ∧
    (Fits s x [(x.d, code), (x.a, code), (x.b, code)] →
      (code ∈ [0, 1, 2, 4, 5, 6] →
        gives (.vadd x) two (fun r j => fitted code x.sat (N (A r j) + N (B r j))) ∧
        gives (.vsub x) two (fun r j => fitted code x.sat (N (A r j) - N (B r j))) ∧
        gives (.vmul x) two (fun r j => fitted code x.sat (N (A r j) * N (B r j))) ∧
        gives (.vmin x) two (fun r j => (if N (A r j) < N (B r j) then A r j else B r j, 0)) ∧
        gives (.vmax x) two (fun r j => (if N (A r j) < N (B r j) then B r j else A r j, 0)) ∧
        gives (.vshl x) two (fun r j => (A r j * 2 ^ (B r j % w), 0)) ∧
        gives (.vshr x) two (fun r j => ((N (A r j) / 2 ^ (B r j % w) % 2 ^ w).toNat, 0))) ∧
      (code ∈ [9, 10, 11, 12, 13] →
        rounds (.vadd x) two (fun r j => exactSum m.1 [V (A r j), V (B r j)]) ∧
        rounds (.vsub x) two (fun r j => exactSum m.1 [V (A r j), (V (B r j)).negate]) ∧
        rounds (.vmul x) two (fun r j => valMul (V (A r j)) (V (B r j))) ∧
        gives (.vmin x) two (fun r j => minMaxFp (fpFmt code) false (A r j) (B r j)) ∧
        gives (.vmax x) two (fun r j => minMaxFp (fpFmt code) true (A r j) (B r j))) ∧
      (code ∈ [0, 1, 2, 4, 5, 6, 9, 10, 11, 12, 13] →
        gives (.vand x) two (fun r j => (A r j &&& B r j, 0)) ∧ gives (.vor x) two (fun r j => (A r j ||| B r j, 0)) ∧
        gives (.vxor x) two (fun r j => (A r j ^^^ B r j, 0)))) ∧
    (Fits s x [(x.d, code), (x.a, code), (x.b, code), (x.c, code)] →
      let three := [x.d, x.a, x.b, x.c]
      (code ∈ [0, 1, 2, 4, 5, 6] → gives (.vfma x) three (fun r j => fitted code x.sat (N (A r j) * N (B r j) + N (C r j)))) ∧
      (code ∈ [9, 10, 11, 12, 13] → rounds (.vfma x) three (fun r j =>
        let p := valMul (V (A r j)) (V (B r j))
        let q := exactSum m.1 [p.1, V (C r j)]
        (q.1, p.2 ||| q.2))))

/-- R176, R177, R178, R181, R186, R187: compares into a mask register, selection, conversion, the functions, broadcasts, permutation and gather,
on operands that pass R164. -/
def Obligations.VectorSelectionResults : Prop :=
  ∀ (s : State) (x : Ext), Calm s →
    let code := x.dfmt.toNat
    let w := fmtBits code
    let L := lanesOf code
    let m := resolveMode x.rm.toNat (thr s).fpmode.toNat
    let two := [x.d, x.a, x.b]
    let A := fun r j => lane s x.a r j
    let B := fun r j => lane s x.b r j
    let gives := fun (i : Instr) (ts : List (BitVec 7)) (lanes : Nat) (im : Flags) (rsr : Bool) (f : Nat → Nat → Nat × Flags) =>
      ∃ t, exec i s = .next t ∧ Lanewise s t x lanes ts im rsr f
    code ∈ [0, 1, 2, 4, 5, 6, 9, 10, 11, 12, 13] →
    (ReadyX s x [] [x.a, x.b] → Fits s x [(x.a, code), (x.b, code)] → x.rcnt = 0 → x.d.toNat < 4 → ∃ t, exec (.vcmp x) s = .next t ∧ OnlyTiles s t (words x) ∧
      (thr t).rng = (thr s).rng ∧ (∀ k, settled t 0 k = (tget s.dev.tiles 0 k).toNat) ∧
      let r := x.row0.toNat
      let cond := fun j => cmpElem code (x.immZ.toNat % 16) (A r j) (B r j)
      let on := fun j => Active s x L [x.a, x.b] j ∧ (cond j).1 = true
      (∀ i, i < 128 → ((thr t).k x.d.toNat).getLsbD i = (if L ≤ 128 then decide (on i) else decide (on (2 * i)) && decide (on (2 * i + 1)))) ∧
      (∀ i, i < 4 → i ≠ x.d.toNat → (thr t).k i = (thr s).k i) ∧
      FlagsOf s t x (Active s x L [x.a, x.b]) 0 fun _ j => (cond j).2) ∧
    (ReadyX s x [] two → Fits s x [(x.d, code), (x.a, code), (x.b, code)] → ∃ t, exec (.vsel x) s = .next t ∧ OnlyTiles s t (words x) ∧
      (thr t).status = (thr s).status ∧ (thr t).rng = (thr s).rng ∧ (∀ i, i < 4 → (thr t).k i = (thr s).k i) ∧
      RowsWritten s t x w (fun j => j < L ∧ ∀ n ∈ two, dEcol (descOf s n) + j < dCols (descOf s n))
        fun r j => if governs ((thr s).k x.km.toNat) L j then A r j else B r j) ∧
    (ReadyX s x [] [x.d, x.a] → Fits s x [(x.d, code), (x.a, x.sfmt.toNat)] → x.sfmt.toNat ∈ [0, 1, 2, 4, 5, 6, 9, 10, 11, 12, 13] →
      let lanes := min L (lanesOf x.sfmt.toNat)
      gives (.vcvt x) [x.d, x.a] lanes m.2 (decide (m.1 = .rsr)) fun r j =>
        let v := valOf x.sfmt.toNat (A r j)
        let q := roundDraw code (x.sat && x.sfmt != x.dfmt) m.1 (genAt s x lanes [x.d, x.a] r j) v
        (q.1, (if v.signals then 0x10 else 0) ||| q.2.1)) ∧
    (ReadyX s x [] [x.d, x.a] → Fits s x [(x.d, code), (x.a, code)] → code ∈ [10, 11] →
      let exact := fun (k : Nat) (r j : Nat) =>
        let v := fnValue k (valOf code (A r j))
        ((roundFp (fpFmt code) false .rne 0 v.1).1, v.2 ||| (roundFp (fpFmt code) false .rne 0 v.1).2)
      gives (.vexp2 x) [x.d, x.a] L 0 false (exact 0) ∧ gives (.vlog2 x) [x.d, x.a] L 0 false (exact 1) ∧
      gives (.vrcp x) [x.d, x.a] L 0 false (exact 2) ∧ gives (.vrsq x) [x.d, x.a] L 0 false (exact 3)) ∧
    (ReadyX s x [] [x.d, x.a] → Fits s x [(x.d, code), (x.a, code)] → code = 9 →
      ∀ p ∈ [(Instr.vexp2 x, 0), (.vlog2 x, 1), (.vrcp x, 2), (.vrsq x, 3)], ∃ (t : State) (up : Nat → Nat → Bool), exec p.1 s = .next t ∧
        Lanewise s t x L [x.d, x.a] 0 false fun r j =>
          let v := fnValue p.2 (valOf 9 (A r j))
          let q := roundFp (fpFmt 9) false (if up r j = true then .rup else .rdn) 0 v.1
          (q.1, v.2 ||| q.2)) ∧
    (x.immZ.getLsbD 18 = false → ReadyX s x [x.a] [x.d] → Fits s x [(x.d, code)] →
      gives (.vbcst x) [x.d] L 0 false fun _ _ => ((reg s x.a).toNat % 2 ^ w, 0)) ∧
    (x.immZ.getLsbD 18 = true → ReadyX s x [] [x.d, x.a] → Fits s x [(x.d, code), (x.a, code)] →
      gives (.vbcst x) [x.d] L 0 false fun r _ =>
        let i := x.immZ.toNat % 2 ^ 8
        (if i < L ∧ dEcol (descOf s x.a) + i < dCols (descOf s x.a) then A r i else 0, 0)) ∧
    (ReadyX s x [] two → Fits s x [(x.d, code), (x.a, code), (x.b, 4)] → gives (.vperm x) two L 0 false fun r j =>
      (if B r j < L ∧ dEcol (descOf s x.a) + B r j < dCols (descOf s x.a) then A r (B r j) else 0, 0)) ∧
    (ReadyX s x [] two → Fits s x [(x.d, code), (x.a, code), (x.b, 5)] → gives (.vgather x) two L 0 false fun r j =>
      let cols := dCols (descOf s x.a)
      (if B r j < dRows (descOf s x.a) * cols then elemAt (rowOf s x.a (B r j / cols)) w (B r j % cols) else 0, 0))

namespace Sys2Proof.Say

open Sys2Proof.Machine

/-- The balanced tree over leaves that may be absent: level n, node i (R99). -/
def treeOf {α : Type} (f : α → α → α) (leaf : Nat → Option α) : Nat → Nat → Option α
  | 0, i => leaf i
  | n + 1, i =>
    match treeOf f leaf n (2 * i), treeOf f leaf n (2 * i + 1) with
    | some a, some b => some (f a b)
    | some a, none => some a
    | none, b => b

/-- The chain over the lanes below n that are active (R99). -/
def chainOf (active : Nat → Bool) (first : Nat → Nat) (next : Nat → Nat → Nat) : Nat → Option Nat
  | 0 => none
  | n + 1 => if active n then some ((chainOf active first next n).elim (first n) (next n)) else chainOf active first next n

/-- STATUS, the generator and the mask registers of the issuing thread are as they were. -/
abbrev SameFlags (s t : State) : Prop :=
  (thr t).status = (thr s).status ∧ (thr t).rng = (thr s).rng ∧ ∀ i, i < 4 → (thr t).k i = (thr s).k i

end Sys2Proof.Say

/-- R99, R182, R183: row reductions and scans: integers exactly, wrapped; floating point by the tree, in the modes that draw nothing, and by the
chain, in every mode. A row with no active lane gives 0, or the canonical NaN for a floating-point minimum or maximum. -/
def Obligations.ReductionAndScanResults : Prop :=
  ∀ (s : State) (x : Ext), ReadyX s x [] [x.d, x.a] → Calm s →
    let code := x.dfmt.toNat
    let w := fmtBits code
    let L := lanesOf code
    let m := resolveMode x.rm.toNat (thr s).fpmode.toNat
    let on := fun j => decide (Active s x L [x.a] j)
    let A := fun r j => lane s x.a r j
    let N := fun r j => num code (A r j)
    let live := (List.range L).filter on
    let root := fun (i : Instr) (f : Nat → Nat) => ∃ t, exec i s = .next t ∧ OnlyTiles s t (words x) ∧ RowsWritten s t x w (fun j => j = 0) fun r _ => f r
    Fits s x [(x.d, code), (x.a, code)] →
    (dEcol (descOf s x.d) < dCols (descOf s x.d) →
      (code ∈ [0, 1, 2, 4, 5, 6] →
        root (.vredsum x) (fun r => ((live.map (N r)).sum % 2 ^ w).toNat) ∧
        (live ≠ [] → (∃ t, exec (.vredmax x) s = .next t ∧ OnlyTiles s t (words x) ∧ SameFlags s t ∧ ∃ g : Nat → Nat,
          RowsWritten s t x w (fun j => j = 0) (fun r _ => A r (g r)) ∧ ∀ r, g r ∈ live ∧ ∀ j ∈ live, N r j ≤ N r (g r)) ∧
          (∃ t, exec (.vredmin x) s = .next t ∧ OnlyTiles s t (words x) ∧ SameFlags s t ∧ ∃ g : Nat → Nat,
          RowsWritten s t x w (fun j => j = 0) (fun r _ => A r (g r)) ∧ ∀ r, g r ∈ live ∧ ∀ j ∈ live, N r (g r) ≤ N r j)) ∧
        (live = [] → root (.vredmax x) (fun _ => 0) ∧ root (.vredmin x) (fun _ => 0))) ∧
      (code ∈ [9, 10, 11, 12, 13] →
        let leaf := fun r j => if on j then some (A r j) else none
        let pick := fun (wantMax : Bool) (r : Nat) => (treeOf (fun a b => (minMaxFp (fpFmt code) wantMax a b).1) (leaf r) 8 0).getD (fpFmt code).nan
        (m.1 ≠ .rsr → root (.vredsum x) fun r => (treeOf (fun a b => (roundFp (fpFmt code) false m.1 0 (exactSum m.1 [valOf code a, valOf code b]).1).1)
          (leaf r) 8 0).getD 0) ∧
        (m.1 = .rsr → ∃ t f, exec (.vredsum x) s = .next t ∧ OnlyTiles s t (words x) ∧ RowsWritten s t x w (fun j => j = 0) f) ∧
        root (.vredmax x) (pick true) ∧ root (.vredmin x) (pick false))) ∧
    (code ∈ [0, 1, 2, 4, 5, 6] → ∃ t, exec (.vscan x) s = .next t ∧
      Lanewise s t x L [x.d, x.a] 0 false fun r j =>
        ((((List.range (j + 1)).filter fun i => decide (Active s x L [x.d, x.a] i)).map (N r)).sum % 2 ^ w |>.toNat, 0)) ∧
    (code ∈ [9, 10, 11, 12, 13] → ∃ t, exec (.vscan x) s = .next t ∧
      let act := fun i => decide (Active s x L [x.d, x.a] i)
      let rd := fun r j v => roundDraw code false m.1 (genAt s x L [x.d, x.a] r j) v
      let start := fun r j => rd r j (valOf code (A r j))
      let sum := fun r j p => exactSum m.1 [valOf code p, valOf code (A r j)]
      let upTo := fun r n => chainOf act (fun j => (start r j).1) (fun j p => (rd r j (sum r j p).1).1) n
      Lanewise s t x L [x.d, x.a] m.2 (decide (m.1 = .rsr)) fun r j => match upTo r j with
        | none => ((start r j).1, (if (valOf code (A r j)).signals then 0x10 else 0) ||| (start r j).2.1)
        | some p => ((rd r j (sum r j p).1).1, (sum r j p).2 ||| (rd r j (sum r j p).1).2.1))

/-- R100 to R103, R179, R180: VQNT's element codes and scale bytes block by block, in the modes that draw nothing, and VDQ's elements. -/
def Obligations.QuantisationResults : Prop :=
  ∀ (s : State) (x : Ext), ReadyX s x [x.b] [x.d, x.a] → Calm s → Fits s x [(x.d, x.dfmt.toNat), (x.a, x.sfmt.toNat)] →
    let book := fun (n : BitVec 7) => bookEntries (tget s.dev.books 0 (s.dev.cur / 64 * 16 + tileOf s n.toNat)).toNat
    let m := resolveMode x.rm.toNat (thr s).fpmode.toNat
    dEcol (descOf s x.a) % 32 = 0 →
    (x.dfmt.toNat ∈ [12, 13, 14] → x.sfmt.toNat ∈ [9, 10, 11] → m.1 ≠ .rsr → dEcol (descOf s x.d) % 32 = 0 →
      dScl (descOf s x.d) = decide (x.b = 0) → (x.dfmt.toNat = 14 → dCbk (descOf s x.d) = true) →
      let L := lanesOf x.sfmt.toNat
      let on := fun j => j < L ∧ dEcol (descOf s x.d) + j < dCols (descOf s x.d) ∧ dEcol (descOf s x.a) + j < dCols (descOf s x.a)
      let scale := if x.b = 0 then none else some ((reg s x.b).toNat % 2 ^ 32)
      let block := fun r b => quantBlock x.sfmt.toNat x.dfmt.toNat scale (book x.d) m.1 (thr s).rng
        ((((List.range 32).map (32 * b + ·)).filter fun j => decide (on j)).map (lane s x.a r))
      ∃ t, exec (.vqnt x) s = .next t ∧ OnlyTiles s t (words x) ∧ (thr t).rng = (thr s).rng ∧
        RowsWritten s t x (fmtBits x.dfmt.toNat) on (fun r j => (block r (j / 32)).1.getD (j % 32) 0) ∧
        (x.b = 0 → ∀ r, x.row0.toNat ≤ r → r ≤ x.row0.toNat + x.rcnt.toNat → ∀ b, on (32 * b) →
          elemAt (settled t 1 (rowKey s x.d r)) 8 (dEcol (descOf s x.d) / 32 + b) = (block r b).2.1)) ∧
    (x.sfmt.toNat ∈ [12, 13, 14] → x.dfmt.toNat ∈ [9, 10, 11] → (x.sfmt.toNat = 14 → dCbk (descOf s x.a) = true) →
      ∃ t, exec (.vdq x) s = .next t ∧ Lanewise s t x (lanesOf x.dfmt.toNat) [x.d, x.a] 0 false fun r j =>
        dequant x.sfmt.toNat x.dfmt.toNat (book x.a)
          (if dScl (descOf s x.a) then some (elemAt (tget s.dev.scales 0 (rowKey s x.a r)).toNat 8 ((dEcol (descOf s x.a) + j) / 32)) else none)
          (lane s x.a r j))

/-- R158 to R161, R184, R185: the descriptor instructions, TZERO, TMOV and TTR. -/
def Obligations.TileDescriptorAndMoveResults : Prop :=
  (∀ (s : State) (n : BitVec 4) (d : BitVec 7) (fld : BitVec 4) (imm : BitVec 9) (lit : Word), Ready s [d] → Calm s → n.toNat < (thr s).tsize →
    fld.toNat ≤ 6 →
    let place := [(0, 64), (0, 4), (13, 6), (19, 11), (30, 10), (9, 1), (10, 1)].getD fld.toNat (0, 0)
    let key := s.dev.cur / 64 * 16 + tileOf s n.toNat
    let old := tget s.dev.descs descReset key
    let legal := fun (v : Word) => [descInRange v, decide (v.toNat < 16), decide (1 ≤ v.toNat ∧ v.toNat ≤ 32), decide (1 ≤ v.toNat ∧ v.toNat ≤ 1024),
      decide (v.toNat < 1024), decide (v.toNat < 2), decide (v.toNat < 2)].getD fld.toNat false
    let puts := fun (i : Instr) (len : Nat) (v : Word) => legal v = true → ∃ t, exec i s = .next t ∧ t.mem = s.mem ∧ t.dev.regs = s.dev.regs ∧
      thr t = { thr s with pc := (thr s).pc + BitVec.ofNat 64 (4 * len), retries := 0 } ∧
      (∀ k, tget t.dev.descs descReset k = if k = key then setBits old place.1 place.2 v.toNat else tget s.dev.descs descReset k) ∧ t.dev.tiles = s.dev.tiles
    let bad := fun (i : Instr) (v : Word) => legal v = false → Alone s → ∃ t, exec i s = .next t ∧ Trapped s t 0x21 0 ∧ t.dev.descs = s.dev.descs
    puts (.mtd n d fld imm) 1 (reg s d + BitVec.ofInt 64 imm.toInt) ∧ puts (.mtdLit n d fld lit) 3 (reg s d + lit) ∧
    bad (.mtd n d fld imm) (reg s d + BitVec.ofInt 64 imm.toInt) ∧ bad (.mtdLit n d fld lit) (reg s d + lit) ∧
    exec (.mfd n d fld) s = .next (wrote s 1 d (BitVec.ofNat 64 (old.toNat / 2 ^ place.1 % 2 ^ place.2)))) ∧
  (∀ (s : State) (n : BitVec 4) (fld : BitVec 4), Ready s [] → Calm s → n.toNat < (thr s).tsize → ∃ t, exec (.tzero n fld) s = .next t ∧
    OnlyTiles s t 1 ∧ SameFlags s t ∧
    let key := s.dev.cur / 64 * 16 + tileOf s n.toNat
    (∀ k, settled t 0 k = if fld.getLsbD 0 = true ∧ k / 32 = key then 0 else (tget s.dev.tiles 0 k).toNat) ∧
    (∀ k, settled t 1 k = if fld.getLsbD 1 = true ∧ k / 32 = key then 0 else (tget s.dev.scales 0 k).toNat) ∧
    (∀ k, settled t 2 k = if fld.getLsbD 2 = true ∧ k = key then 0 else (tget s.dev.books 0 k).toNat)) ∧
  (∀ (s : State) (x : Ext), ReadyX s x [] [x.d, x.a] → Calm s →
    let D := descOf s x.d
    let A := descOf s x.a
    let w := fmtBits (dFmt D)
    (Fits s x [(x.d, dFmt D), (x.a, dFmt D)] → (x.men = true → dFmt D ≠ 14 ∧ lanesOf (dFmt D) ≠ 0) → ∃ t, exec (.tmov x) s = .next t ∧
      OnlyTiles s t (words x) ∧ SameFlags s t ∧
      RowsWritten s t x w (fun j => j < min (dCols A - dEcol A) (dCols D - dEcol D) ∧
        (x.men = true → governs ((thr s).k x.km.toNat) (lanesOf (dFmt D)) (j % lanesOf (dFmt D)) = true)) (fun r j => lane s x.a r j)) ∧
    (Fits s x [(x.d, dFmt D), (x.a, x.dfmt.toNat)] → dCols A ≤ 32 → x.dfmt.toNat ∈ [0, 1, 2, 4, 5, 6, 9, 10, 11, 12, 13] → ∃ t, exec (.ttr x) s = .next t ∧
      t.mem = s.mem ∧ t.dev.regs = s.dev.regs ∧ (thr t).pc = (thr s).pc + BitVec.ofNat 64 (4 * words x) ∧
      settled t 3 (s.dev.cur / 64 * 16 + tileOf s x.d.toNat) = (mkDesc x.dfmt.toNat (dCols A) (dRows A) 0 false false).toNat ∧
      ∀ r c, r < dRows A → c < dCols A →
        elemAt (settled t 0 (rowKey s x.d c)) (fmtBits x.dfmt.toNat) r = elemAt (rowOf s x.a r) (fmtBits x.dfmt.toNat) c))

/-- R167 to R171: tile loads and stores of an image in the issuer's own cluster: what is read, what is written and what stays; TLDV's attempt that
meets an odd VERSION, and the retry that follows it. -/
def Obligations.TileMemoryResults : Prop :=
  ∀ (s : State) (x : Ext),
    let a := reg s x.a + offsetOf x
    let pa := place s a
    let idesc : Word := BitVec.ofNat 64 (s.mem.read (pa + 8) 8)
    let version := s.mem.read pa 8
    let last := x.row0.toNat + x.rcnt.toNat
    (ReadyX s x [x.a] [x.d] → idescOk idesc last = true → ImageHere s a (bookAt idesc + 32) →
      (∃ t, exec (.tld x) s = .next t ∧ Loaded s t x pa idesc) ∧
      (version % 2 = 0 → ∃ t, exec (.tldv x) s = .next t ∧ Loaded s t x pa idesc)) ∧
    (ReadyX s x [x.a] [x.d] → ImageHere s a 16 →
      (idescOk idesc last = false → (thr s).toGang = 0 → ∃ t, exec (.tld x) s = .next t ∧ Trapped s t 0x24 0) ∧
      ((∀ k, s.dev.kernel? (thr s).ctx (thr s).knum = some k → k.st ≠ 3 ∧ k.st ≠ 6) → version % 2 = 1 → ∃ t r, exec (.tldv x) s = .next t ∧ r ∈ t.dev.reqs ∧ r.tid = s.dev.cur ∧ r.kind = .tile (.tldv x) 4 0 1 ∧
        r.out2.toNat = ((s.dev.cluster (s.dev.cur / 512)).cycle + 32) % 2 ^ 64 ∧ 
        thr t = { thr s with retries := 1, flight := .request r.id ((thr s).pc + BitVec.ofNat 64 (4 * words x)) } ∧ t.mem = s.mem ∧ t.dev.regs = s.dev.regs ∧ t.dev.tiles = s.dev.tiles)) ∧
    (let d := descOf s x.b
     let n := x.rcnt.toNat + 1
     let r0 := x.row0.toNat
     let row := fun (r : Nat) => (tget s.dev.tiles 0 (rowKey s x.b r)).toNat
     let scale := fun (r : Nat) => (tget s.dev.scales 0 (rowKey s x.b r)).toNat
     let stored := fun (t : State) => t.dev.regs = s.dev.regs ∧ t.dev.tiles = s.dev.tiles ∧ t.dev.cur = s.dev.cur ∧
       (thr t).pc = (thr s).pc + BitVec.ofNat 64 (4 * words x) ∧ SameGranules s.mem t.mem ∧
       t.mem.read (pa + 8) 8 = (mkDesc (dFmt d) (dRows d) (dCols d) 0 (dScl d) (dCbk d)).toNat ∧
       (∀ r, r0 ≤ r → r < r0 + n → t.mem.read (pa + 64 + r * imageRow d) (imageRow d) = row r % 2 ^ (8 * imageRow d)) ∧
       (dScl d = true → ∀ r, r0 ≤ r → r < r0 + n → t.mem.read (pa + scalesAt d + r * scaleBytes d) (scaleBytes d) = scale r % 2 ^ (8 * scaleBytes d)) ∧
       (dCbk d = true → t.mem.read (pa + bookAt d) 32 = (tget s.dev.books 0 (s.dev.cur / 64 * 16 + tileOf s x.b.toNat)).toNat) ∧
       ∀ y, (y < pa ∨ pa + 16 ≤ y) → (y < pa + 64 + r0 * imageRow d ∨ pa + 64 + (r0 + n) * imageRow d ≤ y) →
         (dScl d = true → y < pa + scalesAt d + r0 * scaleBytes d ∨ pa + scalesAt d + (r0 + n) * scaleBytes d ≤ y) →
         (dCbk d = true → y < pa + bookAt d ∨ pa + bookAt d + 32 ≤ y) → t.mem.byteAt y = s.mem.byteAt y
     ReadyX s x [x.a] [x.b] → descOk d = true → last < dRows d → dRows d ≤ 32 → dCols d ≤ 1024 → ImageHere s a (bookAt d + 32) →
      (∃ t, exec (.tst x) s = .next t ∧ stored t ∧ t.mem.read pa 8 = version) ∧
      (version % 2 = 0 → ∃ t, exec (.tstAon x) s = .next t ∧ stored t ∧ t.mem.read pa 8 = (version + 2) % 2 ^ 64) ∧
      (version % 2 = 1 → (thr s).toGang = 0 → ∃ t, exec (.tstAon x) s = .next t ∧ Trapped s t 0x25 0)) ∧
    (∀ n r k next, s.dev.stopped = none → HasReq s n r → r.kind = .tile (.tldv x) 4 0 k → Awaited s r next → r.tid = s.dev.cur → r.va = a → 1 ≤ k →
      r.out2.toNat ≤ (s.dev.cluster (s.dev.cur / 512)).cycle → (∀ q ∈ s.dev.reqs, q.tid = s.dev.cur → q = r) →
      r.fail = none → idescOk idesc last = true → a.toNat % 64 = 0 → a.toNat / 2 ^ 60 = 2 → a.toNat % 2 ^ 60 + bookAt idesc + 32 ≤ 2 ^ 22 →
      (∀ o, o < bookAt idesc + 32 → inWindow (s.dev.core (s.dev.cur / 64)).cmwin (a.toNat % 2 ^ 22 + o) = true) →
      s.mem.anyPoison pa (bookAt idesc + 32) = false → s.boot.hasCluster (s.dev.cur / 512) = true → (thr s).live = true → s.dev.split = false →
      version % 2 = 0 → ∃ t, exec (.tldvRetry n) s = .next t ∧ Completed t s.dev.cur next ∧ (thr t).retries = 0 ∧ descOf t x.d = idesc ∧ t.mem = s.mem ∧
        ∀ i, x.row0.toNat ≤ i → i ≤ last → (tget t.dev.tiles 0 (rowKey s x.d i)).toNat % 2 ^ (8 * imageRow idesc) =
          s.mem.read (pa + 64 + i * imageRow idesc) (imageRow idesc))

namespace Sys2Proof.Say

open Sys2Proof.Machine

/-- The issuing core. -/
abbrev here (s : State) : Nat := s.dev.cur / 64

/-- The issuing thread is the gang thread of an ACTIVE gang of one core that has nothing in flight. -/
abbrev Solo (s : State) (g : Gang) : Prop :=
  tfind s.dev.gangs (here s) = some g ∧ s.dev.gangFor s.dev.cur false = some (here s, g) ∧ s.dev.gangFor s.dev.cur true = some (here s, g) ∧
    g.n = 1 ∧ g.st = 2 ∧ g.arrivals = [] ∧ g.mmas = [] ∧ g.threads = [(0, s.dev.cur)] ∧ s.dev.split = false ∧ s.dev.cur % 64 ≠ 63 ∧
    (∀ r ∈ s.dev.reqs, r.tid ≠ s.dev.cur ∧ r.id ≠ s.dev.fresh)

/-- The issuing thread has passed an instruction of so many words; memory and registers are as they were. -/
def Past (s t : State) (len : Nat) : Prop :=
  (thr t).pc = (thr s).pc + BitVec.ofNat 64 (4 * len) ∧ (thr t).flight = .none ∧ (thr t).st = (thr s).st ∧ t.mem = s.mem ∧ t.dev.regs = s.dev.regs ∧
    t.dev.cur = s.dev.cur

/-- A word of an accumulator register of the issuing core. -/
abbrev acc (s : State) (a row col : Nat) : BitVec 32 := tget s.dev.accs 0 (accKey (here s) a row col)

/-- The epilogue of MDRAIN: its literal, or IMM19 (R60, R201). -/
abbrev epilogueOf (x : Ext) : Word :=
  match x.lit with
  | some v => v
  | none => x.imm.setWidth 64

/-- An instance of a gang-issued instruction waits at its barrier (R191). -/
def Waiting (s t : State) (head : Nat) (i : Instr) (len : Nat) : Prop :=
  (thr t).flight = .gang ((thr s).pc + BitVec.ofNat 64 (4 * len)) ∧ (thr t).pc = (thr s).pc ∧ t.mem = s.mem ∧ t.dev.regs = s.dev.regs ∧
    t.dev.accs = s.dev.accs ∧ ∃ g h e, tfind s.dev.gangs head = some g ∧ tfind t.dev.gangs head = some h ∧ h.arrivals = g.arrivals ++ [e] ∧
      e.tid = s.dev.cur ∧ e.instr = i ∧ e.guard = true ∧ e.pos = chainLin (here s) - chainLin head ∧ h.st = g.st ∧ h.mmas = g.mmas

end Sys2Proof.Say

/-- R189, R192, R193, R196, R197, R203: MGANG of one core forms an ACTIVE gang with a zero slice, MGANG of more waits in a FORMING one, a bad
operand traps; MLEAVE of a gang of one core with nothing outstanding ends it; MSTAT reads the state. -/
def Sys2Proof.Say.GangFormation : Prop :=
  ∀ (s : State) (x : Ext),
    let core := here s
    let v := reg s x.a
    let n := v.toNat % 64
    let pos := v.toNat / 256 % 64
    (∀ k, ReadyX s x [x.a] [] → s.dev.split = false → s.dev.cur % 64 < 56 → s.dev.gangOf s.dev.cur = none → (thr s).tsize ≠ 0 → s.dev.kernel? (thr s).ctx (thr s).knum = some k →
      (∀ e ∈ s.dev.gangs, core ∉ gangCores e.1 e.2.n ∧ ∀ p ∈ e.2.threads, p.2 / 64 ≠ core) → tfind s.dev.gangs core = none →
      (v = 1 → core ∈ k.cores → ∃ t, exec (.mgang x) s = .next t ∧ Past s t (words x) ∧
        (∃ g, tfind t.dev.gangs core = some g ∧ g.n = 1 ∧ g.st = 2 ∧ g.ctx = (thr s).ctx ∧ g.knum = (thr s).knum ∧ g.arrivals = [] ∧ g.mmas = [] ∧
          g.threads = [(0, s.dev.cur)]) ∧
        t.dev.slice core = {} ∧ t.dev.bank core 0 = {} ∧ t.dev.bank core 1 = {} ∧ (∀ a r c, a < 4 → r < 32 → c < 8 → acc t a r c = 0) ∧
        (t.dev.cluster (core / 8)).lock = true) ∧
      (2 ≤ n → n ≤ 48 → v.toNat = n → chainLin core / 48 = (chainLin core + n - 1) / 48 → (∀ c ∈ gangCores core n, c ∈ k.cores) → s.dev.gangs = [] →
        ∃ t, exec (.mgang x) s = .next t ∧ (thr t).flight = .gang ((thr s).pc + BitVec.ofNat 64 (4 * words x)) ∧ t.mem = s.mem ∧ t.dev.regs = s.dev.regs ∧
          ∃ g e, tfind t.dev.gangs core = some g ∧ g.st = 1 ∧ g.n = n ∧ g.arrivals = [e] ∧ e.tid = s.dev.cur ∧ e.pos = 0 ∧
            (x.lit = none → g.timeout = x.imm.toNat)) ∧
      ((n = 0 ∨ 48 < n ∨ n ≤ pos ∨ 2 ^ 14 ≤ v.toNat) → (thr s).toGang = 0 → ∃ t, exec (.mgang x) s = .next t ∧ Trapped s t 0x28 0)) ∧
    (∀ g, ReadyX s x [] [] → Solo s g → (∀ r ∈ s.dev.reqs, ∀ b i p q, r.kind ≠ .weights core b i p q) →
      (∀ r ∈ s.dev.reqs, ∀ a b c d e f i j k, r.kind ≠ .chunks core a b c d e f i j k) → (∀ e ∈ s.dev.gangs, e.1 ≠ core → e.2.st = 1) →
      ∃ t, exec (.mleave x) s = .next t ∧ Past s t (words x) ∧ tfind t.dev.gangs core = none ∧ t.dev.slice core = {} ∧ t.dev.bank core 0 = {} ∧
        t.dev.bank core 1 = {} ∧ (∀ a r c, a < 4 → r < 32 → c < 8 → acc t a r c = 0) ∧ (t.dev.cluster (core / 8)).lock = false ∧
        (thr t).status = (thr s).status ||| (ofMflags (s.dev.slice core).mflags).setWidth 64) ∧
    (ReadyX s x [x.d] [] → s.dev.gangs = [] →
      let z := s.dev.slice core
      let a := s.dev.bank core (if z.act then 1 else 0)
      let h := s.dev.bank core (if z.act then 0 else 1)
      exec (.mstat x) s = .next (wrote s (words x) x.d (BitVec.ofNat 64 ((if z.act then 2 ^ 43 else 0) + h.st * 2 ^ 41 + a.wf * 2 ^ 37 + z.mflags.toNat * 2 ^ 32 +
        a.valid.toNat * 2 ^ 16 + (if a.sealed then 2 ^ 15 else 0) + (if h.sealed then 2 ^ 14 else 0) + z.rows * 2 ^ 8))))

/-- R193, R198 to R202: in a gang of one core: WLD fills the shadow bank from an image of its own cluster, WSWAP exchanges the banks, MMA adds
products to accumulator rows with one rounding, MDRAIN writes a tile through its epilogue, MZERO clears an accumulator register. -/
def Obligations.MatrixResults : Prop :=
  ∀ (s : State) (x : Ext) (g : Gang), Solo s g → Calm s →
    let core := here s
    let active := s.dev.active core
    let shadow := s.dev.shadow core
    let sameAccs := fun (t : State) => t.dev.accs = s.dev.accs
    (ReadyX s x [x.d, x.a] [] →
      let v := reg s x.d
      let a := reg s x.a + offsetOf x
      let first := v.toNat % 16
      let count := v.toNat / 16 % 32
      let ke := v.toNat / 2 ^ 9 % 4
      let cb := 256 * 2 ^ ke * fmtBits x.dfmt.toNat / 8
      let scl := v.getLsbD 11
      let sb := 256 * 2 ^ ke / 32
      let bytes := count * 8 * cb + if scl then count * 8 * sb else 0
      let book := (bytes + 15) / 16 * 16
      x.dfmt.toNat ∈ [10, 11, 12, 13, 14] → v.toNat < 2 ^ 12 → ke ≠ 3 → 1 ≤ count → first + count ≤ 16 → cb ≤ 512 → (scl = true → 12 ≤ x.dfmt.toNat) →
      ImageHere s a (if x.dfmt.toNat = 14 then book + 32 else bytes) →
      ∃ t, exec (.wld x) s = .next t ∧ Past s t (words x) ∧ sameAccs t ∧
        let k := t.dev.bank core shadow
        k.st = 2 ∧ k.wf = x.dfmt.toNat ∧ k.ke = ke ∧ k.scl = scl ∧ k.valid = BitVec.ofNat 16 ((2 ^ count - 1) * 2 ^ first) ∧ k.sealed = false ∧ k.epi = false ∧
        (∀ i, i < count * 8 → (tget k.data 0 (first * 8 + i)).toNat = s.mem.read (place s a + i * cb) cb) ∧
        (scl = true → ∀ i, i < count * 8 → (tget k.scales 0 (first * 8 + i)).toNat = s.mem.read (place s a + count * 8 * cb + i * sb) sb) ∧
        (x.dfmt.toNat = 14 → k.book.toNat = s.mem.read (place s a + book) 32) ∧
        t.dev.bank core active = s.dev.bank core active) ∧
    (ReadyX s x [] [] → (s.dev.bank core shadow).st = 2 → ∃ t, exec (.wswap x) s = .next t ∧ Past s t (words x) ∧ sameAccs t ∧
      t.dev.slice core = { s.dev.slice core with act := !(s.dev.slice core).act } ∧ t.dev.banks = s.dev.banks) ∧
    (ReadyX s x [] [x.a] → Fits s x [(x.a, x.sfmt.toNat)] → (x.sfmt.toNat = 14 → dCbk (descOf s x.a) = true) → x.d.toNat < 4 →
      x.row0.toNat + x.rcnt.toNat < 32 → bankServes s.dev core x.sfmt.toNat x.b.toNat = true →
      let n := dCols (descOf s x.a)
      let book := bookEntries (tget s.dev.books 0 (core * 16 + tileOf s x.a.toNat)).toNat
      let elem := fun (r j : Nat) => (mmaElem (acc s x.d.toNat r j)
        (actRow x.sfmt.toNat n (dScl (descOf s x.a)) book (rowOf s x.a r) (tget s.dev.scales 0 (rowKey s x.a r)).toNat)
        (weightCol (s.dev.bank core active) x.b.toNat j n)).1
      ∃ t, exec (.mma x) s = .next t ∧ Past s t (words x) ∧ t.dev.tiles = s.dev.tiles ∧ t.dev.banks = s.dev.banks ∧
        (∀ r j, x.row0.toNat ≤ r → r ≤ x.row0.toNat + x.rcnt.toNat → j < 8 → acc t x.d.toNat r j = elem r j) ∧
        ∀ k, (∀ r j, x.row0.toNat ≤ r → r ≤ x.row0.toNat + x.rcnt.toNat → j < 8 → k ≠ accKey core x.d.toNat r j) →
          tget t.dev.accs 0 k = tget s.dev.accs 0 k) ∧
    (let w := epilogueOf x
     let e : BitVec 7 := BitVec.ofNat 7 (w.toNat / 128 % 16)
     let uses := w.getLsbD 3 || w.getLsbD 4
     let D := descOf s x.d
     let E := descOf s e
     ReadyX s x [] (x.d :: if uses then [e] else []) → Fits s x [(x.d, x.dfmt.toNat)] → x.dfmt.toNat ∈ [9, 10, 11, 12, 13] → dEcol D + 8 ≤ dCols D →
     x.a.toNat < 4 → x.row0.toNat + x.rcnt.toNat < 32 →
     (uses = true → descOk E = true ∧ dFmt E = 9 ∧ 2 ≤ dRows E ∧ dEcol E + 8 ≤ dCols E) →
     (epiIdentity x = true → (s.dev.bank core active).epi = false ∧ (s.dev.slice core).tags.getLsbD x.a.toNat = false) →
     let m := resolveMode x.rm.toNat (thr s).fpmode.toNat
     let gen := fun (r j : Nat) => (thr s).rng + BitVec.ofNat 64 ((r - x.row0.toNat) * 8 + j) * 0x9E3779B97F4A7C15
     ∃ t, exec (.mdrain x) s = .next t ∧ Past s t (words x) ∧ (t.dev.slice core).mflags = 0 ∧
       (∀ r j, x.row0.toNat ≤ r → r ≤ x.row0.toNat + x.rcnt.toNat → j < 8 →
         elemAt (tget t.dev.tiles 0 (rowKey s x.d r)).toNat (fmtBits x.dfmt.toNat) (dEcol D + j) =
           (drainElem x m.1 (acc s x.a.toNat r j).toNat (elemAt (rowOf s e 0) 32 (dEcol E + j)) (elemAt (rowOf s e 1) 32 (dEcol E + j))
             (lane s x.d r j) (gen r j)).1 % 2 ^ fmtBits x.dfmt.toNat) ∧
       (∀ a r j, r < 32 → j < 8 → acc t a r j = if w.getLsbD 6 = true ∧ a = x.a.toNat ∧ x.row0.toNat ≤ r ∧ r ≤ x.row0.toNat + x.rcnt.toNat then 0
         else acc s a r j)) ∧
    (ReadyX s x [] [] → x.d.toNat < 4 → ∃ t, exec (.mzero x) s = .next t ∧ Past s t (words x) ∧ t.dev.tiles = s.dev.tiles ∧
      (t.dev.slice core).tags = (s.dev.slice core).tags &&& ~~~(1#4 <<< x.d.toNat) ∧
      ∀ a r j, r < 32 → j < 8 → acc t a r j = if a = x.d.toNat then 0 else acc s a r j)

/-- R190, R191, R192, R195, R196, R437: the barrier: who is outside a gang traps; who is not the last waits; a full barrier compares the
instructions and the guards and then acts, completing every instance; the limit on MGANG. -/
def Sys2Proof.Say.GangBarrier : Prop :=
  (∀ (s : State) (x : Ext), Alone s → s.dev.gangOf s.dev.cur = none →
    let w := epilogueOf x
    let e : BitVec 7 := BitVec.ofNat 7 (w.toNat / 128 % 16)
    ∀ i ∈ [(Instr.mleave x, [], []), (.wld x, [x.d, x.a], []), (.wswap x, [], []), (.mma x, [], [x.a]), (.mzero x, [], []), (.wlds x, [x.d, x.a, x.b], []),
      (.mdrain x, [], x.d :: if w.getLsbD 3 || w.getLsbD 4 then [e] else [])],
    ReadyX s x i.2.1 i.2.2 → ∃ t, exec i.1 s = .next t ∧ Trapped s t 0x26 0) ∧
  (∀ (s : State) (x : Ext) (head : Nat) (g : Gang), ReadyX s x [] [x.a] → s.dev.gangFor s.dev.cur false = some (head, g) →
    s.dev.gangFor s.dev.cur true = some (head, g) → tfind s.dev.gangs head = some g → g.st = 2 → g.mmas = [] →
    g.arrivals.length + 1 < g.n →
    (∃ t, exec (.mleave x) s = .next t ∧ Waiting s t head (.mleave x) (words x)) ∧
    (∃ t, exec (.mma x) s = .next t ∧ Waiting s t head (.mma x) (words x)) ∧
    (∃ t, exec (.mzero x) s = .next t ∧ Waiting s t head (.mzero x) (words x)) ∧
    ((s.dev.bank (here s) (s.dev.shadow (here s))).st ≠ 1 → ∃ t, exec (.wswap x) s = .next t ∧ Waiting s t head (.wswap x) (words x))) ∧
  (∀ (s : State) (head : Nat) (g : Gang), s.dev.stopped = none → tfind s.dev.gangs head = some g → g.arrivals.length = g.n → g.n ≠ 0 →
    (∃ a ∈ g.arrivals, a.pos = 0) → (g.arrivals.map Arrival.tid).Nodup → (∀ a ∈ g.arrivals, ∃ next, (s.dev.thread a.tid).flight = .gang next) →
    (∀ a ∈ g.arrivals, a.tid % 64 ≠ 63 ∧ (s.dev.thread a.tid).toGang = 0) →
    (g.st = 2 → (∀ a ∈ g.arrivals, ∀ b ∈ g.arrivals, a.instr = b.instr) →
      ((∀ a ∈ g.arrivals, a.guard = false) → ∃ t, exec (.gangBarrierRelease head) s = .next t ∧ t.mem = s.mem ∧ t.dev.accs = s.dev.accs ∧
        (∃ h, tfind t.dev.gangs head = some h ∧ h.arrivals = []) ∧
        ∀ a ∈ g.arrivals, ∀ next, (s.dev.thread a.tid).flight = .gang next → Completed t a.tid next) ∧
      (∀ x, x.d.toNat < 4 → g.mmas = [] → (∀ a ∈ g.arrivals, a.guard = true ∧ a.instr = .mzero x) →
        ∃ t, exec (.gangBarrierRelease head) s = .next t ∧ t.mem = s.mem ∧
          (∀ a ∈ g.arrivals, ∀ r j, r < 32 → j < 8 → tget t.dev.accs 0 (accKey (a.tid / 64) x.d.toNat r j) = 0) ∧
          ∀ a ∈ g.arrivals, ∀ next, (s.dev.thread a.tid).flight = .gang next → Completed t a.tid next)) ∧
    (g.st = 2 ∨ g.st = 1 → (∃ a ∈ g.arrivals, ∃ b ∈ g.arrivals, b.pos = 0 ∧ a.instr ≠ b.instr) → (g.arrivals.map Arrival.pos).Nodup →
      ∃ t, exec (.gangBarrierRelease head) s = .next t ∧ t.mem = s.mem ∧
        ∀ a ∈ g.arrivals, (t.dev.thread a.tid).faultInfo.toNat % 2 ^ 16 = 0x29 ∧ (t.dev.thread a.tid).pc = (s.dev.thread a.tid).pc)) ∧
  (∀ (s : State) (head : Nat) (g : Gang) (m : Mma), s.dev.stopped = none → tfind s.dev.gangs head = some g → g.mmas = [m] → m.begun = true →
    ∃ t, exec (.mmaComplete head) s = .next t ∧ t.mem = s.mem ∧ t.dev.threads = s.dev.threads ∧
      (∃ h, tfind t.dev.gangs head = some h ∧ h.mmas = [] ∧ h.arrivals = g.arrivals) ∧
      (∀ k v, tfind m.res k = some v → rising (m.res.map Prod.fst) = true → tget t.dev.accs 0 k = v) ∧
      ∀ k, tfind m.res k = none → tget t.dev.accs 0 k = tget s.dev.accs 0 k) ∧
  (∀ (s : State) (head : Nat) (g : Gang) (m : Mma) (x : Ext), s.dev.stopped = none → tfind s.dev.gangs head = some g → g.mmas = [m] → m.begun = false →
    m.instr = .mma x → (g.threads.map Prod.snd).Nodup → ∃ t, exec (.mmaBegin head) s = .next t ∧ t.mem = s.mem ∧ t.dev.accs = s.dev.accs ∧
      (∃ h n, tfind t.dev.gangs head = some h ∧ h.mmas = [n] ∧ n.begun = true ∧ n.acc = m.acc ∧ n.instr = m.instr) ∧
      ∀ p ∈ g.threads, ∀ next, (s.dev.thread p.2).flight = .gang next → Completed t p.2 next) ∧
  (∀ (s : State) (head : Nat) (g : Gang), s.dev.stopped = none → tfind s.dev.gangs head = some g → g.st = 1 → g.timeout ≠ 0 →
    g.arrivals.length < g.n → (g.arrivals.map Arrival.tid).Nodup → (∀ a ∈ g.arrivals, a.tid % 64 ≠ 63 ∧ (s.dev.thread a.tid).toGang = 0) →
    ∃ t, exec (.mgangTimeout head) s = .next t ∧ tfind t.dev.gangs head = none ∧ t.mem = s.mem ∧
      ∀ a ∈ g.arrivals, (t.dev.thread a.tid).faultInfo = 0x10028 ∧ (t.dev.thread a.tid).pc = (s.dev.thread a.tid).pc)

/-- R188 to R192, R206: how gangs form, and their barrier. -/
def Obligations.GangsFormAndMeetAtTheirBarrier : Prop := GangFormation ∧ GangBarrier

namespace Sys2Proof.Say

open Sys2Proof.Machine

/-- The translation of a sealed access of the issuing thread gives these granules and changes nothing (R351, R384). -/
abbrev SealedAt (b : Boot) (l : Live) (a : Word) (offs : List (Nat × Nat)) (ps : List Part) : Prop :=
  locateSealed b l l.myCore l.myCtx a offs = .all l ps

/-- A sealed address: path 0x6, 64-byte aligned, 48 bits (R356). -/
abbrev SealedAddr (a : Word) : Prop := a.toNat / 2 ^ 60 = 6 ∧ a.toNat % 64 = 0 ∧ a.toNat % 2 ^ 60 < 2 ^ 48

/-- The header that parts hold. -/
abbrev headerOf (s : State) (ps : List Part) : SealHeader := ⟨joinParts (ps.map fun p => { p with v := s.mem.read p.pa p.n })⟩

/-- The load of a core that a step of the weight-load channel takes up. -/
abbrev LoadOf (s : State) (core : Nat) (r : Req) : Prop :=
  s.dev.reqs.find? (fun r => !r.unreleased && (match r.kind with
    | .chunks c _ _ _ _ _ _ _ _ _ => c == core
    | _ => false)) = some r

end Sys2Proof.Say

/-- R353 to R358, R361, R198: WLDS in a gang of one core makes its shadow bank LOADING and SEALED with the header's fields, and a header that
fails traps; SRQ reads the plain fields; the weight-load channel's steps make a bank READY or FAILED. -/
def Obligations.SealedWeightResults : Prop :=
  (∀ (s : State) (x : Ext) (hp : List Part), SealedAddr (reg s x.a + offsetOf x) →
    let a := reg s x.a + offsetOf x
    let v := reg s x.d
    let first := v.toNat % 16
    let count := v.toNat / 16 % 32
    let kslot := v.toNat / 2 ^ 9 % 4
    let step0 := v.toNat / 2 ^ 16
    let h := headerOf s hp
    let l := s.live.onTh fun t => { t with toGang := 2 }
    let shadow := s.dev.shadow (here s)
    ReadyX s x [x.d, x.a, x.b] [] → v.toNat < 2 ^ 48 → v.toNat / 2 ^ 11 % 32 = 0 → 1 ≤ count → first + count ≤ 16 → SealedAt s.boot l a (granulesOf 0 128) hp →
    (∀ p ∈ hp, s.mem.anyPoison p.pa p.n = false) →
    (∀ g key ps, Solo s g → s.dev.pendingAccess s.dev.cur = false → tfind (s.dev.ctx (s.dev.ctxOf s.dev.cur)).keyW kslot = some key →
      headerFault h key v (reg s x.b) = none → SealedAt s.boot l a (chunkGranules h.nstep (reg s x.b).toNat step0 count) ps → hp.length = 8 →
      ∃ t r, exec (.wlds x) s = .next t ∧ Past s t (words x) ∧
        let k := t.dev.bank (here s) shadow
        k.st = 1 ∧ k.sealed = true ∧ k.wf = h.fmt ∧ k.ke = h.kec ∧ k.scl = h.scl ∧ k.epi = h.epi ∧ k.valid = 0 ∧
        r ∈ t.dev.reqs ∧ r.tid = s.dev.cur ∧ r.kind = .chunks (here s) shadow false kslot first count step0 h.nstep (reg s x.b).toNat a) ∧
    (∀ key d e, (thr s).toGang = 0 → s.dev.gangFor s.dev.cur false = some e → e.2.arrivals = [] → e.2.st = 2 → s.dev.cur % 64 ≠ 63 →
      tfind (s.dev.ctx (s.dev.ctxOf s.dev.cur)).keyW kslot = some key →
      headerFault h key v (reg s x.b) = some d → ∃ t, exec (.wlds x) s = .next t ∧ Trapped s t 0x68 d)) ∧
  (∀ (s : State) (x : Ext) (ps : List Part), ReadyX s x [x.d, x.a] [] → SealedAddr (reg s x.a) → s.dev.pendingAccess s.dev.cur = false →
    SealedAt s.boot s.live (reg s x.a) (granulesOf 0 32) ps → (∀ p ∈ ps, s.mem.anyPoison p.pa p.n = false) →
    let h := headerOf s ps
    let keys := (s.dev.ctx (s.dev.ctxOf s.dev.cur)).keyW.foldl (fun m e => m + 2 ^ e.1) 0
    exec (.srq x) s = .next (wrote s (words x) x.d (BitVec.ofNat 64 (keys % 16 * 2 ^ 60 + (if h.epi then 2 ^ 59 else 0) + (if h.scl then 2 ^ 58 else 0) +
      h.kec % 4 * 2 ^ 56 + h.fmt % 16 * 2 ^ 52 + (if h.fieldsOk then 2 ^ 51 else 0) + h.ncb * 2 ^ 32 + h.nstep)))) ∧
  (∀ (s : State) (core bank first count : Nat) (r : Req) (x : Ext), s.dev.stopped = none →
    s.dev.reqs.find? (fun r => !r.unreleased && r.parts.all Part.done && (match r.kind with
      | .weights c _ _ _ _ => c == core
      | _ => false)) = some r → r.kind = .weights core bank (.wld x) first count →
    (r.fail = none → ∃ t, exec (.wldReadsDone core) s = .next t ∧ Gone t r.id ∧ t.mem = s.mem ∧ t.dev.threads = s.dev.threads ∧
      t.dev.bank core bank = fillBank (s.dev.bank core bank) x.dfmt.toNat r.out r.parts ∧ (t.dev.bank core bank).st = 2) ∧
    (∀ f, r.fail = some f → ∃ t a, exec (.wldReadsDone core) s = .next t ∧ Gone t r.id ∧ t.mem = s.mem ∧
      t.dev.bank core bank = { st := 3, held := some (f.1, a) })) ∧
  (∀ (s : State) (core bank kslot first count step0 nstep blk : Nat) (base : Word) (r : Req), s.dev.stopped = none → LoadOf s core r →
    r.kind = .chunks core bank false kslot first count step0 nstep blk base →
    let c := r.out2.toNat
    let ps := (r.parts.drop (8 + 35 * c)).take 35
    let h : SealHeader := ⟨joinParts (r.parts.take 8)⟩
    let n := chunkNo nstep blk (step0 + c / 8) (c % 8)
    let bytes := joinParts ps
    ps.all Part.done = true → (r.parts.take 8).all Part.done = true → (r.parts.take 8).any Part.bad = false → ps.any Part.bad = false →
    (tfind (s.dev.ctx r.ctx).keyW kslot = none → ∃ t, exec (.weightChunkVerify core) s = .next t ∧ Gone t r.id ∧ t.mem = s.mem ∧
      t.dev.bank core bank = { st := 3, held := some (0x69, base + BitVec.ofNat 64 (128 + 576 * n)) }) ∧
    ∀ key, tfind (s.dev.ctx r.ctx).keyW kslot = some key →
      let opened := gcmOpen (leBytes key.toNat 32) (h.iv n) (leBytes (h.field 0 64) 64) (leBytes bytes 544) (leBytes (bytes / 2 ^ (8 * 544)) 16)
      (opened = none → ∃ t, exec (.weightChunkVerify core) s = .next t ∧ Gone t r.id ∧ t.mem = s.mem ∧
        t.dev.bank core bank = { st := 3, held := some (0x69, base + BitVec.ofNat 64 (128 + 576 * n)) }) ∧
      ∀ pt, opened = some pt → c < 8 * count → ∃ t, exec (.weightChunkVerify core) s = .next t ∧ t.mem = s.mem ∧
        (tget (t.dev.bank core bank).data 0 (first * 8 + c)).toNat = ofLe pt % 2 ^ 4096 ∧
        (tget (t.dev.bank core bank).scales 0 (first * 8 + c)).toNat = ofLe pt / 2 ^ 4096 % 2 ^ 256 ∧
        (c + 1 = 8 * count → (t.dev.bank core bank).st = 2 ∧ Gone t r.id ∧
          (t.dev.bank core bank).valid = BitVec.ofNat 16 ((2 ^ count - 1) * 2 ^ first)) ∧
        (c + 1 < 8 * count → count ≤ 16 → (t.dev.bank core bank).st = (s.dev.bank core bank).st ∧
          (t.dev.bank core bank).valid = (s.dev.bank core bank).valid ∧ ∃ q ∈ t.dev.reqs, q.id = r.id ∧ q.out2.toNat = c + 1))

namespace Sys2Proof.Say

open Sys2Proof.Machine

/-- The relay service takes a request to the connection manager from the issuing thread now (R40, R278). -/
abbrev CanAsk (s : State) : Prop := s.live.sendBlocked (thr s).ctx (.gateway 1 38) (cmPath s.boot s.live) = none

/-- A circuit instruction has sent its request to the connection manager and completed: the presence bit of its register is clear (R278, R289). -/
def AsksCm (s t : State) (len op : Nat) (a lim : Word) (cnum : Nat) (d : BitVec 7) : Prop :=
  ∃ r m, t.dev.reqs = s.dev.reqs ++ [r] ∧ r.id = s.dev.fresh ∧ r.kind = .circuit op a lim cnum d.toNat 0 ∧ r.tid = s.dev.cur ∧ r.dest = .gateway 1 38 ∧
    r.stage = .going ∧ t.dev.msgs = s.dev.msgs ++ [m] ∧ m.req = r.id ∧ t.mem = s.mem ∧ t.dev.regs = s.dev.regs ∧
    (thr t).pc = (thr s).pc + BitVec.ofNat 64 (4 * len) ∧ (d ≠ 0 → (thr t).lacks d.toNat = true)

/-- A circuit handle whose record the issuing thread's NI holds (R277, R289). -/
abbrev NamesCopy (s : State) (h : Word) (c : NiCopy) : Prop :=
  h.getLsbD 63 = true ∧ handleReserved h = false ∧ h.toNat % 256 = s.dev.cur / 512 ∧ tfind s.dev.copies (h.toNat / 2 ^ 20 % 2 ^ 12) = some c ∧
    c.gen = h.toNat / 2 ^ 40 % 2 ^ 16 ∧ c.ctx = (thr s).ctx ∧ c.cluster = s.dev.cur / 512

/-- A limits word without reserved bits, and its fields in range (R289). -/
abbrev Limits (v : Word) (n maxlat win : Nat) : Prop :=
  v.toNat = n + maxlat * 2 ^ 16 + win * 2 ^ 32 ∧ 1 ≤ n ∧ n ≤ 8192 ∧ maxlat < 2 ^ 16 ∧ win ≤ 88

/-- A flit of the fabric. -/
abbrev HasFlit (s : State) (n : Nat) (f : Flit) : Prop := s.dev.flits.find? (fun x => x.id == n) = some f

/-- Configuration traffic of the connection manager. -/
abbrev HasCfg (s : State) (n : Nat) (m : CfgMsg) : Prop := s.dev.cfg.find? (fun x => x.id == n && x.at_ == x.dest) = some m

/-- A circuit record. -/
abbrev circ (s : State) (n : Nat) : Circuit := tget s.dev.circuits {} n

/-- A record of this cause is in a collector's queue (R417). -/
abbrev Recorded (t : State) (c cause : Nat) : Prop := ∃ r ∈ (t.dev.collector c).queue, r.cause = cause

/-- The wheel has started (R33). -/
abbrev Turning (s : State) : Prop := s.boot.whldesc.getLsbD 63 = true

end Sys2Proof.Say

/-- R277, R278, R289: COPEN, CRESIZE and CCLOSE send their request to the connection manager and complete; CQUERY reads the NI's copy; the
circuit trap, cause 0xC0, tells a bad operand, a bad handle, an empty endpoint entry and a full NI; the answer writes the register. -/
def Obligations.CircuitInstructionResults : Prop :=
  (∀ (s : State) (x : Ext),
    let a := reg s x.a
    let v := reg s x.b
    let entry := s.live.endpoint (thr s).ctx (s.dev.cur / 512) (a.toNat % 64)
    let held := (s.dev.copies.filter fun c => c.2.cluster == s.dev.cur / 512).length + (s.dev.reqs.filter fun r => r.src == s.dev.cur / 512 && (match r.kind with
      | .circuit 0 _ _ _ _ _ => true
      | _ => false)).length
    let traps := fun (i : Instr) (d : Nat) => Alone s → ∃ t, exec i s = .next t ∧ Trapped s t 0xC0 d
    (ReadyX s x [x.d, x.a, x.b] [] →
      (∀ n maxlat win, Limits v n maxlat win → a.toNat < 2 ^ 18 → a.toNat / 64 % 4 = 0 →
        (entry.getLsbD 63 = false ∨ 4 ≤ entry.toNat / 2 ^ 52 % 16 → traps (.copen x) 3) ∧
        (entry.getLsbD 63 = true → entry.toNat / 2 ^ 52 % 16 < 4 →
          (win ≠ 0 → entry.toNat / 2 ^ 52 % 16 ≠ 1 → traps (.copen x) 1) ∧
          ((win = 0 ∨ entry.toNat / 2 ^ 52 % 16 = 1) →
            (64 ≤ held → traps (.copen x) 4) ∧
            (held < 64 → CanAsk s → ∃ t, exec (.copen x) s = .next t ∧ AsksCm s t (words x) 0 a v 0 x.d)))) ∧
      (2 ^ 18 ≤ a.toNat ∨ a.toNat / 64 % 4 ≠ 0 ∨ 2 ^ 40 ≤ v.toNat ∨ v.toNat % 2 ^ 14 = 0 ∨ 8192 < v.toNat % 2 ^ 14 → traps (.copen x) 1)) ∧
    (ReadyX s x [x.a, x.b] [] →
      (∀ c n maxlat, NamesCopy s a c → Limits v n maxlat 0 → CanAsk s →
        ∃ t, exec (.cresize x) s = .next t ∧ AsksCm s t (words x) 1 a v (a.toNat / 2 ^ 20 % 2 ^ 12) x.a) ∧
      (a.getLsbD 63 = false → handleReserved a = false → ∀ n maxlat win, Limits v n maxlat win → traps (.cresize x) 2)) ∧
    (ReadyX s x [x.a] [] →
      (∀ c, NamesCopy s a c → CanAsk s → ∃ t, exec (.cclose x) s = .next t ∧ AsksCm s t (words x) 2 a 0 (a.toNat / 2 ^ 20 % 2 ^ 12) x.a) ∧
      (a.getLsbD 63 = false → handleReserved a = false → traps (.cclose x) 2) ∧ (handleReserved a = true → traps (.cclose x) 1)) ∧
    (ReadyX s x [x.d, x.a] [] →
      (∀ c, NamesCopy s a c → exec (.cquery x) s = .next (wrote s (words x) x.d (BitVec.ofNat 64
        (c.st * 2 ^ 60 + c.fcause * 2 ^ 56 + c.slots.length * 2 ^ 32 + c.lat * 2 ^ 16 + maxGap s.boot.wheel c.slots)))) ∧
      (a.getLsbD 63 = false → handleReserved a = false → traps (.cquery x) 2))) ∧
  (∀ (s : State) (n : Nat) (r : Req) (op : Nat) (a lim : Word) (cnum dst : Nat), s.dev.stopped = none → HasReq s n r →
    r.kind = .circuit op a lim cnum dst 0 → op ≤ 2 → Came s r true → r.reported = false → (s.dev.thread r.tid).st ≠ .free →
    (s.dev.thread r.tid).ctx = r.ctx → 1 ≤ dst → dst < 128 → ∃ t, exec (.circuitAnswer n) s = .next t ∧ t.dev.getG r.tid dst = r.out ∧
      (t.dev.thread r.tid).lacks dst = false ∧ Gone t n ∧ t.mem = s.mem)

/-- R25, R29, R30, R32, R38: a flit at a router is forwarded, delivered or discarded, and a flit that waits at an NI leaves in the first wheel slot that its
circuit owns and no other flit has taken; injection stops before a switch. -/
def Sys2Proof.Say.CircuitFlitSteps : Prop :=
  ∀ (s : State), s.dev.stopped = none →
    let W := s.boot.wheel
    (∀ n f plane node port slot turn bad, HasFlit s n f → f.pos = some (plane, node, port, slot, turn) → s.live.switchDue node turn = false →
      (∀ e ∈ s.dev.jobs, e.2.kind = 5 → e.2.cnum ≠ f.cnum) →
      let dead := tfind s.dev.links.failedFrom (node * 64 + port)
      ((∀ k, dead = some k → turn < k) →
        (∀ p m, s.live.outputsFor plane node port slot = [p] → farEnd node p = some m →
          let a := turn * W + slot + 1 + crossing node p
          ∃ t g, exec (.flitArrival n bad) s = .next t ∧ g ∈ t.dev.flits ∧ g.payload = f.payload ∧ g.cnum = f.cnum ∧ g.bad = (f.bad || bad) ∧
            g.pos = some (plane, m, backPort node p, a % W, a / W) ∧ t.mem = s.mem) ∧
        (s.live.outputsFor plane node port slot = [] → ∃ t, exec (.flitArrival n bad) s = .next t ∧ (∀ g ∈ t.dev.flits, g.id ≠ n) ∧
          (wbits (tget s.dev.links.rtrstat 0 node) 31 0 + 1 < 2 ^ 32 →
            wbits (tget t.dev.links.rtrstat 0 node) 31 0 = wbits (tget s.dev.links.rtrstat 0 node) 31 0 + 1) ∧ t.mem = s.mem)) ∧
      (∀ k, dead = some k → k ≤ turn → ∃ t, exec (.flitArrival n bad) s = .next t ∧ (∀ g ∈ t.dev.flits, g.id ≠ n) ∧
        t.dev.links.rtrstat = s.dev.links.rtrstat ∧ t.mem = s.mem)) ∧
    (∀ cnum rev c f, tfind s.dev.copies cnum = some c → s.dev.flits.find? (fun f => f.cnum == cnum && f.rev == rev && f.waits) = some f →
      (∀ r, f.payload ≠ .ring r) →
      let slots := if rev then c.rslots else c.slots
      let from_ := max (8 * f.ready) (if rev then c.rnext else c.next)
      let route := if rev then (circ s cnum).rev else (circ s cnum).fwd
      let left := fun (t : State) (plane slot turn : Nat) => ∃ g ∈ t.dev.flits, g.id = f.id ∧ g.payload = f.payload ∧
        g.pos = some (plane, route.hops.head?.elim (circ s cnum).src Prod.fst, route.ins.headD 4, slot, turn)
      (∀ p ∈ slots, p.1 < 8 ∧ p.2 < W) →
      (c.st = 2 → (s.dev.ctx c.ctx).st ≠ 5 → (s.dev.ctx c.ctx).poison = false → (circ s cnum).change = none → slots ≠ [] →
        ∃ t plane slot turn k, exec (.circuitInject cnum rev 1) s = .next t ∧ left t plane slot turn ∧ (plane, slot) ∈ slots ∧
          from_ ≤ 8 * (turn * W + slot) + plane ∧
          (∀ p ∈ slots, ∀ n, from_ ≤ 8 * (n * W + p.2) + p.1 → 8 * (turn * W + slot) + plane ≤ 8 * (n * W + p.2) + p.1) ∧
          tfind t.dev.copies cnum = some k ∧ (if rev then k.rnext else k.next) = 8 * (turn * W + slot) + plane + 1 ∧
          (Turning s → turn * W + slot ≤ t.dev.slots) ∧ t.mem = s.mem) ∧
      (∀ a ch n, s.live.nextInject s.boot cnum rev = some (f, a) → (circ s cnum).change = some ch → ch.turn = some n →
        ∃ t plane slot turn, exec (.circuitInject cnum rev 1) s = .next t ∧ left t plane slot turn ∧ a = 8 * (turn * W + slot) + plane ∧ turn < n ∧
          ((plane, slot) ∈ (if rev then ch.rev else ch.fwd) ∨ turn + route.drain W (if rev then (circ s cnum).rfar else (circ s cnum).far) < n))) ∧
    (∀ n ch k, (circ s n).change = some ch → ch.turn = some k → ch.stopped = false →
      (ch.close = false → ∃ t, exec (.injectStop n) s = .next t ∧ (circ t n).change = some { ch with stopped := true } ∧ t.dev.flits = s.dev.flits) ∧
      (ch.close = true → s.live.nextInject s.boot n false = none → s.live.nextInject s.boot n true = none → ∃ t, exec (.injectStop n) s = .next t ∧
        (circ t n).change = some { ch with stopped := true } ∧ (∀ f ∈ t.dev.flits, f.cnum = n → f.waits = false) ∧
        ∀ j i x it, (∃ f ∈ s.dev.flits, f.cnum = n ∧ f.waits = true) → (∀ f ∈ s.dev.flits, f.cnum = n → f.waits = true → s.live.flitItem f = some (j, i)) →
          tfind s.dev.jobs j = some x → x.items.find? (fun y => y.idx == i) = some it → it.fail = none → Recorded t x.ctx 0x46))

/-- R29, R36, R37, R44: the writes, acknowledgements, commits and switches of a circuit's change. -/
def Sys2Proof.Say.ConfigurationSteps : Prop :=
  ∀ (s : State), s.dev.stopped = none →
    let W := s.boot.wheel
    (∀ n m, HasCfg s n m →
      let acked := fun (t : State) => ∃ k ∈ t.dev.cfg, k.cnum = m.cnum ∧ k.kind = .ack [m.dest] ∧ k.at_ = m.dest ∧ k.dest = 193 ∧ ∀ x ∈ t.dev.cfg, x.id ≠ n ∨ x = k
      (∀ node port plane slot v, m.kind = .writes [(node, port, plane, slot, v)] [] →
        (badPort node port = false → (v.getLsbD 7 = true → badPort node (v.toNat % 64) = false) → ∃ t, exec (.configFlitReceive n) s = .next t ∧
          tget t.dev.links.shadow 0 (((node * 64 + port) * 8 + plane) * 1024 + slot) = v ∧ t.dev.links.active = s.dev.links.active ∧ acked t) ∧
        (badPort node port = true ∨ (v.getLsbD 7 = true ∧ badPort node (v.toNat % 64) = true) → ∃ t, exec (.configFlitReceive n) s = .next t ∧
          t.dev.links.shadow = s.dev.links.shadow ∧ Recorded t 0 0xC7 ∧ acked t ∧
          (wbits (tget s.dev.links.rtrstat 0 node) 63 48 + 1 < 2 ^ 16 →
            wbits (tget t.dev.links.rtrstat 0 node) 63 48 = wbits (tget s.dev.links.rtrstat 0 node) 63 48 + 1))) ∧
      (∀ pc win owner, m.kind = .writes [] [(pc, win, owner)] → ∃ t, exec (.configFlitReceive n) s = .next t ∧
        tget t.dev.links.winShadow 0 (pc * 128 + win) = owner ∧ t.dev.links.windows = s.dev.links.windows ∧ acked t)) ∧
    (∀ n m, s.dev.cfg.find? (fun m => m.id == n && m.at_ != m.dest) = some m →
      let way := relayRoute s.boot s.live (nodeEnd m.at_) none (nodeEnd m.dest) none
      (way = [] → ∃ t k, exec (.configFlitForward n) s = .next t ∧ k ∈ t.dev.cfg ∧ k.id = n ∧ k.kind = m.kind ∧ k.at_ = m.dest ∧ t.mem = s.mem) ∧
      (∀ h rest, way = h :: rest → linkOk s.boot s.live h.1 h.2 = true →
        (∀ x ∈ s.dev.cfg, x.id < n → x.acks = [] → h ∉ relayRoute s.boot s.live (nodeEnd x.at_) none (nodeEnd x.dest) none) →
        ∃ t k, exec (.configFlitForward n) s = .next t ∧ k ∈ t.dev.cfg ∧ k.id = n ∧ k.dest = m.dest ∧ k.at_ = (farEnd h.1 h.2).getD m.dest ∧
          k.turn = max m.turn (tget s.dev.links.cfgNext 0 (h.1 * 64 + h.2)) + 1 ∧ tget t.dev.links.cfgNext 0 (h.1 * 64 + h.2) = k.turn ∧ t.mem = s.mem ∧
          (m.acks = [] → k.kind = m.kind) ∧ ∀ rs, m.kind = .ack rs → rs ≠ [] → ∃ more, k.kind = .ack (rs ++ more))) ∧
    (∀ n m rs ch, s.dev.cfg.find? (fun m => m.id == n && m.at_ == cmNode && m.dest == cmNode) = some m → m.kind = .ack rs →
      (circ s m.cnum).change = some ch →
      let waiting := rs.foldl List.erase ch.waiting
      (waiting ≠ [] → ∃ t, exec (.configAckReceive n) s = .next t ∧ (circ t m.cnum).change = some { ch with waiting } ∧ ∀ x ∈ t.dev.cfg, x.id ≠ n) ∧
      (waiting = [] → ch.turn = none → (circ s m.cnum).peer = none → (circ s m.cnum).other = none → ∃ t turn, exec (.configAckReceive n) s = .next t ∧
        (circ t m.cnum).change = some { ch with waiting := [], turn := some turn } ∧ t.dev.slots / W < turn ∧
        ∀ r ∈ ch.routers, ∃ k ∈ t.dev.cfg, k.dest = r ∧ k.cnum = m.cnum ∧ k.kind = .commit turn)) ∧
    (∀ n m turn, HasCfg s n m → m.kind = .commit turn → ∃ t, exec (.commitReceive n) s = .next t ∧ (∀ x ∈ t.dev.cfg, x.id ≠ n) ∧
      t.dev.links.commits = s.dev.links.commits ++ (if m.turn ≤ turn then [(m.dest, turn)] else [])) ∧
    (∀ turn n c ch, s.dev.circuits.filter (fun e => (e.2.change.bind Change.turn) == some turn) = [(n, c)] → circ s n = c → c.change = some ch → n < 4096 →
      (∀ r ∈ ch.routers, (r, turn) ∈ s.dev.links.commits) → s.live.commitComing s.boot turn = false → s.live.flitsBefore s.boot turn = false →
      (∀ f ∈ s.dev.flits, f.cnum = n → f.waits = false) → c.answer = none → rising (s.dev.links.shadow.map Prod.fst) = true →
      let banks := fun (t : State) => ∀ key, tget t.dev.links.active 0 key =
        if (key / 524288, turn) ∈ s.dev.links.commits then tget s.dev.links.shadow 0 key else tget s.dev.links.active 0 key
      (ch.close = false → c.isFar = false → ∃ t k, exec (.switchTurn turn) s = .next t ∧ banks t ∧ (circ t n).st = 2 ∧ (circ t n).change = none ∧
        (circ t n).fwd.slots = ch.fwd ∧ (circ t n).rev.slots = ch.rev ∧ (circ t n).wins = ch.wins ∧ tfind t.dev.copies n = some k ∧ k.st = 2 ∧
        k.slots = ch.fwd ∧ k.rslots = ch.rev ∧ 8 * W * turn ≤ k.next ∧ (tfind s.dev.copies n = none → k.gen = c.gen ∧ k.ctx = c.ctx ∧ k.cluster = c.src)) ∧
      (ch.close = true → ∃ t, exec (.switchTurn turn) s = .next t ∧ banks t ∧ circ t n = { gen := (c.gen + 1) % 65536 } ∧ tfind t.dev.copies n = none))

/-- R39 to R42: the relay service's flits, credits, messages and places. -/
def Sys2Proof.Say.RelaySteps : Prop :=
  ∀ (s : State), s.dev.stopped = none →
    (∀ node dir ctx m far a, s.live.headMsg node dir ctx = some m → farEnd node dir = some far → m.sent = 0 → m.flits = 1 → m.came = none →
      linkOk s.boot s.live node dir = true → s.live.nextSend s.boot node dir ctx m = some a →
      linkKey far (backPort node dir) ctx ≠ linkKey node dir ctx → ∃ t k, exec (.relayFlitSend node dir ctx) s = .next t ∧
        k ∈ t.dev.msgs ∧ k.id = m.id ∧ k.req = m.req ∧ k.node = far ∧ k.path = m.path.tail ∧ k.came = some (node, dir) ∧
        s.live.ownsSlot s.boot node dir ctx a = true ∧ m.ready ≤ a ∧ k.ready = a + 1 + crossing node dir + 8 ∧ (Turning s → a ≤ t.dev.slots) ∧
        (s.live.credit node dir ctx).held ≠ 0 ∧ (t.live.credit node dir ctx).held = (s.live.credit node dir ctx).held - 1 ∧
        (t.live.credit node dir ctx).next = a + 1 ∧ (t.live.credit far (backPort node dir) ctx).owed = 0 ∧
        (t.live.credit far (backPort node dir) ctx).held =
          (s.live.credit far (backPort node dir) ctx).held + (s.live.credit far (backPort node dir) ctx).owed ∧ t.mem = s.mem) ∧
    (∀ node dir ctx far a, farEnd node dir = some far → linkOk s.boot s.live node dir = true →
      s.live.nextOwned s.boot node dir ctx (max s.dev.slots (s.live.credit node dir ctx).next) = some a → s.live.headMsg node dir ctx = none →
      linkKey far (backPort node dir) ctx ≠ linkKey node dir ctx →
      let c := s.live.credit far (backPort node dir) ctx
      c.owed ≠ 0 → ∃ t, exec (.creditReturnSend node dir ctx) s = .next t ∧ (t.live.credit far (backPort node dir) ctx).owed = 0 ∧
        (t.live.credit far (backPort node dir) ctx).flying = c.owed ∧ (t.live.credit far (backPort node dir) ctx).held = c.held + c.flying ∧
        (t.live.credit far (backPort node dir) ctx).due = a + 1 + crossing node dir) ∧
    (∀ node dir ctx, node < 192 ∨ dir ≠ 37 → ∃ t, exec (.creditReturnReceive node dir ctx) s = .next t ∧
      (t.live.credit node dir ctx).held = (s.live.credit node dir ctx).held + (s.live.credit node dir ctx).flying ∧
      (t.live.credit node dir ctx).owed = (s.live.credit node dir ctx).owed ∧ (t.live.credit node dir ctx).flying = 0) ∧
    (∀ n m r, s.dev.msgs.find? (fun m => m.id == n && m.path.isEmpty) = some m → HasReq s m.req r → m.back = false → m.waits (some r) = false →
      (∀ x ∈ s.dev.msgs, x.req = m.req → x = m) → Turning s ∨ m.ready ≤ s.dev.slots → ∃ t q, exec (.relayMessageAccept n) s = .next t ∧
        HasReq t m.req q ∧ q.stage = .home ∧ q.since = m.ready ∧ q.kind = r.kind ∧ (∀ x ∈ t.dev.msgs, x.id ≠ n) ∧ (Turning s → m.ready ≤ t.dev.slots) ∧ t.mem = s.mem) ∧
    (∀ ctx node dir further, further = true ∨ s.live.holdsPlace s.boot node dir ctx = false →
      (∀ i, s.live.freeLinkPlace s.boot node dir = some i → ∃ t, exec (.relayPlaceRequest ctx { links := [(node, dir)], further }) s = .next t ∧
        t.live.placeOwner node dir i = ctx ∧ ∀ k, k ≠ placeKey node dir i → tget t.dev.links.places 0 k = tget s.dev.links.places 0 k) ∧
      (s.live.freeLinkPlace s.boot node dir = none → ∃ t, exec (.relayPlaceRequest ctx { links := [(node, dir)], further }) s = .next t ∧
        t.dev.links = s.dev.links ∧ .report 6 ctx 0 ∈ t.dev.out)) ∧
    (∀ ctx node dir, s.live.holdsPlace s.boot node dir ctx = true → exec (.relayPlaceRequest ctx { links := [(node, dir)] }) s = .next s)

/-- R25, R29, R30, R32, R36 to R42: flits on the fabric, the steps of a circuit's change, and the relay service's flits, credits, messages and
places. -/
def Obligations.FabricSteps : Prop := CircuitFlitSteps ∧ ConfigurationSteps ∧ RelaySteps

namespace Sys2Proof.Say

open Sys2Proof.Machine

/-- The connection manager has answered a request with a word (R278). -/
def Answered (t : State) (n : Nat) (v : Word) : Prop := ∃ q, HasReq t n q ∧ q.out = v ∧ q.stage = .back

/-- The connection manager takes a request now: it has come, none came before it, and no change is under way (R278, R284, assumption 22). -/
abbrev CmTakes (s : State) (n : Nat) (r : Req) : Prop :=
  s.dev.cmDown = false ∧ HasReq s n r ∧ r.stage = .home ∧ s.live.changing = false ∧ s.live.cmBehind r = false

/-- A record is the first that is FREE (R278). -/
abbrev FirstFree (s : State) (k : Nat) : Prop := 1 ≤ k ∧ k ≤ 4095 ∧ (circ s k).st = 5 ∧ ∀ i, 1 ≤ i → i < k → (circ s i).st ≠ 5

/-- A record has returned to FREE (R277). -/
abbrev Freed (s t : State) (k : Nat) : Prop := circ t k = { gen := ((circ s k).gen + 1) % 65536 }

end Sys2Proof.Say

/-- R277 to R280, R282 to R284, R286 to R288: the connection manager admits, refuses, resizes and closes circuits. -/
def Sys2Proof.Say.CircuitRequests : Prop :=
  ∀ (s : State), s.dev.stopped = none →
    (∀ n r a lim dst, CmTakes s n r → r.kind = .circuit 0 a lim 0 dst 0 →
      let entry := s.live.endpoint r.ctx r.src (a.toNat % 64)
      let far := decide (epPkg entry ≠ s.boot.pkg) && decide (epPkg entry < 128)
      let refused := fun (res : Nat) => ∃ t, exec (.cmRequest n) s = .next t ∧ Answered t n (BitVec.ofNat 64 (res * 2 ^ 59))
      ((∀ i, 1 ≤ i → i ≤ 4095 → (circ s i).st ≠ 5) → refused 6) ∧
      (∀ k, FirstFree s k →
        ((s.dev.ctx r.ctx).st ∈ [0, 6, 7] → refused 5) ∧
        ((s.dev.ctx r.ctx).st ∉ [0, 6, 7] →
          (entry.getLsbD 63 = false ∨ 4 ≤ epKind entry ∨ circuitEnd s.boot s.live r.src entry = none → refused 3) ∧
          (∀ d, entry.getLsbD 63 = true → epKind entry < 4 → circuitEnd s.boot s.live r.src entry = some d →
            let even := a.getLsbD 17
            let duplex := a.getLsbD 16 || decide (epKind entry = 1) || decide (epKind entry = 2)
            let plan := planCircuit s.boot s.live r.src d (lim.toNat % 2 ^ 14) (a.toNat / 2 ^ 8 % 2 ^ 8) even (duplex && !far) (lim.toNat / 2 ^ 16 % 2 ^ 16)
              (lim.toNat / 2 ^ 32 % 2 ^ 8)
            (∀ e, plan = .error e → refused e) ∧
            (∀ p, plan = .ok p → ∃ t ch, exec (.cmRequest n) s = .next t ∧ (circ t k).st = 1 ∧ (circ t k).ctx = r.ctx ∧ (circ t k).src = r.src ∧
              (circ t k).gen = (circ s k).gen ∧ (circ t k).fwd.hops = p.fwd.hops ∧ (circ t k).answer = some n ∧ (circ t k).change = some ch ∧ ch.fwd = p.fslots ∧
              ch.rev = p.rslots ∧ ch.wins = p.wins ∧ ch.turn = none ∧ ch.close = false ∧ (∀ x, x ∈ ch.waiting ↔ x ∈ ch.routers) ∧
              (circ t k).peer.isSome = far ∧ (far = true → .peer (epPkg entry) k (.plan r.ctx entry (p.fwd.leave s.boot.wheel p.fslots) (a.toNat / 2 ^ 8 % 2 ^ 8)
                (lim.toNat / 2 ^ 32 % 2 ^ 8) even duplex) ∈ t.dev.out)))))) ∧
    (∀ n r h lim dst k, CmTakes s n r → r.kind = .circuit 1 h lim k dst 0 →
      let c := circ s k
      let slots := c.fwd.slots
      c.st = 2 →
      (c.gen ≠ handleGen h → ∃ t, exec (.cmRequest n) s = .next t ∧ Answered t n (setBits h 59 4 5)) ∧
      (c.gen = handleGen h → c.ctx = r.ctx → c.other = none → lim.toNat < 2 ^ 14 → c.wins = [] → c.duplex = false →
        (lim.toNat = slots.length → ∃ t, exec (.cmRequest n) s = .next t ∧ Answered t n (setBits h 59 4 0) ∧ circ t k = c) ∧
        (lim.toNat < slots.length → ∃ t ch, exec (.cmRequest n) s = .next t ∧ (circ t k).st = 3 ∧ (circ t k).answer = some n ∧ (circ t k).change = some ch ∧
          ch.fwd = slots.take lim.toNat ∧ ch.close = false ∧ (circ t k).fwd.slots = slots))) ∧
    (∀ n r h dst k, CmTakes s n r → r.kind = .circuit 2 h 0 k dst 0 →
      let c := circ s k
      c.gen = handleGen h → c.ctx = r.ctx →
      (c.st = 2 → ∃ t ch, exec (.cmRequest n) s = .next t ∧ (circ t k).st = 4 ∧ (circ t k).answer = some n ∧ (circ t k).change = some ch ∧ ch.close = true ∧
        ch.fwd = [] ∧ ch.rev = [] ∧ ch.wins = []) ∧
      (c.st = 6 → ∃ t, exec (.cmRequest n) s = .next t ∧ Freed s t k ∧ Answered t n (setBits (setBits h 59 4 0) 63 1 0)))

/-- R280 to R282: what connection managers of two packages tell each other of a circuit between them. -/
def Sys2Proof.Say.PeerMessages : Prop :=
  ∀ (s : State), s.dev.stopped = none → s.dev.cmDown = false →
    (∀ (p : PeerRequest) res num lat rslots rlat, p.kind = .answer res num lat rslots rlat → (circ s p.cnum).st = 1 → (circ s p.cnum).peer.isSome = true →
      let c := circ s p.cnum
      let fits := latencyOk s.boot.wheel c.maxlat c.fwd ((c.change.map Change.fwd).getD []) lat
      let withdrawn := fun (res : Nat) => ∃ t, exec (.cmPeerRequest p) s = .next t ∧ Freed s t p.cnum ∧
        ∀ q r h lim dst, c.answer = some q → HasReq s q r → r.kind = .circuit 0 h lim 0 dst 0 → Answered t q (BitVec.ofNat 64 (res * 2 ^ 59))
      (res ≠ 0 → withdrawn 4) ∧
      (res = 0 → c.duplex = false →
        (fits = false → withdrawn 2) ∧
        (fits = true → ∃ t, exec (.cmPeerRequest p) s = .next t ∧ (circ t p.cnum).peer = none ∧ (circ t p.cnum).far = lat ∧ (circ t p.cnum).st = 1 ∧
          (circ t p.cnum).other = some (p.pkg, num, c.end_.treco)))) ∧
    (∀ (p : PeerRequest) ctx entry slots planes nwin even duplex k, p.kind = .plan ctx entry slots planes nwin even duplex → s.live.changing = false → FirstFree s k →
      let node := 192 + p.port / 9 % 4
      let here := slots.map fun ps => (ps.1, (ps.2 + 1 + wbits (tget s.dev.links.trkwhl 0x20000 p.port) 9 0) % s.boot.wheel)
      (∀ e, s.live.planFar s.boot p.port entry slots planes nwin even duplex = .error e → ∃ t, exec (.cmPeerRequest p) s = .next t ∧
        .peer p.pkg p.cnum (.answer e 0 0 [] 0) ∈ t.dev.out ∧ t.dev.circuits = s.dev.circuits) ∧
      (∀ c r, duplex = false → circuitEnd s.boot s.live node entry = some (.cluster c) →
        mkRoute s.boot s.live (standingRoute (nodeEnd node) none (.cluster c) none true) c 4 (26 + p.port % 9) = some r →
        (here.all fun ps => slotFits s.boot (s.live.usedCells s.boot) r ps.1 ps.2) = true →
        ∃ t ch, exec (.cmPeerRequest p) s = .next t ∧ (circ t k).st = 1 ∧ (circ t k).ctx = ctx ∧ (circ t k).src = node ∧ (circ t k).isFar = true ∧
          (circ t k).other = some (p.pkg, p.cnum, p.port) ∧ (circ t k).change = some ch ∧ ch.fwd = here ∧
          .peer p.pkg p.cnum (.answer 0 k (wbits (tget s.dev.links.trkwhl 0x20000 p.port) 9 0 + r.latency) [] 0) ∈ t.dev.out)) ∧
    (∀ (p : PeerRequest) n ch, p.kind = .turn n → (circ s p.cnum).other.map Prod.fst = some p.pkg → (circ s p.cnum).change = some ch → ch.waiting ≠ [] →
      ∃ t, exec (.cmPeerRequest p) s = .next t ∧ (circ t p.cnum).change = some { ch with theirs := some n }) ∧
    (∀ (p : PeerRequest) f, p.kind = .failed f → (circ s p.cnum).other.map Prod.fst = some p.pkg → (circ s p.cnum).st = 2 → (circ s p.cnum).answer = none →
      p.cnum < 4096 → ∃ t, exec (.cmPeerRequest p) s = .next t ∧ (circ t p.cnum).st = 6 ∧ (circ t p.cnum).fcause = f)

/-- R29, R48, R281, R283, R290, R291, R404: the peer's time limit, failed links and transports, firmware's routes, and RTRSTAT. -/
def Sys2Proof.Say.LinkFailures : Prop :=
  ∀ (s : State), s.dev.stopped = none →
    (∀ k t0, (circ s k).peer = some t0 → (circ s k).answer = none → ∃ t, exec (.cmPeerTimeout k) s = .next t ∧
      (Turning s → (t0 + 1000) * s.boot.wheel ≤ t.dev.slots) ∧ ((circ s k).st ≠ 3 → Freed s t k) ∧
      ((circ s k).st = 3 → k < 4096 → (circ t k).st = 2 ∧ (circ t k).change = none ∧ (circ t k).fwd = (circ s k).fwd)) ∧
    (∀ node port cause,
      ((node, port) ∈ s.dev.links.failed → exec (.linkFail node port cause) s = .next s) ∧
      ((node, port) ∉ s.dev.links.failed → ∃ t, exec (.linkFail node port cause) s = .next t ∧ (node, port) ∈ t.dev.links.failed ∧
        (∀ m, farEnd node port = some m → (m, backPort node port) ∈ t.dev.links.failed) ∧
        tfind t.dev.links.failedFrom (node * 64 + port) = some (s.dev.slots / s.boot.wheel + 1) ∧ t.dev.links.routed = s.dev.links.routed)) ∧
    (∃ t, exec .routeRecompute s = .next t ∧ t.dev.links = { s.dev.links with routed := s.dev.links.failed } ∧ t.mem = s.mem ∧
      t.dev.msgs.length = s.dev.msgs.length ∧ ∀ m ∈ s.dev.msgs, m.path.all (fun h => linkOk s.boot s.live h.1 h.2) = true → m ∈ t.dev.msgs) ∧
    (∀ k, k < 4096 → (circ s k).st = 2 → (circ s k).answer = none → ∃ t, exec (.ueTransportFail k) s = .next t ∧ (circ t k).st = 6 ∧ (circ t k).fcause = 1 ∧
      Recorded t 0 0xCD ∧ ((circ s k).isFar = false → Recorded t (circ s k).ctx 0xC1)) ∧
    (∀ node (v : Word), ∃ t, exec (.rtrstatWrite node v) s = .next t ∧
      tget t.dev.links.rtrstat 0 node = (if v.getLsbD 32 then (0 : Word) else tget s.dev.links.rtrstat 0 node &&& (1#64 <<< 32)))

/-- R277 to R284, R286 to R288, R290, R291: the connection manager admits, refuses, resizes and closes circuits, alone and with a peer, and what a failed
link or transport leaves. -/
def Obligations.ConnectionManagerSteps : Prop := CircuitRequests ∧ PeerMessages ∧ LinkFailures

/-- R17 to R19, R20 to R23, R33, R34, R331: boot and its failures, the firmware image, and the clusters' clocks. -/
def Obligations.BootAndClockSteps : Prop :=
  (∀ (s : State) (a : BootArgs),
    let dies := reachDies a.failedLinks [8] 12
    let whl := a.whldesc &&& wheelMask
    let starts := 9 ∈ dies ∧ ∃ d, d < 8 ∧ d ∈ dies
    (a.imageOk = false → ∃ t, exec (.coldBoot a) s = .next t ∧ t.boot = { status := 2 } ∧ t.mem = {} ∧ t.dev.stopped = none) ∧
    (a.imageOk = true → ∃ t, exec (.coldBoot a) s = .next t ∧ t.mem = {} ∧ (t.dev.stopped = none ↔ starts ∧ wheelLegal whl = true) ∧ t.dev.threads = [] ∧ t.dev.regs = [] ∧ t.dev.kernels = [] ∧
      t.dev.ctxs = [] ∧ t.agenda = s.agenda ∧ t.boot = (bootUp a).1 ∧
      (¬starts → t.boot.status = 3) ∧
      (starts → t.boot.status = (if wheelLegal whl = true then 1 else 4) ∧ t.boot.pkg = a.pkg ∧
        t.boot.whldesc = (if wheelLegal whl = true then whl ||| (1#64 <<< 63) else whl) ∧
        (∀ c, c < 192 → (t.boot.hasCluster c = true ↔ dieOf c ∈ dies)) ∧ (∀ k, k < 12 → (t.boot.hasStack k = true ↔ 8 + k / 3 ∈ dies)) ∧
        (∀ k, k < 128 → (t.boot.hasChannel k = true ↔ 8 + k / 32 ∈ dies ∧ k ∉ a.failedChannels)))) ∧
    (s.dev.stopped = none → wbits s.dev.sched.fwrld 63 62 = 1 →
      (∃ t, exec (.imageVerifyDone true a) s = .next t ∧ t.boot = (bootUp a).1 ∧ t.mem = {} ∧ t.dev = (bootUp a).2) ∧
      (∃ t, exec (.imageVerifyDone false a) s = .next t ∧ t.boot = s.boot ∧ t.mem = s.mem ∧ wbits t.dev.sched.fwrld 63 62 = 2))) ∧
  (∀ (s : State) (v : Word), s.dev.stopped = none →
    (wbits s.dev.sched.fwrld 63 62 = 2 → 1 ≤ v.toNat % 2 ^ 32 → v.toNat % 2 ^ 32 ≤ 134217728 → ∃ t, exec (.fwrldWrite v) s = .next t ∧
      wbits t.dev.sched.fwrld 63 62 = 1 ∧ wbits t.dev.sched.fwrld 31 0 = v.toNat % 2 ^ 32 ∧ t.mem = s.mem) ∧
    (wbits s.dev.sched.fwrld 63 62 ≠ 2 ∨ v.toNat % 2 ^ 32 = 0 ∨ 134217728 < v.toNat % 2 ^ 32 → exec (.fwrldWrite v) s = .next s)) ∧
  (∀ (s : State) (c : Nat), s.dev.stopped = none →
    let group := s.live.lockGroup c
    let lowest := fun (supply : Nat → Nat) => max 30 (group.foldl (fun m k => min m (min (s.dev.cluster k).setpt (supply k))) 42)
    group.Nodup →
    (∀ v : Word, let p := v.toNat / 2 ^ 8 % 2 ^ 8
      let err := (s.dev.cluster c).err && !v.getLsbD 1
      ((p < 30 ∨ 42 < p) → ∃ t, exec (.setptWrite c v) s = .next t ∧ t.dev.cluster c = { s.dev.cluster c with err := true } ∧
        ∀ k, k ≠ c → t.dev.cluster k = s.dev.cluster k) ∧
      (30 ≤ p → p ≤ 42 → ∃ t, exec (.setptWrite c v) s = .next t ∧ (t.dev.cluster c).err = err ∧
        ∀ k ∈ group, ((s.dev.cluster k).busy = false → (t.dev.cluster k).busy = true ∧ (t.dev.cluster k).setpt = p) ∧
          ((s.dev.cluster k).busy = true → (t.dev.cluster k).queued = some p ∧ (t.dev.cluster k).setpt = (s.dev.cluster k).setpt))) ∧
    ((s.dev.cluster c).busy = true → ∃ t, exec (.setptChangeDone c) s = .next t ∧ ∀ k ∈ group, (t.dev.cluster k).freq = lowest (fun j => (s.dev.cluster j).supply) ∧
      ((s.dev.cluster k).queued = none → (t.dev.cluster k).busy = false ∧ (t.dev.cluster k).setpt = (s.dev.cluster k).setpt) ∧
      ∀ q, (s.dev.cluster k).queued = some q → (t.dev.cluster k).busy = true ∧ (t.dev.cluster k).setpt = q ∧ (t.dev.cluster k).queued = none) ∧
    (∀ f, let supply := max 30 (min f 42)
      ∃ t, exec (.supplyDroop c f false) s = .next t ∧ (t.dev.cluster c).supply = supply ∧ ∀ k ∈ group, (t.dev.cluster k).setpt = (s.dev.cluster k).setpt ∧
        (t.dev.cluster k).freq = if (s.dev.cluster k).busy then (s.dev.cluster k).freq else lowest fun j => if j = c then supply else (s.dev.cluster j).supply))

/-- R45, R47, R48, R398 to R412: the links and ports: Treco training, alignment, slips and lane failures, UCIe repairs, Ultra Ethernet and host
ports, HBM4 rate points and refresh, LPDDR-6 fencing, the eye monitors and the status registers. -/
def Obligations.LinkSteps : Prop :=
  ∀ (s : State), s.dev.stopped = none →
    let whl := fun (t : State) (p : Nat) => tget t.dev.links.trkwhl 0x0000000000020000 p
    let ctl := fun (t : State) (p : Nat) => tget t.dev.links.trkctl 0x0001000000000000 p
    let state := fun (t : State) (p : Nat) => wbits (ctl t p) 63 60
    let lnk := fun (t : State) (i : Nat) => tget t.dev.links.lnkstat 0x0000000400000000 i
    let down := fun (t : State) (p : Nat) => (192 + p / 9, 26 + p % 9) ∈ t.dev.links.failed
    (∀ p (skew : BitVec 16),
      let limit := wbits (whl s p) 39 24 + guardOf (whl s p) * 625
      ((whl s p).getLsbD 62 = false ∨ skew.toInt.natAbs ≤ limit → ∃ t, exec (.ptpExchange p skew) s = .next t ∧ whl t p = setBits (whl s p) 40 16 skew.toNat ∧
        t.dev.links.failed = s.dev.links.failed) ∧
      ((whl s p).getLsbD 62 = true → limit < skew.toInt.natAbs → ∃ t, exec (.ptpExchange p skew) s = .next t ∧ (whl t p).getLsbD 63 = true ∧
        (whl t p).getLsbD 62 = false ∧ state t p = 4 ∧ down t p)) ∧
    (∀ p, ∃ t, exec (.ieee1588Lost p) s = .next t ∧ Recorded t 0 0xD6 ∧
      ((whl s p).getLsbD 62 = true → (whl t p).getLsbD 63 = true ∧ (whl t p).getLsbD 62 = false ∧ state t p = 4 ∧ down t p)) ∧
    (∀ p, ∃ t, exec (.trecoRetrain p) s = .next t ∧ state t p = 1 ∧ (whl t p).getLsbD 62 = false ∧ (state s p = 3 → down t p)) ∧
    (∀ p pkg port, state s p = 1 →
      (∃ t, exec (.trecoTrained p true true pkg port) s = .next t ∧ state t p = 2 ∧ wbits (ctl t p) 47 40 = pkg % 256 ∧ wbits (ctl t p) 39 32 = port % 256) ∧
      (∀ ok, ∃ t, exec (.trecoTrained p false ok pkg port) s = .next t ∧ state t p = 5 ∧ Recorded t 0 0xCA) ∧
      (∃ t, exec (.trecoTrained p true false pkg port) s = .next t ∧ state t p = 5 ∧ Recorded t 0 0xCB)) ∧
    (∀ p (skew : BitVec 16) plane guard, state s p = 2 →
      let off := (Config.worstTransit p + skew.toNat + 624) / 625 + max (guardOf (whl s p)) guard
      (wbits (ctl s p) 51 48 = plane → off ≤ 1023 → ∃ t, exec (.trecoAlign p skew plane guard) s = .next t ∧ state t p = 3 ∧ (whl t p).getLsbD 62 = true ∧
        wbits (whl t p) 9 0 = off ∧ wbits (whl t p) 39 24 = skew.toNat ∧ ¬down t p) ∧
      (wbits (ctl s p) 51 48 = plane → 1023 < off → ∃ t, exec (.trecoAlign p skew plane guard) s = .next t ∧ state t p = 2 ∧ Recorded t 0 0xCC) ∧
      (wbits (ctl s p) 51 48 ≠ plane → ∃ t, exec (.trecoAlign p skew plane guard) s = .next t ∧ state t p = 2)) ∧
    (∀ p, ∃ t, exec (.trecoLaneFail p) s = .next t ∧ Recorded t 0 0xCA ∧ (state s p = 1 ∨ state s p = 3 → state t p = 5) ∧ (state s p = 3 → down t p)) ∧
    (∀ i lane, i < 18 → lane / 128 < 64 →
      let k := i * 64 + lane / 128
      let done := tget s.dev.links.repairs 0 k
      let agreed := tget s.dev.links.repairs 0 (4096 + k)
      (wbits (s.live.lnkstat i) 63 60 ≠ 1 → exec (.laneErrorThreshold i lane) s = .next s) ∧
      (wbits (s.live.lnkstat i) 63 60 = 1 → done + agreed < 4 → ∃ t, exec (.laneErrorThreshold i lane) s = .next t ∧ tget t.dev.links.repairs 0 (4096 + k) = agreed + 1 ∧ lnk t i = lnk s i) ∧
      (wbits (s.live.lnkstat i) 63 60 = 1 → 4 ≤ done + agreed → ∃ t, exec (.laneErrorThreshold i lane) s = .next t ∧ wbits (lnk t i) 63 60 = 2 ∧ Recorded t 0 0xC9 ∧
        ∀ h ∈ ucieLinks i, h ∈ t.dev.links.failed)) ∧
    (∀ i, i < 18 → ∃ t, exec (.laneRepairApply i) s = .next t ∧ (Turning s → t.dev.slots / s.boot.wheel % 1024 = 0) ∧ ∀ m, m < 64 →
      tget t.dev.links.repairs 0 (i * 64 + m) = tget s.dev.links.repairs 0 (i * 64 + m) + tget s.dev.links.repairs 0 (4096 + (i * 64 + m)) ∧
      tget t.dev.links.repairs 0 (4096 + (i * 64 + m)) = 0) ∧
    (∀ q, (∃ t, exec (.uePortDown q) s = .next t ∧ wbits (t.live.uestat q) 63 60 = 0 ∧ Recorded t 0 0xCE) ∧
      ∃ t, exec (.uePortUp q) s = .next t ∧ wbits (t.live.uestat q) 63 60 = 1) ∧
    (∃ t, exec .ideIntegrityFail s = .next t ∧ t.dev.hostUp = false ∧ wbits t.dev.links.hlstat 61 60 = 2 ∧ Recorded t 0 0xF4) ∧
    (s.dev.sessions ≠ [] → ∃ t, exec .ideKeyProgram s = .next t ∧ wbits t.dev.links.hlstat 61 60 = 1 ∧ (t.dev.hostUp = true ↔ wbits s.dev.links.hlstat 63 62 = 2)) ∧
    (s.dev.sessions = [] → exec .ideKeyProgram s = .next { s with dev := { s.dev with out := s.dev.out ++ [.unsupported] } }) ∧
    (∃ t, exec .hostLinkDown s = .next t ∧ t.dev.hostUp = false ∧ wbits t.dev.links.hlstat 63 62 = 0 ∧ Recorded t 0 0xF3) ∧
    (∃ t, exec .hostLinkUp s = .next t ∧ t.dev.hostUp = true ∧ wbits t.dev.links.hlstat 63 62 = 2 ∧
      wbits t.dev.links.hlstat 61 60 = 1 ∧ wbits t.dev.links.hlstat 59 55 ∈ [1, 2, 4, 8, 16]) ∧
    (∀ v : Word, let w := s.dev.links.hbmrate
      let req := v.toNat % 4
      (w.getLsbD 63 = true → exec (.hbmrateRequest v) s = .next s) ∧
      (w.getLsbD 63 = false →
        (req = 3 → ∃ t, exec (.hbmrateRequest v) s = .next t ∧ wbits t.dev.links.hbmrate 58 56 = 3 ∧ t.dev.links.rateTo = s.dev.links.rateTo) ∧
        (req ≠ 3 → req = wbits w 17 16 → ∃ t, exec (.hbmrateRequest v) s = .next t ∧ wbits t.dev.links.hbmrate 58 56 = 0 ∧ t.dev.links.rateTo = s.dev.links.rateTo) ∧
        (req ≠ 3 → req ≠ wbits w 17 16 → s.dev.links.windows = [] → (∀ e ∈ s.dev.circuits, e.2.change = none) → ∃ t, exec (.hbmrateRequest v) s = .next t ∧
          t.dev.links.hbmrate.getLsbD 63 = true ∧ t.dev.links.rateTo = some req ∧ t.dev.links.stallAt = some ((s.dev.slots / 256 + 1) * 256) ∧ wbits t.dev.links.hbmrate 17 16 = wbits w 17 16))) ∧
    (∀ r, s.dev.links.rateTo = some r →
      (∀ a, s.dev.links.stallAt = some a → ∃ t, exec .hbmRateStallBegin s = .next t ∧ t.dev.links = s.dev.links ∧
        (Turning s → t.dev.slots = max s.dev.slots a)) ∧
      (∀ a, s.dev.links.stallAt = some a → r < 4 → ∃ t, exec .hbmRateSwitchDone s = .next t ∧ t.dev.links.stallAt = none ∧ t.dev.links.rateTo = none ∧
        wbits t.dev.links.hbmrate 17 16 = r ∧ t.dev.links.hbmrate.getLsbD 63 = false ∧ (Turning s → t.dev.slots = max s.dev.slots (a + 768)))) ∧
    (∀ pc, pc < 768 → ∃ t, exec (.hbmRefresh pc) s = .next t ∧ (Turning s → t.dev.slots = (s.dev.slots + 255) / 256 * 256 + 16) ∧ t.mem = s.mem ∧
      t.dev.links = s.dev.links) ∧
    (∀ ch, ch < 128 → s.mem.wf = true → wbits (tget s.dev.links.lpstat 0 ch) 63 60 = 1 → ∃ t, exec (.lpddrFence ch) s = .next t ∧
      wbits (tget t.dev.links.lpstat 0 ch) 63 60 = 2 ∧ ch ∈ t.dev.links.lpfenced ∧ Recorded t 0 0x54 ∧
      ∀ g, (chanOf g = 1000 + ch → t.mem.isPoisoned g = true) ∧ (chanOf g ≠ 1000 + ch → t.mem.isPoisoned g = s.mem.isPoisoned g)) ∧
    (∀ n h v, s.live.laneLive n = true → h < 256 → v < 256 →
      let w := s.live.eye n
      ∃ t, exec (.eyeSample n h v) s = .next t ∧ wbits (t.live.eye n) 23 16 = h ∧ wbits (t.live.eye n) 15 8 = v ∧
        wbits (t.live.eye n) 31 24 = min h (wbits w 31 24) ∧ wbits (t.live.eye n) 7 0 = min v (wbits w 7 0) ∧
        ((h < wbits w 55 48 ∨ v < wbits w 47 40) → (t.live.eye n).getLsbD 63 = true ∧ (w.getLsbD 63 = false → Recorded t 0 0xDB))) ∧
    (∀ n (v : Word), let w := s.live.eye n
      ∃ t, exec (.eyeMonitorWrite n v) s = .next t ∧ (t.live.eye n).getLsbD 62 = v.getLsbD 62 ∧ wbits (t.live.eye n) 55 40 = wbits v 55 40 ∧
        (v.getLsbD 63 = true → (t.live.eye n).getLsbD 63 = false ∧ wbits (t.live.eye n) 31 24 = 0xFF ∧ wbits (t.live.eye n) 7 0 = 0xFF) ∧
        (v.getLsbD 63 = false → wbits (t.live.eye n) 31 0 = wbits w 31 0)) ∧
    (∀ i (v : Word), (∃ t, exec (.lnkstatWrite i v) s = .next t ∧ lnk t i = setBits (lnk s i) 0 32 0) ∧
      (∃ t, exec (.uestatWrite i v) s = .next t ∧ t.live.uestat i = setBits (s.live.uestat i) 0 32 0) ∧
      ∃ t, exec (.lpstatWrite i v) s = .next t ∧ t.live.lpstat i = setBits (s.live.lpstat i) 0 32 0) ∧
    (∀ p (v : Word), ∃ t, exec (.trkwhlWrite p v) s = .next t ∧ (v.getLsbD 63 = true → (whl t p).getLsbD 63 = false) ∧
      ((whl s p).getLsbD 62 = false → wbits (whl t p) 23 16 = wbits v 23 16) ∧ ((whl s p).getLsbD 62 = true → wbits (whl t p) 23 16 = wbits (whl s p) 23 16))

namespace Sys2Proof.Say

open Sys2Proof.Machine

/-- A single-word request on path 0x0 or 0x2, of one part, that stands at its home, is neither a reduction nor a granule instruction; its granules are free
of poison. -/
abbrev WordReq (s : State) (r : Req) (op : MemOp) (dst pa : Nat) : Prop :=
  r.kind = .mem op dst ∧ (∃ p, r.parts = [p] ∧ p.pa = pa ∧ p.done = false) ∧ (r.va.toNat / 2 ^ 60 = 0 ∨ r.va.toNat / 2 ^ 60 = 2) ∧ r.cls ≠ .red ∧ (∀ k f v, op ≠ .gran k f v) ∧
    s.mem.anyPoison pa (max 1 op.size) = false

/-- A single-word request has been performed at its home, and its reply is on its way (R219, R224, R227). -/
def Served (s t : State) (r : Req) (op : MemOp) (pa : Nat) : Prop :=
  t.dev.regs = s.dev.regs ∧ ∃ q, HasReq t r.id q ∧ q.fail = r.fail ∧ q.park = r.park ∧ (q.stage = .back ∨ q.stage = .replied) ∧
    (∀ n, op = .load n false → q.out = BitVec.ofNat 64 (s.mem.read pa n) ∧ t.mem = s.mem) ∧
    (∀ n v, op = .store n v → t.mem.read pa n = v.toNat % 2 ^ (8 * n) ∧ SameOutside s.mem t.mem pa n ∧ SameGranules s.mem t.mem) ∧
    (∀ x y, op = .amo 8 7 x y → q.out = BitVec.ofNat 64 (s.mem.read pa 8) ∧ t.mem.read pa 8 = x.toNat ∧ SameOutside s.mem t.mem pa 8 ∧
      SameGranules s.mem t.mem)

/-- The queue of a DRAM channel holds a request, and no other request of that context before it. -/
abbrev Oldest (s : State) (ch n c : Nat) : Prop := (s.live.dramQueue ch).find? (fun e => s.live.queuedCtx e == c) = some (n, 0)

end Sys2Proof.Say

/-- R43, R44, R217 to R221, R229, R230, R338, R412: single-word requests at their homes, in a bank, at an HBM4 and at an LPDDR-6 controller, and
their replies, acknowledgements and failure reports. -/
def Obligations.MemoryRequestSteps : Prop :=
  ∀ (s : State) (n : Nat) (r : Req) (op : MemOp) (dst pa : Nat), s.dev.stopped = none → HasReq s n r →
    let ch := chanOf (pa / 16)
    (WordReq s r op dst pa → r.stage = .home →
      ((∃ k, paHome s.boot pa = some (.bank k)) → ∃ t, exec (.homeRequestArrive n 0 false) s = .next t ∧ Served s t r op pa) ∧
      (ch < 2000 → s.live.isFenced ch = false →
        ((n, 0) ∉ s.live.dramQueue ch → s.live.placesHeld r.ctx ch < 16 →
          ∃ t, exec (.dramRequestArrive n 0) s = .next t ∧ t.live.dramQueue ch = s.live.dramQueue ch ++ [(n, 0)] ∧ t.mem = s.mem ∧ t.dev.reqs = s.dev.reqs) ∧
        (∀ win, ch < 1000 → s.dev.links.stallAt = none → win < windowsAt (wbits s.dev.links.hbmrate 17 16) →
          let owner := tget s.dev.links.windows 0 (ch * 128 + win)
          let served := fun (t : State) => Served s t r op pa ∧ t.live.dramQueue ch = (s.live.dramQueue ch).filter (· != (n, 0)) ∧
            (Turning s → t.dev.slots % 256 = 16 + 240 * win / windowsAt (wbits s.dev.links.hbmrate 17 16) ∧ s.dev.slots ≤ t.dev.slots ∧
              t.dev.slots < tget t.dev.links.winNext 0 ch)
          (owner ≠ 0 → Oldest s ch n owner → ∃ t, exec (.hbmAccessWindow ch win false) s = .next t ∧ served t) ∧
          ((owner = 0 ∨ ∀ e ∈ s.live.dramQueue ch, s.live.queuedCtx e ≠ owner) → (∀ e ∈ s.live.dramQueue ch, s.live.queuedCtx e = r.ctx) →
            (s.live.dramQueue ch).head? = some (n, 0) → ∃ t, exec (.hbmAccessWindow ch win false) s = .next t ∧ served t) ∧
          (owner = r.ctx → owner ≠ 0 → Oldest s ch n owner → s.mem.wf = true → (s.dev.ctx r.ctx).prot = true → (s.dev.ctx r.ctx).efwd = false →
            ∃ t q, exec (.hbmAccessWindow ch win true) s = .next t ∧ HasReq t n q ∧ q.fail = some (0xE0, 0, false) ∧
              ∀ i, i < 4 → t.mem.isPoisoned (pa / 64 * 4 + i) = true)) ∧
        (∀ k, ch = 1000 + k → (∀ e ∈ s.live.dramQueue ch, s.live.queuedCtx e = r.ctx) → (s.live.dramQueue ch).head? = some (n, 0) →
          ∃ t, exec (.lpddrServe k false) s = .next t ∧ Served s t r op pa ∧ t.live.dramQueue ch = (s.live.dramQueue ch).filter (· != (n, 0))))) ∧
    (r.kind = .mem op dst → Came s r true → r.fail = none → r.park = none →
      let live := (s.dev.thread r.tid).live = true ∧ s.dev.ctxOf r.tid = r.ctx
      (∀ k g, op = .load k g → live → 1 ≤ dst →
        (∀ next, r.cls = .plain → Awaited s r next → ∃ t, exec (.remoteReplyArrive n) s = .next t ∧ t.dev.getG r.tid dst = r.out ∧
          (t.dev.thread r.tid).lacks dst = false ∧ Completed t r.tid next ∧ Gone t n ∧ t.mem = s.mem) ∧
        (r.cls = .relaxed → ∃ t, exec (.remoteReplyArrive n) s = .next t ∧ t.dev.getG r.tid dst = r.out ∧ (t.dev.thread r.tid).lacks dst = false ∧
          (t.dev.thread r.tid).pc = (s.dev.thread r.tid).pc ∧ Gone t n ∧ t.mem = s.mem)) ∧
      (∀ k v, op = .store k v →
        (∀ next, r.cls = .plain → Awaited s r next → ∃ t, exec (.storeAckArrive n) s = .next t ∧ Completed t r.tid next ∧ Gone t n ∧
          t.mem = s.mem ∧ t.dev.regs = s.dev.regs) ∧
        (r.cls = .relaxed ∨ r.cls = .release → ∃ t, exec (.storeAckArrive n) s = .next t ∧ (t.dev.thread r.tid).pc = (s.dev.thread r.tid).pc ∧
          Gone t n ∧ t.mem = s.mem ∧ t.dev.regs = s.dev.regs)) ∧
      (∀ k f x, op = .red k f x → r.cls = .red → live → ∃ t, exec (.redAckArrive [n]) s = .next t ∧ Gone t n ∧ t.mem = s.mem ∧ t.dev.regs = s.dev.regs ∧
        (t.dev.thread r.tid).status = (s.dev.thread r.tid).status ||| r.flags.setWidth 64)) ∧
    (∀ d p c next, r.kind = .mem op dst → r.cls = .plain → r.fail = some (c, d, p) → d < 65536 → c = 0x46 ∨ c = 0x47 → r.stage = .back → Came s r true →
      Awaited s r next → (s.dev.thread r.tid).st = .ready → (s.dev.thread r.tid).toGang = 0 → r.tid % 64 ≠ 63 → ∃ t, exec (.relayFailureReport n false) s = .next t ∧
        (t.dev.thread r.tid).faultInfo = BitVec.ofNat 64 (d * 65536 + c) ∧ (t.dev.thread r.tid).pc = (s.dev.thread r.tid).pc ∧ Gone t n ∧
        ((t.dev.thread r.tid).st = .trapped ∨ (t.dev.thread r.tid).st = .halted true))

/-- R20, R33, R210, R318, R322, R324, R418: writes of the queue, fault-queue and owner registers, and a write by address, which is the same write. -/
def Obligations.DeviceRegisterWrites : Prop :=
  ∀ (s : State) (v : Word), s.dev.stopped = none →
    (∀ q, let w := s.live.queue q
      let lg := wbits v 27 24
      let ok := v.getLsbD 63 = true ∧ 4 ≤ lg ∧ (s.dev.ctx (wbits v 55 40)).st = 3 ∧ wbits s.dev.sched.fwrld 63 62 = 3 ∧ s.boot.status = 1
      (w.cfg.getLsbD 63 = true → v.getLsbD 63 = true → exec (.qcfgWrite q v) s = .next s) ∧
      (w.cfg.getLsbD 63 = true → v.getLsbD 63 = false → ∃ t, exec (.qcfgWrite q v) s = .next t ∧
        t.live.queue q = { w with cfg := setBits w.cfg 63 1 0, st := 0, ecode := 0 } ∧ t.mem = s.mem) ∧
      (w.cfg.getLsbD 63 = false → ok → ∃ t, exec (.qcfgWrite q v) s = .next t ∧
        t.live.queue q = { w with cfg := v &&& 0x80FFFFFF0FFF0000, head := w.tail, st := 0, ecode := 0 } ∧ t.mem = s.mem) ∧
      (w.cfg.getLsbD 63 = false → ¬ok → ∃ t, exec (.qcfgWrite q v) s = .next t ∧
        t.live.queue q = { w with cfg := v &&& 0x00FFFFFF0FFF0000 } ∧ t.mem = s.mem)) ∧
    (∀ c, c ≠ 0 → let w := s.dev.collector c
      let ok := v.getLsbD 63 = true ∧ 4 ≤ wbits v 51 48 ∧ ¬(w.base.getLsbD 63 = true ∧ (s.dev.ctx c).prot = true)
      (w.cfg.getLsbD 63 = true → v.getLsbD 63 = true → exec (.fqcfgWrite c v) s = .next s) ∧
      (w.cfg.getLsbD 63 = true → v.getLsbD 63 = false → ∃ t, exec (.fqcfgWrite c v) s = .next t ∧ t.dev.collector c = { w with cfg := setBits w.cfg 63 1 0 }) ∧
      (w.cfg.getLsbD 63 = false → ok → ∃ t, exec (.fqcfgWrite c v) s = .next t ∧ t.dev.collector c = { w with cfg := v &&& 0x800FFF8000000000, tail := 0 }) ∧
      (w.cfg.getLsbD 63 = false → ¬ok → ∃ t, exec (.fqcfgWrite c v) s = .next t ∧ t.dev.collector c = { w with cfg := v &&& 0x000FFF8000000000 })) ∧
    (∀ o, (s.dev.sched.queues.map Prod.fst).Nodup → ∃ t, exec (.owncfgWrite o v) s = .next t ∧ t.live.weight o = v.toNat % 2 ^ 16 ∧
      (∀ p, p ≠ o → t.live.weight p = s.live.weight p) ∧ (∀ q, (s.live.queue q).st ≠ 2 → t.live.queue q = s.live.queue q) ∧
      ∀ q, (s.live.queue q).st = 2 → t.live.queue q = { s.live.queue q with st := 1 } ∧ q ∈ t.dev.sched.kicks) ∧
    (∀ a : Word, let o := a.toNat % 2 ^ 60
      let same := fun (i : Instr) => ∃ t, exec (.registerWrite a v) s = .next t ∧ exec i s = .next t
      (∀ k, k < 4096 → o = 0x1000000 + 64 * k → same (.qcfgWrite k v)) ∧
      (∀ k, k < 1024 → o = 0x2010000 + 32 * k → same (.fqcfgWrite k v)) ∧
      (∀ k, k < 256 → o = 0x1080000 + 8 * k → same (.owncfgWrite k v)) ∧
      (∀ k, k < 192 → o = 0x100000 + 64 * k → same (.setptWrite k v)) ∧
      (∀ k, k < 36 → o = 0x201000 + 64 * k → same (.trkwhlWrite k v)) ∧
      (∀ k, k < 192 → o = 0x300000 + 64 * k → same (.rtrstatWrite k v)) ∧
      (∀ k, k < 18 → o = 0x400000 + 64 * k → same (.lnkstatWrite k v)) ∧
      (∀ k, k < 128 → o = 0x420000 + 8 * k → same (.lpstatWrite k v)) ∧
      (∀ k, k < 8 → o = 0x460000 + 64 * k → same (.uestatWrite k v)) ∧
      (o = 0x410000 → same (.hbmrateRequest v)) ∧
      (o = 0x200000 → exec (.registerWrite a v) s = .next (if s.boot.whldesc.getLsbD 63 then s
        else { s with boot := { s.boot with whldesc := v &&& wheelMask } })) ∧
      (o < 0x100000 → exec (.registerWrite a v) s = .next s))

namespace Sys2Proof.Say

open Sys2Proof.Machine

/-- An operand block of n bytes in the memory of the issuing thread's cluster: aligned, in the core's window, free of poison (R297, R300). -/
abbrev BlockAt (s : State) (a : Word) (n : Nat) : Prop :=
  a.toNat % n = 0 ∧ a.toNat / 2 ^ 60 = 2 ∧ a.toNat % 2 ^ 60 + n ≤ 2 ^ 22 ∧
    (∀ o, o < n → inWindow (s.dev.core (s.dev.cur / 64)).cmwin (a.toNat % 2 ^ 22 + o) = true) ∧ s.mem.anyPoison (place s a) n = false

/-- Bytes i to i + n − 1 of a block as a number. -/
abbrev field (blk i n : Nat) : Nat := blk / 2 ^ (8 * i) % 2 ^ (8 * n)

/-- An address of a path that an enqueue may name (R300). -/
abbrev OnPath (a : Word) (ps : List Nat) : Prop := a.toNat / 2 ^ 60 ∈ ps

/-- A job of the issuing thread as R293 draws it, last in its copy queue: its handle goes to D at once, and the queue's pointer is the core (R292). -/
def Enqueued (s t : State) (x : Ext) (j : Job) : Prop :=
  ∃ id owed, tfind t.dev.jobs id = some { j with seat := id, owed := owed } ∧ t.dev.getG s.dev.cur x.d.toNat = (if x.d = 0 then 0 else j.handle) ∧
    (t.dev.cluster (s.dev.cur / 512)).copyPtr = s.dev.cur / 64 % 8 ∧ (thr t).pc = (thr s).pc + BitVec.ofNat 64 (4 * words x) ∧ t.dev.cur = s.dev.cur

/-- A job whose enqueue waits for the reply of a collective engine (R300). -/
def SentToEngine (s t : State) (x : Ext) (eng : Nat) (j : Job) : Prop :=
  ∃ id r owed, tfind t.dev.jobs id = some { j with owed := owed } ∧ r ∈ t.dev.reqs ∧ r.kind = .coll id x.d.toNat ∧ r.dest = .gateway eng 37 ∧ r.stage = .going ∧
    (thr t).flight = .request r.id ((thr s).pc + BitVec.ofNat 64 (4 * words x)) ∧ (thr t).pc = (thr s).pc

/-- A job of this number. -/
abbrev HasJob (s : State) (n : Nat) (j : Job) : Prop := tfind s.dev.jobs n = some j

/-- A job of this number; its record may wait for its page (R393, R436). -/
def JobIs (s : State) (n : Nat) (j : Job) : Prop := ∃ owed, HasJob s n { j with owed := owed }

/-- The issuing thread reads its operand blocks at once (R235). -/
abbrev ReadsAtOnce (s : State) : Prop := s.dev.split = false ∧ ∀ r ∈ s.dev.reqs, r.tid = s.dev.cur → ∀ a, r.kind ≠ .operand a

end Sys2Proof.Say

/-- R293, R295, R297 to R303: the enqueues draw a record, take their operands and give their handle; JWAIT, JPOLL and JCANCEL. -/
def Obligations.JobInstructionResults : Prop :=
  ∀ (s : State) (x : Ext) (k : Kernel), ReadyX s x [x.d, x.a, x.b, x.c] [] → s.dev.kernel? (thr s).ctx (thr s).knum = some k →
    let ga := reg s x.a
    let gb := reg s x.b
    let blk := s.mem.read (place s (reg s x.c)) 64
    let sh := BitVec.ofNat 512 blk
    let c := s.dev.cur / 512
    let lclu := (thr s).lclu
    let imm := (match x.lit with
      | some v => v
      | none => x.imm.setWidth 64).toNat
    let job := fun (kind : Nat) (queue : JobQueue) (count : Nat) => ({ kind, ctx := k.ctx, knum := k.knum, owner := k.owner, lclu, jid := 0, epoch := 0, queue, core := s.dev.cur / 64, ga, gb, shape := sh, imm, count } : Job)
    let n0 := field blk 0 4
    let n1 := field blk 4 4
    let n2 := field blk 8 4
    (s.dev.pendingAccess s.dev.cur = false → ReadsAtOnce s → ∀ jid epoch, drawJid s.dev k lclu = some (jid, epoch) →
      (s.dev.copyRoom c (s.dev.cur / 64) = true → BlockAt s (reg s x.c) 64 →
        let here := fun (kind count : Nat) => { job kind (.copy c) count with jid, epoch }
        (field blk 48 8 = 0 → field blk 56 8 = 0 → field blk 13 3 = 0 → OnPath ga [0, 2, 3] → OnPath gb [0, 2, 3] → 1 ≤ n0 → n0 ≤ 65536 →
          (field blk 12 1 = 0 → 1 ≤ n1 * n2 → n1 * n2 ≤ 1048576 → ∃ t, exec (.cpy x) s = .next t ∧ Enqueued s t x (here 0 (n1 * n2))) ∧
          (field blk 12 1 ≤ 1 → field blk 40 8 = 0 → n2 = 1 → 1 ≤ n1 → n1 ≤ 1048576 →
            (∃ t, exec (.cpyg x) s = .next t ∧ Enqueued s t x (here 1 n1)) ∧ ∃ t, exec (.cpys x) s = .next t ∧ Enqueued s t x (here 2 n1))) ∧
        (∀ copy, let h : Word := BitVec.ofNat 64 (field blk 56 8)
          NamesCopy s h copy → copy.st = 2 → field blk 48 8 = 0 → field blk 13 3 = 0 → field blk 12 1 = 0 → OnPath ga [3] → OnPath gb [2] →
          1 ≤ n0 → n0 ≤ 65536 → 1 ≤ n1 * n2 → n1 * n2 ≤ 1048576 → (circ s (h.toNat / 2 ^ 20 % 2 ^ 12)).entry.toNat / 2 ^ 52 % 16 = 0 →
          (circ s (h.toNat / 2 ^ 20 % 2 ^ 12)).entry.toNat / 2 ^ 32 % 256 = s.boot.pkg →
          (circ s (h.toNat / 2 ^ 20 % 2 ^ 12)).entry.toNat / 2 ^ 24 % 256 = ga.toNat / 2 ^ 22 % 256 →
          ∃ t, exec (.cpyc x) s = .next t ∧ Enqueued s t x (here 3 (n1 * n2))) ∧
        (field blk 24 40 = 0 → field blk 12 4 = 0 → n0 = 0 → n2 = 1 → 1 ≤ n1 → n1 ≤ 1048576 → OnPath ga [0, 2, 3] → BlockAt s gb 16 →
          (s.dev.ctx (s.dev.ctxOf s.dev.cur)).adom ≠ 0 →
          let name := s.mem.read (place s gb) 16
          ∃ t, exec (.cpyn x) s = .next t ∧ Enqueued s t x { here 4 n1 with name := (BitVec.ofNat 64 name, BitVec.ofNat 64 (name / 2 ^ 64)) } ∧
            (name ≠ 0 → ∃ r id, r ∈ t.dev.reqs ∧ r.kind = .attic 8 (BitVec.ofNat 128 name) 0 (BitVec.ofNat 128 id) 0 0 0))) ∧
      ((∀ e ∈ s.dev.jobs, e.2.cnum = 0) → s.dev.cur < 98304 →
        (∀ eng, eng = field blk 11 1 → eng < 4 → s.boot.hasDie (8 + eng) = true → BlockAt s (reg s x.c) 64 → OnPath ga [0] → OnPath gb [0] →
          CanSend s (.gateway eng 37) none → (thr s).ctx = s.dev.ctxOf s.dev.cur →
          collOk ⟨sh⟩ (s.live.endpoint (thr s).ctx c (field blk 9 1)) = true →
          let count := if field blk 4 1 = 0 then n0 / field blk 7 1 / 512 else n0 / 512
          1 ≤ count → count ≤ 1048576 → ∃ t, exec (.coll x) s = .next t ∧
            SentToEngine s t x eng { job 5 (.coll eng (field blk 10 1)) count with jid, epoch, pending := true, ringDue := (CollShape.mk sh).flits }) ∧
        (let eng := imm / 2 ^ 16 % 4
          let fence := fun (q : JobQueue) => { job 6 q 0 with ga := 0, gb := 0, shape := 0, jid, epoch }
          s.boot.hasDie (8 + eng) = true →
          (imm / 2 ^ 18 % 2 = 0 → s.dev.copyRoom c (s.dev.cur / 64) = true → ∃ t, exec (.qfence x) s = .next t ∧
            Enqueued s t x { fence (.copy c) with waits := namedJobs s.dev k.ctx c eng (imm / 2 % 2 ^ 8) (imm % 2 == 1) }) ∧
          (imm / 2 ^ 18 % 2 = 1 → CanSend s (.gateway eng 37) none → (thr s).ctx = s.dev.ctxOf s.dev.cur → ∃ t, exec (.qfence x) s = .next t ∧
            SentToEngine s t x eng { fence (.coll eng (imm / 2 ^ 13 % 8)) with pending := true })))) ∧
    (∀ id j, s.live.named ga = .job id j → HasJob s id j →
      (j.ended = true → exec (.jwait x) s = .next (passed (words x) (withFlags (ofMflags j.flags) s))) ∧
      (j.ended = false → ∃ t, exec (.jwait x) s = .next t ∧ (thr t).st = .parked (.job ga) ∧ (thr t).pc = (thr s).pc ∧ t.mem = s.mem) ∧
      (j.st ∈ [0, 1, 2, 6] ∨ (j.st = 5 ∧ j.items ≠ []) → exec (.jpoll x) s = .next (wrote s (words x) x.d j.word0) ∧ j.word0.toNat / 2 ^ 61 ∈ [0, 1, 2, 6]) ∧
      (j.st ∈ [3, 4] ∨ (j.st = 5 ∧ j.items = []) →
        exec (.jpoll x) s = .next (passed (words x) (withFlags (ofMflags j.flags) (withReg x.d j.word0 s)))) ∧
      (j.st ∈ [0, 1, 2, 6] → ∃ t q, exec (.jcancel x) s = .next t ∧ HasJob t id q ∧ q.st = 5 ∧ q.items = j.items.filter Item.begun ∧ t.dev.regs = s.dev.regs ∧
          (thr t).pc = (thr s).pc + BitVec.ofNat 64 (4 * words x)) ∧
      (j.st ∈ [3, 4, 5] → exec (.jcancel x) s = .next (passed (words x) s))) ∧
    (Alone s → s.live.named ga = .invalid → ∀ i ∈ [Instr.jwait x, .jpoll x, .jcancel x], ∃ t, exec i s = .next t ∧ Trapped s t 0x80 1)

/-- R292, R295 to R302: the steps of the copy units: a job begins, its items begin and end, its stalls end, streams and their acknowledgements arrive; the
watchdog of R424. -/
def Sys2Proof.Say.CopyUnitSteps : Prop :=
  ∀ (s : State) (n : Nat) (j : Job), s.dev.stopped = none → HasJob s n j → j.ringDue = 0 →
    (j.st = 0 → j.pending = false → s.live.headOfQueue n j = true → s.live.refPending n = false →
      (j.kind ∈ [0, 1, 2, 4] → ∃ t, exec (.jobBegin n) s = .next t ∧ JobIs t n { j with st := 1 }) ∧
      (j.kind = 3 → j.stream = 0 → ∃ t r, exec (.jobBegin n) s = .next t ∧ JobIs t n { j with st := 1, stream := 1 } ∧ r ∈ t.dev.reqs ∧ r.kind = .stream n ∧
        r.dest = .cluster (j.ga.toNat / 2 ^ 22 % 256)) ∧
      (j.kind = 6 → j.items = [] → j.count = 0 → j.nfail = 0 → (∀ w ∈ j.waits, ∀ q, HasJob s w q → w ≠ n ∧ q.ended = true) → ∃ t, exec (.jobBegin n) s = .next t ∧
        JobIs t n { j with st := 3, waits := [] })) ∧
    (∀ k, j.kind = 0 → j.st = 1 → j.items = [] → k = j.next → k < j.count → j.chs = 0 → j.chd = 0 → s.boot.hasCluster (j.core / 8) = true →
      let c := j.core / 8
      let src := plainSrc j k
      let dst := plainDst j k
      let bytes := itemBytes j
      let at_ := fun (a : Word) => a.toNat / 2 ^ 60 = 2 ∧ a.toNat % 2 ^ 60 + bytes ≤ 2 ^ 22 ∧ ∀ o, o < bytes → s.live.ctxWindow j.ctx c (a.toNat % 2 ^ 22 + o) = true
      let run := fun (a : Word) (w : Bool) => (granulesOf (a.toNat % 16) bytes).map fun g =>
        ({ pa := clusterPa c (a.toNat % 2 ^ 22) + (g.1 - a.toNat % 16), n := g.2, write := w } : Part)
      at_ src → at_ dst → ∃ t r q, exec (.jobItemStart n k) s = .next t ∧ HasJob t n q ∧ q.next = k + 1 ∧
        q.items = [{ idx := k, src := src, dst := dst, req := some r.id }] ∧ r ∈ t.dev.reqs ∧ r.kind = .piece n k ∧
        r.parts = run src false ++ run dst true ∧ t.mem = s.mem) ∧
    (j.kind ≤ 4 → j.st = 2 → ∃ t, exec (.jobUnstall n true) s = .next t ∧
      JobIs t n { j with st := 1, items := j.items.map fun i => { i with waiting := false } } ∧ ∀ c, ∀ m ∈ (t.dev.core c).misses, m.job ≠ n) ∧
    (∀ i r, j.kind ∈ [0, 1, 2, 4] → j.st = 1 → j.items = [i] → i.waiting = false → i.fail = none → i.req = some r.id → HasReq s r.id r → r.kind = .piece n i.idx →
      r.ended = true → r.fail = none → ∃ t q, exec (.jobItemDone n i.idx) s = .next t ∧ HasJob t n q ∧ q.items = [] ∧ q.done = j.done + 1 ∧
        q.nfail = j.nfail ∧ Gone t r.id ∧ (j.waits = [] → j.count ≤ j.done + 1 + j.nfail → q.st = if j.nfail = 0 then 3 else 4) ∧
        (j.done + 1 + j.nfail < j.count → q.st = 1)) ∧
    (∀ i r c d p, j.kind ∈ [0, 1, 2, 4] → j.st = 1 → j.items = [i] → i.waiting = false → i.fail = none → i.req = some r.id → HasReq s r.id r →
      r.kind = .piece n i.idx → r.ended = true → r.fail = some (c, d, p) → ∃ t q e, exec (.jobItemDone n i.idx) s = .next t ∧ HasJob t n q ∧ q.items = [] ∧
        q.done = j.done ∧ q.nfail = j.nfail + 1 ∧ Gone t r.id ∧ e ∈ (t.dev.collector j.ctx).queue ∧ e.cause = c ∧ e.handle = j.handle ∧ e.item = i.idx ∧
        (e.addr = i.src ∨ e.addr = i.dst)) ∧
    (∀ r c, HasReq s r.id r → r.kind = .stream n → r.dest = .cluster c → Came s r false → let cnum := j.chd.toNat / 2 ^ 20 % 2 ^ 12
      (∀ x ∈ s.dev.streams, ¬(x.cluster = c ∧ x.cnum = cnum)) → ∃ t x q, exec (.streamDescriptor r.id) s = .next t ∧ x ∈ t.dev.streams ∧ x.cluster = c ∧
        x.cnum = cnum ∧ x.job = n ∧ x.ctx = j.ctx ∧ x.base = j.ga.toNat % 2 ^ 22 ∧ x.n0 = field j.shape.toNat 0 4 ∧ x.n1 = field j.shape.toNat 4 4 ∧
        x.n2 = field j.shape.toNat 8 4 ∧ x.row = 0 ∧ x.got = 0 ∧ HasReq t r.id q ∧ q.fail = r.fail ∧ (q.stage = .back ∨ q.stage = .replied)) ∧
    (∀ c x f k i data, s.dev.flits.find? (fun f => f.at_ == some (.cluster c) && f.cnum == x.cnum && !f.rev) = some f → f.payload = .stream x.job k i data →
      f.bad = false → s.dev.split = false →
      s.dev.streams.find? (fun y => y.cluster == c && y.cnum == x.cnum && y.job == x.job) = some x → x.row < x.n1 * x.n2 → x.got = 0 → x.bad = 0 → 1 ≤ x.n0 → x.n0 ≤ 64 →
      x.cluster = c → rowAddr x + x.n0 ≤ 2 ^ 22 → (∀ o, o < x.n0 → s.live.ctxWindow x.ctx c (rowAddr x + o) = true) →
      s.mem.anyPoison (clusterPa c (rowAddr x)) x.n0 = false → ∃ t y, exec (.streamFlitArrive c x.cnum) s = .next t ∧
        t.mem.read (clusterPa c (rowAddr x)) x.n0 = data.toNat % 2 ^ (8 * x.n0) ∧ SameOutside s.mem t.mem (clusterPa c (rowAddr x)) x.n0 ∧ y ∈ t.dev.streams ∧
        y.row = x.row + 1 ∧ y.got = 0 ∧ y.job = x.job ∧
        ∀ q, HasJob s x.job q → ∃ r ∈ t.dev.reqs, ∃ rows, r.kind = .rows x.job rows ∧ x.row * 256 ∈ rows) ∧
    (∀ r k i, j.kind = 3 → HasReq s r.id r → r.kind = .rows n [k * 256] → Came s r false → r.reported = false → (∀ q ∈ s.dev.reqs, ∀ ks, q.kind = .rows n ks → q = r) →
      j.items = [i] → i.idx = k → i.fail = none → i.req = none → ∃ t q, exec (.rowAck n 1) s = .next t ∧ HasJob t n q ∧ q.items = [] ∧ q.done = j.done + 1 ∧ Gone t r.id) ∧
    (∀ i, j.kind ≤ 4 → j.st = 1 → j.items = [i] → i.waiting = false → i.fail = none → ∃ t q, exec (.engineWatchdog n i.idx) s = .next t ∧ HasJob t n q ∧
      q.items = [] ∧ q.nfail = j.nfail + 1 ∧ Recorded t j.ctx 0x88)

/-- R300, R304, R305, R424: the steps of the collective engines: an engine takes an enqueue, a job begins, a flit of the ring arrives and is combined and sent
on, or written; ring data for no job, and the time limit. -/
def Sys2Proof.Say.CollectiveEngineSteps : Prop :=
  ∀ (s : State) (n : Nat) (j : Job), s.dev.stopped = none → HasJob s n j → j.kind = 5 →
    let c : CollShape := ⟨j.shape⟩
    (∀ r d, HasReq s r.id r → r.kind = .coll n d → j.pending = true →
      (s.dev.jobs.filter fun e => e.2.queue == j.queue && !e.2.ended && !e.2.pending).length < 32 → Came s r false →
      ∃ t q, exec (.collEnqueueAccept r.id) s = .next t ∧ HasJob t n { j with pending := false, waits := [], seat := s.dev.fresh } ∧ HasReq t r.id q ∧
        q.out = j.handle ∧ (q.stage = .back ∨ q.stage = .replied)) ∧
    (let e := s.live.endpoint j.ctx (j.core / 8) (j.shape.toNat / 2 ^ 72 % 256)
     let missing := e.toNat / 2 ^ 52 % 16 = 3 ∧ 128 ≤ e.toNat / 2 ^ 32 % 256 ∧ (tget s.dev.links.uepeer (0, 0) (e.toNat / 2 ^ 32 % 256 - 128)).1.toNat < 2 ^ 63
     j.st = 0 → j.pending = false → s.live.headOfQueue n j = true → s.live.refPending n = false →
     (missing → ∃ t q, exec (.jobBegin n) s = .next t ∧ HasJob t n q ∧ (j.count = 1 → j.itemsOver = [] → j.waits = [] → j.fcause = 0 →
       j.cnum = 0 → j.done = 0 → j.nfail = 0 → q.st = 4 ∧ q.nfail = 1 ∧ q.fcause = 0x8D ∧ t.dev.reqs = s.dev.reqs)) ∧
     (¬missing → ∃ t r a b, exec (.jobBegin n) s = .next t ∧ JobIs t n { j with st := 1 } ∧ r ∈ t.dev.reqs ∧ r.kind = .circuit 9 a b 0 0 n)) ∧
    (∀ f : RingFlit, ringJob s.live f = some (n, j) → j.st = 1 → j.cnum ≠ 0 → j.ceased = false → s.dev.split = false →
      (∀ x ∈ s.dev.flits, ∀ g, x.ringAt f.eng = some g → ¬(g.ctx = f.ctx ∧ g.rid = f.rid ∧ g.seg = f.seg)) → tget j.segs {} f.seg = {} →
      ringMismatch c f = false → f.seg < c.p → f.blk < c.blocks → f.n < 8 → f.bad = false → j.ringIn + 1 < j.ringDue →
      let input := j.ga + BitVec.ofNat 64 (f.seg * c.q + 512 * f.blk)
      let output := j.gb + BitVec.ofNat 64 (if c.op = 0 then 512 * f.blk else f.seg * c.q + 512 * f.blk)
      let item := if c.op = 0 then f.blk else f.seg * c.blocks + f.blk
      (∀ pas, f.phase = 0 → f.seg ≠ c.rank → c.efmt = 2 → c.red = 0 → j.wf = false → j.clr = false → input.toNat % 16 = 0 →
        collBlock s.boot s.live j.ctx input false (spotsOf input 512) [] = .ok pas →
        (∀ pa ∈ pas, s.mem.isPoisoned (pa / 16) = false) → ∃ t e g, exec (.ringFlitArrive f) s = .next t ∧ e ∈ t.dev.flits ∧ e.cnum = j.cnum ∧ e.payload = .ring g ∧
          g.phase = 0 ∧ g.seg = f.seg ∧ g.blk = f.blk ∧ g.n = f.n ∧ g.bad = false ∧ t.mem = s.mem ∧
          ∀ i, i < 16 → g.data.extractLsb' (32 * i) 32 =
            f.data.extractLsb' (32 * i) 32 + BitVec.ofNat 32 (s.mem.read (pas.getD (4 * f.n + i / 4) 0 + 4 * (i % 4)) 4)) ∧
      (∀ pas, f.phase = 1 → item ∉ j.itemsOver → output.toNat % 16 = 0 → collBlock s.boot s.live j.ctx output true (spotsOf output 512) [] = .ok pas →
        (∀ pa ∈ pas, s.mem.isPoisoned (pa / 16) = false) → ∃ t q, exec (.ringFlitArrive f) s = .next t ∧ HasJob t n q ∧
          (tget j.written 0 item + 64 < 512 → tget q.written 0 item = tget j.written 0 item + 64 ∧ item ∉ q.itemsOver ∧
            ∀ i, i < 4 → t.mem.read (pas.getD (4 * f.n + i) 0) 16 = (f.data.extractLsb' (128 * i) 128).toNat) ∧
          (tget j.written 0 item + 64 = 512 → item ∈ q.itemsOver ∧ q.done = j.done + 1) ∧
          (f.seg ≠ (c.rank + 1) % c.p → ∃ e g, e ∈ t.dev.flits ∧ e.cnum = j.cnum ∧ e.payload = .ring g ∧ g.data = f.data ∧ g.phase = 1 ∧
            g.seg = f.seg ∧ g.blk = f.blk ∧ g.n = f.n))) ∧
    (∀ f : RingFlit, f.ctx ≠ 0 → (∀ e ∈ s.dev.jobs, e.2.ctx ≠ f.ctx) → (∀ x ∈ s.dev.flits, ∀ g, x.ringAt f.eng = some g → g.ctx ≠ f.ctx) →
      ∃ t, exec (.ringFlitArrive f) s = .next t ∧ Recorded t f.ctx 0x87 ∧ t.dev.jobs = s.dev.jobs ∧ t.mem = s.mem) ∧
    (j.st = 1 → c.tmo ≠ 0 → j.itemsOver = [] → j.done = 0 → j.nfail = 0 → j.fcause = 0 → j.waits = [] → 1 ≤ j.count →
      ∃ t q, exec (.collTimeout n) s = .next t ∧ HasJob t n q ∧ q.st = 4 ∧ q.nfail = j.count ∧ q.fcause = 0x82)

/-- R292, R295 to R305, R424: the steps of the copy units and of the collective engines: a job begins, its items begin and end, its stalls end, an engine takes
an enqueue, flits of a ring arrive, streams and their acknowledgements arrive, and the time limits. -/
def Obligations.JobSteps : Prop := CopyUnitSteps ∧ CollectiveEngineSteps

namespace Sys2Proof.Say

open Sys2Proof.Machine

/-- The scheduler takes the head packet of a queue, of this type, now (R321, R322, R329): p is its bytes. -/
abbrev Takes (s : State) (q p ty : Nat) : Prop :=
  s.live.schedRuns s.boot = true ∧ s.live.servedNow = some q ∧ ((s.live.queue q).base.getLsbD 63 = true → s.dev.hostUp = true) ∧
    s.live.headPacket s.boot (s.live.queue q) = .ok p ∧ field p 0 1 = ty ∧ (field p 1 1 / 2 % 2 = 0 ∨ (s.live.queue q).open_ = [])

/-- A queue's head packet has been taken (R321). -/
abbrev Taken (s t : State) (q : Nat) : Prop := (t.live.queue q).head = ((s.live.queue q).head + 1) % 2 ^ 32

/-- No cluster is being recalled. -/
abbrev NoRecall (s : State) : Prop := ∀ e ∈ s.dev.clusters, e.2.rcl = false

/-- A kernel's record. -/
abbrev HasKernel (s : State) (k : Kernel) : Prop := s.dev.kernel? k.ctx k.knum = some k

/-- The journal holds an entry of this kind for a kernel (R327). -/
abbrev Entered (t : State) (kind q knum : Nat) : Prop := ∃ e ∈ t.dev.sched.journal, e.kind = kind ∧ e.queue = q ∧ e.knum = knum

end Sys2Proof.Say

/-- R310, R313, R318 to R325: the doorbell, the scan of the queues, admission, the control packets and the choice of what is bound. -/
def Obligations.SchedulerSteps : Prop :=
  ∀ (s : State), s.dev.stopped = none →
    let sch := fun (t : State) => t.dev.sched
    (∀ q (v : BitVec 32), let w := s.live.queue q
      (w.cfg.getLsbD 63 = false ∨ s.dev.hostUp = false → exec (.doorbellWrite q v) s = .next s) ∧
      (w.cfg.getLsbD 63 = true → s.dev.hostUp = true → ∃ t, exec (.doorbellWrite q v) s = .next t ∧ q ∈ (sch t).kicks ∧
        t.live.queue q = { w with tail := v.toNat, st := if w.st = 2 ∨ (w.st = 0 ∧ w.head ≠ v.toNat) then 1 else w.st })) ∧
    (∀ q, let w := s.live.queue q
      let count := (w.tail + 2 ^ 32 - w.head) % 2 ^ 32
      s.live.schedRuns s.boot = true → s.live.servedNow = none → (sch s).kicks = [q] → (w.base.getLsbD 63 = true → s.dev.hostUp = true) → w.cfg.getLsbD 63 = true → w.st ≠ 3 →
      (w.head = w.tail → ∃ t, exec .queueScan s = .next t ∧ q ∉ (sch t).kicks ∧ t.live.queue q = { w with st := 0 } ∧ (sch t).serving = none) ∧
      (w.head ≠ w.tail → w.size < count → ∃ t, exec .queueScan s = .next t ∧ q ∉ (sch t).kicks ∧ t.live.queue q = { w with st := 3, ecode := 3 }) ∧
      (w.head ≠ w.tail → count ≤ w.size →
        (∀ p, s.live.headPacket s.boot w = .ok p → ∃ t, exec .queueScan s = .next t ∧ q ∉ (sch t).kicks ∧ (sch t).lastServed = q ∧
          t.live.queue q = { w with st := 1 } ∧ (sch t).serving = some (q, w.tail)) ∧
        (∀ e, s.live.headPacket s.boot w = .error e → ∃ t, exec .queueScan s = .next t ∧ t.live.queue q = { w with st := 3, ecode := e } ∧
          (sch t).serving = none))) ∧
    (∀ q p, Takes s q p 1 →
      let w := s.live.queue q
      let n := (s.dev.ctx w.ctx).nextKnum
      let lrec := BitVec.ofNat 1024 (field p 64 128)
      (sch s).heap.length < 256 → s.dev.kernel? w.ctx n = none →
      (∀ cores, s.live.lrecFault s.boot lrec w.ctx w.owner = none → s.live.coreSet s.boot lrec = some cores →
        (∀ c ∈ cores, c ∉ s.live.takenCores) → (∀ h ∈ (sch s).heap, ¬(h.ctx = w.ctx ∧ h.knum = n)) →
        ∃ t k h, exec (.launch q) s = .next t ∧ Taken s t q ∧ t.dev.kernels = s.dev.kernels ++ [k] ∧ k.st = 0 ∧ k.ctx = w.ctx ∧ k.knum = n ∧ k.lrec = lrec ∧
          k.owner = w.owner ∧ k.cores = cores ∧ k.queue = q ∧ k.ring = w.head ∧ k.cmpaddr = BitVec.ofNat 64 (field p 8 8) ∧
          k.cmpval = BitVec.ofNat 64 (field p 16 8) ∧ (t.dev.ctx w.ctx).nextKnum = (n + 1) % 2 ^ 32 ∧ h ∈ (sch t).heap ∧ h.ctx = k.ctx ∧ h.knum = n ∧ h.cores = cores ∧
          h.deadline = field p 144 8 ∧ Entered t 0 q n ∧ t.mem = s.mem) ∧
      ((s.live.lrecFault s.boot lrec w.ctx w.owner).isSome = true → ∃ t k, exec (.launch q) s = .next t ∧ Taken s t q ∧
        t.dev.kernels = s.dev.kernels ++ [k] ∧ k.lrec = lrec ∧ k.cores = [] ∧ k.knum = n)) ∧
    (∀ q p tid k, let w := s.live.queue q
      let knum := field p 24 4
      s.dev.kernel? w.ctx knum = some k → s.live.target w p = some tid →
      (Takes s q p 2 → k.fpol % 4 = 1 → (s.dev.thread tid).st = .trapped → (s.dev.thread tid).faultInfo.toNat % 256 ∉ [0x34, 0x35, 0x37, 0xAC, 0xAE] →
        ∃ t, exec (.thresume q) s = .next t ∧ Taken s t q ∧ (t.dev.thread tid).st = .ready ∧
          (t.dev.thread tid).pc = ((s.dev.thread tid).resumeAt.getD (s.dev.thread tid).pc) ∧ t.dev.regs = s.dev.regs) ∧
      (Takes s q p 2 → k.fpol % 4 ≠ 1 → ∃ t, exec (.thresume q) s = .next t ∧ Taken s t q ∧ t.dev.threads = s.dev.threads) ∧
      (Takes s q p 3 → s.dev.gangOf tid = none → (s.dev.thread tid).still = true → (∀ r ∈ s.dev.reqs, r.tid ≠ tid) → (s.dev.thread tid).join = none →
        tid % 64 ≠ 63 → ∃ t, exec (.thend q) s = .next t ∧ Taken s t q ∧ (t.dev.thread tid).st = .free) ∧
      (Takes s q p 4 → (sch s).binds.length < 64 → k.st ∈ [0, 1, 2, 4, 5] → ∃ t e, exec (.kend q) s = .next t ∧ Taken s t q ∧ t.dev.kernel? w.ctx knum = some e ∧ e.st = 6 ∧ e.end_ = 2 ∧
        (sch t).binds = (sch s).binds ++ [{ kind := 2, ctx := w.ctx, knum, queue := k.queue, ring := k.ring, cores := [] }] ∧
        ∀ h ∈ (sch t).heap, ¬(h.ctx = w.ctx ∧ h.knum = knum))) ∧
    (∀ h k, s.live.schedRuns s.boot = true → (sch s).binds.length < 64 → (sch s).heap = [h] → (∀ k ∈ s.dev.kernels, k.st ≠ 1 ∧ k.st ≠ 2) →
      s.live.bindable h.ctx = true → (∀ c ∈ h.cores, s.live.freeCore h.owner (s.dev.kernels.flatMap s.live.boundCores) c = true) →
      s.dev.kernel? h.ctx h.knum = some k → (k.ctx, k.knum) ∉ (sch s).bound → ∃ t, exec .heapBind s = .next t ∧ (sch t).heap = [] ∧
        (sch t).binds = (sch s).binds ++ [{ kind := 0, ctx := k.ctx, knum := k.knum, queue := k.queue, ring := k.ring, cores := h.cores }] ∧
        (sch t).bound = (sch s).bound ++ [(k.ctx, k.knum)] ∧ Entered t 1 k.queue k.knum ∧ t.dev.threads = s.dev.threads ∧ t.mem = s.mem)

/-- R295, R309 to R311, R314, R317, R319, R326, R329, R330, R347: dispatch populates, saves and retires kernels, completions are made, the standby
takes over, and borders move. -/
def Obligations.DispatchSteps : Prop :=
  ∀ (s : State), s.dev.stopped = none →
    let sch := fun (t : State) => t.dev.sched
    (∀ r rest k, s.live.populating = none → (sch s).binds = r :: rest → (sch s).tko = false → (sch s).fifo.length < 1024 → r.kind = 0 →
      HasKernel s k → k.ctx = r.ctx → k.knum = r.knum → k.st = 0 → s.live.areaWaits s.boot k.ctx k.jsa (32 * k.nclu) = false →
      s.live.lrecFault s.boot k.lrec k.ctx k.owner = none →
      ∀ cores, (k.cores ≠ [] ∧ cores = k.cores ∨
          k.cores = [] ∧ s.live.coreSet s.boot k.lrec = some cores ∧
            ∀ c ∈ cores, s.live.freeCore k.owner (s.dev.kernels.flatMap s.live.boundCores) c = true) →
        ∃ t c, exec .bindRecord s = .next t ∧ (sch t).binds = rest ∧ (sch t).fifo = (sch s).fifo ++ [c] ∧ c.taken = true ∧
          HasKernel t { k with cores, lstks := Kernel.launchStacks { k with cores }, st := 1, populated := 0, nextLt := [] } ∧
          t.dev.threads = s.dev.threads) ∧
    (∀ r rest k, s.live.populating = none → (sch s).binds = r :: rest → (sch s).tko = false → (sch s).fifo.length < 1024 → r.kind = 2 →
      HasKernel s k → k.ctx = r.ctx → k.knum = r.knum → k.st = 6 → (∀ e ∈ s.dev.clusters, e.2.busy = false) →
      ∃ t, exec .bindRecord s = .next t ∧ (sch t).binds = rest ∧ HasKernel t k ∧
        ∀ tid th, tfind s.dev.threads tid = some th → th.ctx = k.ctx → th.knum = k.knum → (∃ w, th.st = .parked w) → (t.dev.thread tid).st = .halted false) ∧
    (∀ k core slot base, s.live.populating = some k → HasKernel s k → k.cores[k.populated]? = some core → core < 2048 → (s.dev.core core).lost = false →
      (s.dev.cluster (core / 8)).rcl = false → s.dev.coreFits k core = true → k.quota = 1 → s.dev.freeSlot core 0 56 = some slot → s.dev.freeWindow core k.regs = some base → 9 ≤ k.regs →
      k.populated + 1 < k.cores.length → ∃ t q, exec .bindRecord s = .next t ∧ t.dev.kernel? k.ctx k.knum = some q ∧ q.st = 1 ∧ q.populated = k.populated + 1 ∧
        let id := core * 64 + slot
        let th := t.dev.thread id
        th.st = .ready ∧ th.pc = BitVec.ofNat 64 k.entry ∧ th.ctx = k.ctx ∧ th.knum = k.knum ∧ th.wbase = base ∧ th.wsize = k.regs ∧ th.lthread = 0 ∧
          (∀ i, i < 8 → t.dev.getG id (i + 1) = BitVec.ofNat 64 (lrecField k.lrec (8 + 8 * i) 8)) ∧
          (∀ i, 9 ≤ i → i < k.regs → t.dev.getG id i = 0) ∧ (t.dev.core core).ctxnum.toNat % 2 ^ 16 = k.ctx % 2 ^ 16 ∧
          (t.dev.core core).icache = [] ∧ (t.dev.core core).code = s.mem.cells) ∧
    (∀ k, HasKernel s k → NoRecall s → k.st = 1 ∨ k.st = 2 → (∀ e ∈ s.dev.jobs, ¬(e.2.ctx = k.ctx ∧ e.2.knum = k.knum)) →
      ∃ t, exec (.preemptRequest k.ctx k.knum) s = .next t ∧ HasKernel t { k with st := 3 } ∧
        ∀ tid th, tfind s.dev.threads tid = some th → th.ctx = k.ctx → th.knum = k.knum → (s.dev.cluster (tid / 512)).busy = false →
          (th.st = .ready → th.flight = .none → (t.dev.thread tid).st = .halted false ∧ (t.dev.thread tid).pc = th.pc) ∧
          (th.st = .trapped → (t.dev.thread tid).st = .halted true)) ∧
    (∀ k lc core u, HasKernel s k → k.cores[lc]? = some core → core < 2048 → (s.dev.cluster (core / 8)).busy = false → k.st = 3 → lc < k.populated → lc ∉ k.saved → s.live.quiet k.ctx k.knum = true →
      s.dev.stillOn k.ctx k.knum (· == core) = true → s.live.fwReachAll s.boot k.ctx (k.coreBlock lc) true (k.cbBytes / 16 - 1) = .ok u →
      ∃ t q, exec (.coreSave k.ctx k.knum lc) s = .next t ∧ t.dev.kernel? k.ctx k.knum = some q ∧ lc ∈ q.saved ∧ q.st = 3 ∧
        ∀ slot th, slot < 63 → tfind s.dev.threads (core * 64 + slot) = some th → th.ctx = k.ctx → th.knum = k.knum →
          (t.dev.thread (core * 64 + slot)).st = .free) ∧
    (∀ k u, HasKernel s k → NoRecall s → k.st = 3 → (∀ i, i < k.populated → i ∈ k.saved) → s.live.jobsSaved k.ctx k.knum = true → s.live.quiet k.ctx k.knum = true →
      s.live.fwReachAll s.boot k.ctx k.savea true (4096 * (k.nclu + 1) / 16 - 1) = .ok u → k.endAfter = false → ∃ t, exec (.kernelSaved k.ctx k.knum) s = .next t ∧
        HasKernel t { k with st := 4 } ∧ (k.ctx, k.knum) ∉ (sch t).bound ∧ t.dev.regs = s.dev.regs) ∧
    (∀ k, HasKernel s k → NoRecall s → k.st = 5 → s.dev.domainEmpty k.ctx k.knum = true → (∀ e ∈ s.dev.jobs, ¬(e.2.ctx = k.ctx ∧ e.2.knum = k.knum)) →
      (∀ e ∈ s.dev.clusters, ∀ m ∈ e.2.moves, ¬(m.ctx = k.ctx ∧ m.knum = k.knum)) → s.live.recordWaits s.boot k = false →
      (sch s).fifo.length < 1024 → ∃ t c, exec (.kernelRetire k.ctx k.knum) s = .next t ∧ (sch t).fifo = (sch s).fifo ++ [c] ∧ c.ctx = k.ctx ∧ c.knum = k.knum ∧
        c.queue = k.queue ∧ c.addr = k.cmpaddr ∧ c.val = k.cmpval ∧ c.flags = k.flags ∧
        (k.end_ < 2 ^ 8 → c.info.toNat = k.end_ + k.cause % 2 ^ 8 * 2 ^ 8 + k.refoff % 2 ^ 16 * 2 ^ 16 + k.knum % 2 ^ 32 * 2 ^ 32) ∧
        t.dev.kernel? k.ctx k.knum = none) ∧
    (∀ c rest, (sch s).hold = false → (sch s).fifo = c :: rest → c.taken = true →
      exec .retireReport s = .next { s with dev := { s.dev with sched := { sch s with fifo := rest } } }) ∧
    (∀ c, (sch s).hold = false → (sch s).fifo = [c] → c.taken = false → (s.dev.ctx c.ctx).poison = false → c.addr ≠ 0 → c.flags / 4 % 2 = 1 → c.flags % 2 = 0 → s.dev.hostUp = true →
      c.addr.toNat + 16 ≤ 2 ^ 64 → ∃ t, exec .retireReport s = .next t ∧ (sch t).fifo = [] ∧ (c.ctx, c.knum) ∉ (sch t).bound ∧ t.mem = s.mem ∧
        t.dev.hostRead c.addr.toNat 16 = c.val.toNat + 2 ^ 64 * c.info.toNat ∧
        ∀ k ∈ t.dev.kernels, ¬(k.ctx = c.ctx ∧ k.knum = c.knum ∧ k.st = 7)) ∧
    ((sch s).lost = false → ∀ i ∈ [Instr.schedHeartbeatTimeout, .schedImemError],
      ((sch s).sbyok = true → ∃ t, exec i s = .next t ∧ Recorded t 0 0xF0 ∧ (sch t).hold = true ∧ (sch t).tko = true ∧ (sch t).sbyok = false ∧
        (sch t).act = !(sch s).act ∧ (sch t).serving = none ∧ (sch t).heap = (sch s).heap) ∧
      ((sch s).sbyok = false → ∃ t, exec i s = .next t ∧ Recorded t 0 0xF1 ∧ (sch t).lost = true ∧ (sch t).hold = true)) ∧
    ((sch s).tko = true → (sch s).lost = false → (sch s).fifo = [] → ∃ t, exec .takeOverEnd s = .next t ∧ (sch t).hold = false ∧ (sch t).tko = false ∧
      (∀ q ∈ (sch s).kicks, q ∈ (sch t).kicks) ∧ (∀ r, (sch s).redo = some (.bind r) → (r.ctx, r.knum) ∈ (sch t).bound ∨ r.kind = 2) ∧
      ((sch s).redo = none → ∀ e ∈ (sch s).queues, e.2.cfg.getLsbD 63 = true → e.2.tail ≠ e.2.head → e.1 ∈ (sch t).kicks)) ∧
    ((sch s).tko = false → (sch s).lost = false → exec .standbyReady s = .next { s with dev := { s.dev with sched := { s.dev.sched with sbyok := true } } }) ∧
    (∃ t, exec .progressCheck s = .next t ∧ (∀ o, o < 256 → tget (sch t).progress 0 o = (tget s.dev.usage 0 (o * 16)).toNat) ∧ t.mem = s.mem ∧
      t.dev.threads = s.dev.threads ∧ (∀ c, (t.dev.cluster c).user = (s.dev.cluster c).user) ∧
      ((∀ o, s.live.share s.boot o = 0) → t.dev.clusters = s.dev.clusters)) ∧
    (∀ c, (s.dev.cluster c).xfer = true → (∀ e ∈ s.dev.threads, e.1 / 512 = c → e.2.live = false) →
      (∀ k ∈ s.dev.kernels, ∀ x ∈ s.live.boundCores k, x / 8 ≠ c) → ∃ t, exec (.borderMove c) s = .next t ∧
        t.dev.cluster c = { s.dev.cluster c with xfer := false, user := (s.dev.cluster c).xferTo } ∧ t.dev.threads = s.dev.threads)

namespace Sys2Proof.Say

open Sys2Proof.Machine

/-- A command of the security core is answered: command and result code at its mailbox, last of what the package gives out (R335). -/
abbrev Answers (s t : State) (cmd res : Nat) : Prop := t.dev.out = s.dev.out ++ [.mailbox cmd res]

/-- A command answered with nothing done. -/
def refusedWith (s : State) (cmd res : Nat) : State := { s with dev := { s.dev with out := s.dev.out ++ [.mailbox cmd res] } }

/-- A number that names a context (R332). -/
abbrev IsCtx (c : Nat) : Prop := 1 ≤ c ∧ c ≤ 1023

/-- An SPDM session is open whose requester has attested the part (R335). -/
abbrev Attested (s : State) : Prop := ∃ e ∈ s.dev.sessions, e.2 = true

end Sys2Proof.Say

/-- R332 to R337, R341, R343, R346 to R348, R364: the commands of the security core: what each does, in which states, and what it answers. That one with key
material outside an attested session is answered DENIED is the model's choice (assumption 96). -/
def Obligations.ContextCommandResults : Prop :=
  ∀ (s : State) (n : Nat), s.dev.stopped = none →
    let c := s.dev.ctx n
    (∀ (e : Word) (a : Nat) (mask : BitVec 8) (key : BitVec 256) (own : Bool),
      ∀ x ∈ [(Instr.create n a own e e [], 1, [0]), (.attach n a mask a a, 2, [1, 2, 3]), (.epset n a a e, 3, [1, 2, 3]), (.activate n, 4, [1, 2]),
        (.rekey n a key, 5, [3]), (.efwd n own, 6, [1, 2]), (.destroy n, 7, [1, 2, 3, 4, 5, 6]), (.resume n, 8, [4]), (.keyload n a key a, 9, [1, 2, 3, 4])],
        (x.2.1 = 9 → Attested s) → (¬IsCtx n → exec x.1 s = .next (refusedWith s x.2.1 3)) ∧ (IsCtx n → c.st ∉ x.2.2 → exec x.1 s = .next (refusedWith s x.2.1 1))) ∧
    (¬Attested s → ∀ (a b : Nat) (key : BitVec 256) (dk : Option (BitVec 256)) pools, exec (.keyload n a key b) s = .next (refusedWith s 9 5) ∧
      exec (.adomcfg n dk pools) s = .next (refusedWith s 13 5)) ∧
    (IsCtx n →
      (∀ owner prot spill ptroot pages, c.st = 0 → owner < 256 →
        (∀ p ∈ pages, Page.ok s.boot p = true ∧ s.live.pageTaken p (fun c => c.st != 0) = false ∧ s.live.paLost s.boot p.pa = false ∧
          ∀ a ∈ s.live.poolLines, a + 128 ≤ p.pa ∨ p.pa + p.bytes ≤ a) →
        ∃ t, exec (.create n owner prot spill ptroot pages) s = .next t ∧ Answers s t 1 0 ∧ (t.dev.ctx n).st = 1 ∧ (t.dev.ctx n).owner = owner ∧
          (t.dev.ctx n).prot = prot ∧ (t.dev.ctx n).spill = spill ∧ (t.dev.ctx n).ptroot = ptroot ∧ (t.dev.ctx n).pages = pages ∧
          (t.dev.ctx n).attached = [] ∧ (t.dev.ctx n).keyMem = none ∧ (t.dev.ctx n).keyFab = none ∧
          ∀ a, ((∃ p ∈ pages, p.pa ≤ a ∧ a < p.pa + p.bytes) → t.mem.byteAt a = 0 ∧ t.mem.isFull (a / 16) = true) ∧
            ((∀ p ∈ pages, a < p.pa ∨ p.pa + p.bytes ≤ a) → t.mem.byteAt a = s.mem.byteAt a)) ∧
      (∀ cluster (mask : BitVec 8) base size, c.st ∈ [1, 2, 3] → s.boot.hasCluster cluster = true → mask ≠ 0 → base + size ≤ 64 →
        (s.dev.cluster cluster).held = false → (s.dev.cluster cluster).rcl = false → (s.dev.cluster cluster).lost = false → dieOf cluster ∉ s.dev.links.diesLost →
        ((s.dev.cluster cluster).user ≠ c.owner → exec (.attach n cluster mask base size) s = .next (refusedWith s 2 5)) ∧
        ((s.dev.cluster cluster).user = c.owner → c.relay = true → (∀ a ∈ c.attached, a.1 ≠ cluster) → s.live.windowFree n cluster base size = true →
          (∀ e ∈ s.dev.ctxs, e.1 ≠ n → e.2.st ≠ 0 → ∀ a ∈ e.2.attached, a.1 = cluster → a.2.1 &&& mask.toNat = 0) →
          ∃ t, exec (.attach n cluster mask base size) s = .next t ∧ Answers s t 2 0 ∧ (t.dev.ctx n).attached = c.attached ++ [(cluster, mask.toNat, base, size)] ∧
            (t.dev.ctx n).st = c.st ∧ t.mem = s.mem)) ∧
      (∀ cluster ep (entry : Word), c.st ∈ [1, 2, 3] → ep < 64 → (∃ a ∈ c.attached, a.1 = cluster) → entry &&& 0x7FCFFF000000FFFF = 0 →
        ∃ t, exec (.epset n cluster ep entry) s = .next t ∧ Answers s t 3 0 ∧ t.live.endpoint n cluster ep = entry ∧
          ∀ k e, (k, e) ≠ (cluster, ep) → e < 64 → t.live.endpoint n k e = s.live.endpoint n k e) ∧
      (c.st = 2 ∨ (c.st = 1 ∧ c.prot = false) → ∃ t, exec (.activate n) s = .next t ∧ Answers s t 4 0 ∧ t.dev.ctx n = { c with st := 3 }) ∧
      (c.st = 1 → c.prot = true → exec (.activate n) s = .next (refusedWith s 4 1)) ∧
      (∀ key, c.st = 3 →
        (c.keyFab.isSome = true → ∃ t, exec (.rekey n 1 key) s = .next t ∧ Answers s t 5 0 ∧ t.dev.ctx n = { c with st := 5, rekey := some (1, key) }) ∧
        (∀ w, w < 4 → (tfind c.keyW w).isSome = true → s.live.keyInUse n w = false → ∃ t, exec (.rekey n (w + 2) key) s = .next t ∧ Answers s t 5 0 ∧
          tfind (t.dev.ctx n).keyW w = some key ∧ (t.dev.ctx n).st = 3) ∧
        (∀ slot, 1 ≤ slot → slot ≤ 5 → c.key slot = none → exec (.rekey n slot key) s = .next (refusedWith s 5 4)) ∧
        (∀ slot, slot = 0 ∨ 5 < slot → exec (.rekey n slot key) s = .next (refusedWith s 5 3))) ∧
      (∀ on, c.st = 1 ∨ c.st = 2 → ∃ t, exec (.efwd n on) s = .next t ∧ Answers s t 6 0 ∧ t.dev.ctx n = { c with efwd := on }) ∧
      (c.st ∈ [1, 2, 3, 4] → ∃ t, exec (.destroy n) s = .next t ∧ Answers s t 7 0 ∧ (t.dev.ctx n).st = 6) ∧
      (c.st = 5 → ∃ t, exec (.destroy n) s = .next t ∧ Answers s t 7 0 ∧ t.dev.ctx n = { c with destroy := true }) ∧
      (c.st = 4 → (c.prot = false → ∃ t, exec (.resume n) s = .next t ∧ Answers s t 8 0 ∧ t.dev.ctx n = { c with st := 3 }) ∧
        (c.prot = true → exec (.resume n) s = .next (refusedWith s 8 1))) ∧
      (∀ key, Attested s →
        (c.st = 1 → c.keyMem = none → c.keyFab = none → ∃ t, exec (.keyload n 0 key 0) s = .next t ∧ Answers s t 9 0 ∧ t.dev.ctx n = { c with keyMem := some key }) ∧
        (c.st = 1 → c.keyMem.isSome = true → ∃ t, exec (.keyload n 1 key 0) s = .next t ∧ Answers s t 9 0 ∧ t.dev.ctx n = { c with keyFab := some key, st := 2 }) ∧
        (c.st = 3 → ∀ w, w < 4 → ∃ t, exec (.keyload n (w + 2) key 0) s = .next t ∧ Answers s t 9 0 ∧ tfind (t.dev.ctx n).keyW w = some key) ∧
        (c.st = 1 ∨ c.st = 2 → ∀ w, w < 4 → exec (.keyload n (w + 2) key 0) s = .next (refusedWith s 9 1)) ∧
        (∀ adom, c.st = 3 → 1 ≤ adom → adom ≤ 255 → ((tfind s.dev.domains adom).isSome = true → ∃ t, exec (.keyload n 6 key adom) s = .next t ∧
          Answers s t 9 0 ∧ t.dev.ctx n = { c with adom := adom }) ∧
          (tfind s.dev.domains adom = none → exec (.keyload n 6 key adom) s = .next (refusedWith s 9 4))) ∧
        (c.st = 4 → c.prot = true → c.reloaded = 1 → ∃ t, exec (.keyload n 1 key 0) s = .next t ∧ Answers s t 9 0 ∧ (t.dev.ctx n).st = 3))) ∧
    (∀ borrower, let r := s.dev.cluster n
      s.boot.hasCluster n = true → borrower < 256 → borrower ≠ r.home → r.held = false → r.rcl = false → r.lent = false → r.xfer = false → r.user = r.home →
      s.live.idleCluster n = true → ∃ t, exec (.lend n borrower) s = .next t ∧ Answers s t 10 0 ∧ t.dev.cluster n = { r with user := borrower, lent := true } ∧
        ∀ k, k ≠ n → t.dev.cluster k = s.dev.cluster k) ∧
    (∀ k, let r := s.dev.cluster n
      s.boot.hasCluster n = true → r.lent = true → r.rcl = false → s.dev.kernels = [k] → k.st = 2 → (∃ x ∈ k.cores, x / 8 = n) → s.dev.jobs = [] →
      ∃ t, exec (.recallCluster n) s = .next t ∧ Answers s t 11 0 ∧ (t.dev.cluster n).rcl = true ∧ (t.dev.cluster n).user = r.user ∧
        t.dev.kernels = [{ k with st := 3 }]) ∧
    (let r := s.dev.cluster n;
      s.boot.hasCluster n = true → r.lent = true → r.rcl = false → r.held = false → s.dev.kernels = [] → (∀ e ∈ s.dev.ctxs, ∀ a ∈ e.2.attached, a.1 ≠ n) →
      ∃ t, exec (.recallCluster n) s = .next t ∧ Answers s t 11 0 ∧ t.dev.cluster n = { r with user := r.home, lent := false, rcl := false }) ∧
    (∀ nonce, (n < 256 → exec (.snap n nonce) s = .next { s with dev := { s.dev with snaps := s.dev.snaps + 1, out := s.dev.out ++
        [.measurement n s.dev.snaps (BitVec.ofNat 64 (s.dev.slots / s.boot.wheel)) ((List.range 9).map fun i => tget s.dev.usage 0 (n * 16 + i)) nonce, .mailbox 12 0] } }) ∧
      (256 ≤ n → exec (.snap n nonce) s = .next (refusedWith s 12 3))) ∧
    (∀ key p, Attested s → 1 ≤ n → n ≤ 255 → tfind s.dev.domains n = none → s.live.poolOk s.boot p = true → ∃ t d, exec (.adomcfg n (some key) [p]) s = .next t ∧ Answers s t 13 0 ∧
      tfind t.dev.domains n = some d ∧ d.dk = key ∧ ∀ a, a ∈ tget d.free [] p.stack ↔ ∃ i, i < p.lines ∧ a = p.base + 128 * i)

/-- R336, R339 to R341, R343, R349, R350: rekeys end, a context is poisoned, suspended and expires, and is scrubbed. -/
def Obligations.ContextLifeSteps : Prop :=
  ∀ (s : State) (n : Nat), s.dev.stopped = none →
    let c := s.dev.ctx n
    (∀ key, c.rekey = some (1, key) → c.st = 5 → s.live.rekeyDrained n = true → c.destroy = false → ∃ t, exec (.rekeySwap n) s = .next t ∧
      t.dev.ctx n = { c with st := 3, rekey := none, keyFab := some key } ∧ t.mem = s.mem) ∧
    (c.st = 5 → c.destroy = false → ∃ t, exec (.rekeyAbandon n) s = .next t ∧ t.dev.ctx n = { c with st := 3, rekey := none } ∧ Recorded t n 0xED) ∧
    (c.st = 3 → c.keyFab.isSome = true → ∃ t key, exec (.fabricRekeyAuto n) s = .next t ∧ t.dev.ctx n = { c with st := 5, rekey := some (1, key) } ∧ t.mem = s.mem) ∧
    (c.efwd = true → c.st = 3 ∨ c.st = 5 → ∃ t, exec (.contextPoison n) s = .next t ∧ (t.dev.ctx n).poison = true ∧ (t.dev.ctx n).st = 6 ∧
      Recorded t n 0xE0 ∧ Recorded t n 0xE1) ∧
    ((s.dev.ctxs.map Prod.fst).Nodup → ∃ t, exec .hotReset s = .next t ∧ t.dev.scrubs = [] ∧ t.dev.sessions = [] ∧ t.dev.sched.lost = false ∧ t.dev.sched.hold = false ∧
      t.dev.sched.tko = false ∧ (c.st = 3 → c.destroy = false → (t.dev.ctx n).st = 4 ∧ Recorded t n 0xEB ∧ (t.dev.ctx n).keyMem = c.keyMem) ∧
      (c.st ∈ [0, 1, 2, 6, 7] → (t.dev.ctx n).st = c.st) ∧ (∀ k, (t.dev.core k).tlb = [] ∧ (t.dev.core k).icache = [] ∧ (t.dev.core k).code = []) ∧
      ∀ k, (t.dev.cluster k).tlb2 = [] ∧ (t.dev.cluster k).robuf = []) ∧
    (c.st = 4 → ∃ t, exec (.suspendExpire n) s = .next t ∧ (t.dev.ctx n).st = 6 ∧ Recorded t n 0xEC) ∧
    (c.st = 6 → s.live.drained n = true → s.dev.scrubs = [] → ∃ t g, exec (.scrubStart n) s = .next t ∧ (t.dev.ctx n).st = 7 ∧
      tget t.dev.scrubs {} g = { ctx := n, phase := 1, restarts := 0, total := c.units } ∧ (∀ a ∈ c.attached, (t.dev.cluster a.1).held = true) ∧ t.mem = s.mem) ∧
    (∀ g, s.live.scrubOf n = some g → c.st = 7 → c.adom = 0 → NoRecall s → (∀ e ∈ s.dev.ctxs, e.1 = n ∨ e.2.st ≠ 7) → ∃ t, exec (.scrubDone n) s = .next t ∧
      t.dev.ctx n = {} ∧ (tget t.dev.scrubs {} g).phase = 5 ∧ (∀ a ∈ c.attached, (t.dev.cluster a.1).held = false) ∧
      (∀ a ∈ c.attached, dieOf a.1 ∉ s.dev.links.diesLost → ∀ o, o < 65536 * a.2.2.2 → t.mem.byteAt (clusterPa a.1 (65536 * a.2.2.1 + o)) = 0) ∧
      (∀ p ∈ c.pages, s.live.paLost s.boot p.pa = false → p.bytes % 16 = 0 → p.pa % 16 = 0 → ∀ o, o < p.bytes → t.mem.byteAt (p.pa + o) = 0) ∧
      (∀ k, ∀ e ∈ (t.dev.core k).tlb, e.ctx ≠ n) ∧ ∀ e ∈ t.dev.links.places, e.2 ≠ n)

/-- R5, R337, R359, R417 to R419, R421 to R424: machine checks, the loss of a die, the fault collectors, debug and the services of the part. -/
def Obligations.FaultAndServiceSteps : Prop :=
  ∀ (s : State), s.dev.stopped = none →
    (∀ die, die < 12 → s.boot.hasDie die = true → die ∉ s.dev.links.diesLost →
      (die = 8 ∨ die = 9 → ∃ t, exec (.dieLoss die) s = .next t ∧ t.dev.stopped = some 0xDC ∧ Recorded t 0 0xDC) ∧
      (die ≠ 8 → die ≠ 9 → ∃ t, exec (.dieLoss die) s = .next t ∧ die ∈ t.dev.links.diesLost ∧ Recorded t 0 0xC8 ∧ t.dev.stopped = none ∧
        (∀ c, c < 192 → dieOf c = die → (t.dev.cluster c).lost = true ∧ ∀ i, i < 8 → (t.dev.core (8 * c + i)).lost = true) ∧
        ∀ e ∈ s.dev.ctxs, e.2.st ∈ [1, 2, 3, 4, 5] → e.2.tdies.getLsbD die = true → s.dev.ctx e.1 = e.2 → (t.dev.ctx e.1).st = 6 ∧ (t.dev.ctx e.1).dieLost = true ∧
          Recorded t e.1 0xC8)) ∧
    (∀ m : MachineCheck, let c := m.cause.toNat
      (c ∉ machineChecks → exec (.machineCheck m) s = .next s) ∧
      (c ∈ machineChecks → c ≠ 0xC8 → ∃ t, exec (.machineCheck m) s = .next t ∧ Recorded t 0 c ∧ (c ∈ unitChecks → m.ctx ≠ 0 → Recorded t m.ctx c) ∧
        (c = 0x2D → m.tid % 64 ≠ 63 → (s.dev.thread m.tid).st = .ready → (s.dev.thread m.tid).toGang = 0 →
          (t.dev.thread m.tid).faultInfo = 0x2D ∧ ((t.dev.thread m.tid).st = .trapped ∨ (t.dev.thread m.tid).st = .halted true)) ∧
        (c ∈ coreChecks → (t.dev.core m.unit).lost = true) ∧ (c ∈ clusterChecks → (t.dev.cluster m.unit).lost = true) ∧
        (c ∈ packageChecks → t.dev.stopped = some c) ∧ (c = 0xEE → (s.dev.ctx m.ctx).lives = true → (t.dev.ctx m.ctx).st = 6) ∧
        (c = 0x56 → s.mem.wf = true → t.mem.isPoisoned (m.addr / 16) = true ∧ ∀ g, g ≠ m.addr / 16 → t.mem.isPoisoned g = s.mem.isPoisoned g) ∧
        (c = 0xD5 → t.dev.cmDown = true) ∧ (c = 0xF6 → tget t.dev.usage 0 (m.unit * 16 + m.addr % 16) = BitVec.allOnes 64))) ∧
    (∀ n r rest, let c := s.dev.collector n
      let slot := wbits c.base 62 0 + 64 * c.tail
      let v := r.image c.seq
      c.queue = r :: rest →
      (c.cfg.getLsbD 63 = false → ∃ t, exec (.faultRecordWrite n) s = .next t ∧ (t.dev.collector n).queue = rest ∧ (t.dev.collector n).drop = c.drop + 1 ∧ t.mem = s.mem) ∧
      (c.cfg.getLsbD 63 = true → c.drop = 0 → c.base.getLsbD 63 = true → s.dev.hostUp = true →
        (c.phase = 0 → s.dev.hostRead (slot + 63) 1 < 128 → ∃ t, exec (.faultRecordWrite n) s = .next t ∧ t.dev.collector n = { c with phase := 1 } ∧
          t.dev.host = s.dev.host) ∧
        (c.phase = 0 → 128 ≤ s.dev.hostRead (slot + 63) 1 → ∃ t, exec (.faultRecordWrite n) s = .next t ∧ (t.dev.collector n).queue = rest ∧
          (t.dev.collector n).drop = 1 ∧ t.dev.host = s.dev.host) ∧
        (c.phase = 1 → ∃ t, exec (.faultRecordWrite n) s = .next t ∧ t.dev.collector n = { c with phase := 2 } ∧
          t.dev.hostRead slot 48 = v % 2 ^ 384 ∧ t.dev.hostRead (slot + 48) 16 = s.dev.hostRead (slot + 48) 16) ∧
        (c.phase = 2 → ∃ t, exec (.faultRecordWrite n) s = .next t ∧ t.dev.hostRead (slot + 48) 16 = v / 2 ^ 384 ∧
          t.dev.hostRead slot 48 = s.dev.hostRead slot 48 ∧
          t.dev.collector n = { c with phase := 0, tail := (c.tail + 1) % 2 ^ wbits c.cfg 51 48, seq := c.seq + 1, queue := rest } ∧
          ((c.cfg.getLsbD 39 = true ∧ (s.dev.ctx n).poison = false) → t.dev.out = s.dev.out ++ [.irq (wbits c.cfg 47 40)])))) ∧
    (∃ t, exec .debugSessionOpen s = .next t ∧ t.dev.debugOpen = true ∧ Recorded t 0 0xFD ∧ ∀ e ∈ s.dev.ctxs, e.2.st ≠ 0 → Recorded t e.1 0xFD) ∧
    (∀ ctx pa cls, (cls = 1 → ∃ t, exec (.debugRead (.page ctx pa cls)) s = .next t ∧ t.dev.out = s.dev.out ++ [.debug true 0] ∧ Recorded t 0 0x65) ∧
      (cls ≠ 1 → (s.dev.ctx ctx).prot = false → ∃ t, exec (.debugRead (.page ctx pa cls)) s = .next t ∧
        t.dev.out = s.dev.out ++ [.debug false (BitVec.ofNat 512 (s.mem.read pa 64))] ∧ t.mem = s.mem)) ∧
    (∀ core n, (s.dev.bank core (n % 2)).sealed = true → ∃ t, exec (.debugRead (.bank core n)) s = .next t ∧ t.dev.out = s.dev.out ++ [.debug true 0] ∧
      Recorded t 0 0x65) ∧
    (∀ core n, (s.dev.slice core).tags.getLsbD (n % 4) = true → ∃ t, exec (.debugRead (.acc core n)) s = .next t ∧ t.dev.out = s.dev.out ++ [.debug true 0]) ∧
    (∀ session nonce, let answer := s.dev.out ++ [.spdm session nonce]
      exec (.spdmRequest session { kind := .measure, nonce }) s = .next { s with dev := { s.dev with out := answer } } ∧
      exec (.spdmRequest session { kind := .keyExchange, nonce }) s = .next { s with dev := { s.dev with out := answer, sessions := tput s.dev.sessions session false } } ∧
      (∀ kind ∈ [SpdmKind.other, .selectiveIde], exec (.spdmRequest session { kind, nonce }) s = .next { s with dev := { s.dev with out := s.dev.out ++ [.unsupported] } }) ∧
      ∃ t, exec (.spdmRequest session { kind := .attest, nonce }) s = .next t ∧ t.dev.out = answer ∧
        ((∃ e ∈ s.dev.sessions, e.1 = session) → Attested t) ∧ (¬(∃ e ∈ s.dev.sessions, e.1 = session) → t.dev.sessions = s.dev.sessions)) ∧
    (∀ u, ∃ t, exec (.serviceCoreWatchdog u) s = .next t ∧ Recorded t 0 0xFC ∧ t.dev.cmDown = false ∧ t.mem = s.mem) ∧
    (∃ t, exec .fabricReferenceLost s = .next t ∧ t.dev.stopped = some 0xD7 ∧ Recorded t 0 0xD7 ∧ t.mem = s.mem) ∧
    (∃ t, exec .thermalShutdown s = .next t ∧ t.dev.stopped = some 0xE5 ∧ Recorded t 0 0xE5 ∧ t.mem = s.mem)

namespace Sys2Proof.Say

open Sys2Proof.Machine

/-- The Attic domain of the issuing thread's context (R364). -/
abbrev domainOf (s : State) : Nat := (s.dev.ctx (s.dev.ctxOf s.dev.cur)).adom

/-- The name in a register pair (R362). -/
abbrev nameIn (s : State) (a : BitVec 7) : BitVec 128 := reg s (a + 1) ++ reg s a

/-- The issuing thread may ask the engine of a name now: it has a domain, no access of it is pending, and the relay service takes the
request (R364, R371). -/
abbrev CanName (s : State) (n : BitVec 128) : Prop :=
  domainOf s ≠ 0 ∧ s.dev.pendingAccess s.dev.cur = false ∧ CanSend s (engineDest (homeStack s.boot n)) none

/-- It has asked the engine of a name. -/
abbrev AsksEngine (s t : State) (x : Ext) (n : BitVec 128) (k : ReqKind) : Prop := Asks s t k (engineDest (homeStack s.boot n)) (words x)

/-- The words of a name have been written to a register pair, and nothing else (R362). -/
def PairIs (s t : State) (d : BitVec 7) (n : BitVec 128) : Prop :=
  ∀ i, t.dev.getG s.dev.cur i = if i = 0 then 0 else if i = d.toNat then n.setWidth 64 else if i = d.toNat + 1 then (n >>> 64).setWidth 64
    else s.dev.getG s.dev.cur i

/-- An entry of the name index at an engine (R364, R365). -/
abbrev HasEntry (s : State) (adom : Nat) (n : BitVec 128) (e : NameEntry) : Prop := s.live.entry? (homeStack s.boot n) adom n = some e

/-- An Attic engine has answered a request with two words. -/
def EngineSays (t : State) (n : Nat) (lo hi : Word) : Prop := ∃ q, HasReq t n q ∧ q.fail = none ∧ q.stage = .back ∧ q.out = lo ∧ q.out2 = hi

/-- It has answered with a cause and DETAIL. -/
def EngineFails (t : State) (n cause detail : Nat) : Prop := ∃ q, HasReq t n q ∧ q.fail = some (cause, detail, false) ∧ q.stage = .back

/-- The head of a core's mailbox (R385). -/
abbrev HasHead (s : State) (core : Nat) (m : Miss) : Prop := s.live.headMiss core = some m

end Sys2Proof.Say

/-- R362, R364, R371 to R377: each of NAME, NLD, NREF, NREL, NSTAT, NSWAP and NROOT answers a next state: it has asked the engine of its name and waits for
the answer, which Obligations.AtticEngineSteps brings to its registers; NREF and NREL of the null name are passed at once. NAME takes its block from memory or
from a tile row. NSWAP with a null new name and NROOT begin at their root slot: the two statements after this one. -/
def Sys2Proof.Say.AtticInstructionsComplete : Prop :=
  ∀ (s : State) (x : Ext),
    let n := nameIn s x.a
    (∀ (node : Bool) off dom, ReadyX s x [x.d, x.d + 1, x.a] [] → (reg s x.a).toNat = (if node then 2 ^ 63 else 0) + off → off < 2 ^ 22 → off % 128 = 0 →
      x.row0 = 0 →
      let at_ : Word := 0x2000000000000000 + BitVec.ofNat 64 off
      let block := BitVec.ofNat 1024 (s.mem.read (place s at_) 128)
      BlockAt s at_ 128 → tfind s.dev.domains (domainOf s) = some dom →
      let m := mkName (atticHash dom.dk node block) 0 false
      CanName s m → ∃ t, exec (.name x) s = .next t ∧ AsksEngine s t x m (.attic 0 0 block (if node then 1 else 0) 0 0 x.d.toNat)) ∧
    (∀ (node : Bool) tr q dom, ReadyX s x [x.d, x.d + 1, x.a] [] → Calm s →
      (reg s x.a).toNat = (if node then 2 ^ 63 else 0) + 2 ^ 62 + tr * 2 ^ 28 + q * 2 ^ 26 → tr < 16 → q < 4 → tr < (thr s).tsize →
      let r : BitVec 7 := BitVec.ofNat 7 tr
      let block := BitVec.ofNat 1024 (rowOf s r x.row0.toNat / 2 ^ (1024 * q))
      descOk (descOf s r) = true → x.row0.toNat < dRows (descOf s r) → tfind s.dev.domains (domainOf s) = some dom →
      let m := mkName (atticHash dom.dk node block) 0 false
      CanName s m → ∃ t, exec (.name x) s = .next t ∧ AsksEngine s t x m (.attic 0 0 block (if node then 1 else 0) 0 0 x.d.toNat)) ∧
    (ReadyX s x [x.d, x.a, x.a + 1] [] → CanName s n → ∃ t, exec (.nld x) s = .next t ∧
      AsksEngine s t x n (.attic 1 n 0 (BitVec.ofNat 128 (match x.lit with
        | some v => v
        | none => x.imm.setWidth 64).toNat) 0 0 x.d.toNat)) ∧
    (ReadyX s x [x.d, x.a, x.a + 1] [] → CanName s n → ∃ t, exec (.nstat x) s = .next t ∧ AsksEngine s t x n (.attic 4 n 0 0 0 0 x.d.toNat)) ∧
    (ReadyX s x [x.a, x.a + 1] [] → n ≠ 0 → CanName s n → ∃ t, exec (.nref x) s = .next t ∧ AsksEngine s t x n (.attic 2 n 0 0 0 0 0)) ∧
    (ReadyX s x [x.a, x.a + 1] [] → n ≠ 0 → CanName s n → ∃ t, exec (.nrel x) s = .next t ∧ AsksEngine s t x n (.attic 3 n 0 0 0 0 0)) ∧
    (ReadyX s x [x.a, x.a + 1] [] → n = 0 → domainOf s ≠ 0 → s.dev.pendingAccess s.dev.cur = false →
      exec (.nref x) s = .next (passed (words x) s) ∧ exec (.nrel x) s = .next (passed (words x) s)) ∧
    (ReadyX s x [x.d, x.d + 1, x.a, x.b, x.b + 1, x.c, x.c + 1] [] → Own s (reg s x.a) 16 → domainOf s ≠ 0 → x.d.toNat % 2 = 0 → nameIn s x.c ≠ 0 →
      CanName s (nameIn s x.c) → ∃ t, exec (.nswap x) s = .next t ∧
        AsksEngine s t x (nameIn s x.c) (.attic 5 (nameIn s x.c) (BitVec.ofNat 1024 (place s (reg s x.a))) (nameIn s x.b) 0 0 x.d.toNat))

/-- R375, R376: NROOT reads a root slot in the own cluster at once: the null name is its answer, for any other it asks that name's engine for a reference. -/
def Sys2Proof.Say.NrootReadsItsSlot : Prop :=
  ∀ (s : State) (x : Ext), ReadyX s x [x.d, x.d + 1, x.a] [] →
    let a := reg s x.a
    let old : BitVec 128 := BitVec.ofNat 128 (s.mem.read (place s a) 16)
    Own s a 16 → domainOf s ≠ 0 → x.d.toNat % 2 = 0 →
    (old = 0 → ∃ t, exec (.nroot x) s = .next t ∧ PairIs s t x.d 0 ∧ (thr t).pc = (thr s).pc + BitVec.ofNat 64 (4 * words x) ∧ t.mem = s.mem) ∧
    (old ≠ 0 → ∃ t r, exec (.nroot x) s = .next t ∧ r ∈ t.dev.reqs ∧ r.kind = .attic 6 old (BitVec.ofNat 1024 (place s a)) 0 0 1 x.d.toNat ∧
      r.dest = engineDest (homeStack s.boot old) ∧ r.stage = .going ∧ r.src = s.dev.cur / 512 ∧ t.mem = s.mem ∧
      (thr t).flight = .request r.id ((thr s).pc + BitVec.ofNat 64 (4 * words x)) ∧ t.dev.regs = s.dev.regs)

/-- R375: NSWAP with a null new name on a root slot in the own cluster: where the slot holds the expected name it is cleared, and the old name, unless null, is to be
released; where it holds another, that is the answer. -/
def Sys2Proof.Say.NswapClearsItsSlot : Prop :=
  ∀ (s : State) (x : Ext), ReadyX s x [x.d, x.d + 1, x.a, x.b, x.b + 1, x.c, x.c + 1] [] →
    let a := reg s x.a
    let old : BitVec 128 := BitVec.ofNat 128 (s.mem.read (place s a) 16)
    nameIn s x.c = 0 → Own s a 16 → domainOf s ≠ 0 → x.d.toNat % 2 = 0 →
    (old = nameIn s x.b → old = 0 → ∃ t, exec (.nswap x) s = .next t ∧ PairIs s t x.d 0 ∧
      (thr t).pc = (thr s).pc + BitVec.ofNat 64 (4 * words x) ∧ t.mem.read (place s a) 16 = 0) ∧
    (old = nameIn s x.b → ∃ t, exec (.nswap x) s = .next t ∧ t.mem.read (place s a) 16 = 0 ∧ SameOutside s.mem t.mem (place s a) 16 ∧
      SameGranules s.mem t.mem ∧ (old ≠ 0 → ∃ r, r ∈ t.dev.reqs ∧ r.dest = engineDest (homeStack s.boot old) ∧ r.stage = .going ∧
        r.kind = .attic 5 0 (BitVec.ofNat 1024 (place s a)) old old 2 x.d.toNat)) ∧
    (old ≠ nameIn s x.b → ∃ t, exec (.nswap x) s = .next t ∧ PairIs s t x.d old ∧
      (thr t).pc = (thr s).pc + BitVec.ofNat 64 (4 * words x) ∧ t.mem = s.mem)

/-- R362, R364, R371 to R377: the Attic instructions complete: they ask the engine of their name and wait; NREF and NREL of the null name pass; NROOT and NSWAP
act on a root slot in the own cluster at once; without a domain each traps with cause 0x6C. -/
def Obligations.AtticInstructionResults : Prop :=
  AtticInstructionsComplete ∧ NrootReadsItsSlot ∧ NswapClearsItsSlot ∧
  ∀ (s : State) (x : Ext), ReadyX s x [x.d, x.d + 1, x.a, x.a + 1, x.b, x.b + 1, x.c, x.c + 1] [] → domainOf s = 0 → Alone s →
    ∀ i ∈ [Instr.name x, .nld x, .nref x, .nrel x, .nswap x, .nroot x, .nstat x], ∃ t, exec i s = .next t ∧ Trapped s t 0x6C 0

/-- R301, R363, R366 to R369, R373 to R377: what an Attic engine does with a request whose turn has come there, and what its answer does in the
thread that waits. -/
def Obligations.AtticEngineSteps : Prop :=
  (∀ (s : State) (n : Nat) (r : Req) (op : Nat) (m : BitVec 128) (block : BitVec 1024) (x y : BitVec 128) (step dst : Nat), s.dev.stopped = none →
    HasReq s n r → r.kind = .attic op m block x y step dst →
    let adom := (s.dev.ctx r.ctx).adom
    let after := fun (t : State) (f : NameEntry → NameEntry) => t.dev.names = s.dev.names.map fun e =>
      if e.1 = homeStack s.boot m ∧ e.2.name = m ∧ e.2.adom = adom then (e.1, f e.2) else e
    let refs := op = 2 ∨ (op = 5 ∧ step = 0)
    (r.src < 192 → (∃ k, r.dest = .gateway k 37) → Came s r false → s.live.engineBehind r = false → r.fail = none →
      (op = 0 → step = 0 → ∀ dom, tfind s.dev.domains adom = some dom →
        let node := decide (x = 1)
        let hash := atticHash dom.dk node block
        let stack := hashStack s.boot hash
        (∀ e, atticLookup s.live stack adom hash node block = .hit e → ∃ t, exec (.atticNameRequest n) s = .next t ∧
          EngineSays t n (e.name.setWidth 64) ((e.name >>> 64).setWidth 64) ∧ t.mem = s.mem ∧
          t.dev.names = s.dev.names.map fun z => if z.1 = stack ∧ z.2.name = e.name ∧ z.2.adom = adom then (z.1, z.2.addRef) else z) ∧
        (∀ o, atticLookup s.live stack adom hash node block = .free o → node = false →
          ((s.dev.names.filter fun z => z.1 == stack && bucketOf s.boot z.2.name == bucketOf s.boot (mkName hash o node)).length < 8) →
          s.live.freeLines adom stack ≠ [] → ∃ t pa, exec (.atticNameRequest n) s = .next t ∧ pa ∈ s.live.freeLines adom stack ∧
            EngineSays t n ((mkName hash o node).setWidth 64) ((mkName hash o node >>> 64).setWidth 64) ∧
            t.dev.names = s.dev.names ++ [(stack, { name := mkName hash o node, pa, adom, sat := false, dorm := false, height := 0, count := 1, nleaf := 1 })] ∧
            (t.mem.read pa 128 = block.toNat) ∧ SameOutside s.mem t.mem pa 128) ∧
        (atticLookup s.live stack adom hash node block = .exhausted → ∃ t, exec (.atticNameRequest n) s = .next t ∧ EngineFails t n 0x6F 0 ∧
          t.mem = s.mem ∧ t.dev.names = s.dev.names)) ∧
      (refs → (s.live.entry? (homeStack s.boot m) adom m = none → ∃ t, exec (.atticRefRequest n) s = .next t ∧ EngineFails t n 0x6E 1 ∧
          t.dev.names = s.dev.names) ∧
        ∀ e, HasEntry s adom m e → ∃ t, exec (.atticRefRequest n) s = .next t ∧ after t NameEntry.addRef ∧ t.mem = s.mem ∧
          EngineSays t n (BitVec.ofNat 64 (e.height * 2 ^ 26 + e.nleaf)) 0) ∧
      (op = 3 → r.tid ≠ noThread → (s.live.entry? (homeStack s.boot m) adom m = none → ∃ t, exec (.atticRelRequest n) s = .next t ∧ EngineFails t n 0x6E 1 ∧
          t.dev.names = s.dev.names) ∧
        ∀ e, HasEntry s adom m e → (e.dorm = true → ∃ t, exec (.atticRelRequest n) s = .next t ∧ EngineFails t n 0x72 0 ∧ t.dev.names = s.dev.names) ∧
          (e.dorm = false → ∃ t, exec (.atticRelRequest n) s = .next t ∧ EngineSays t n 0 0 ∧ t.mem = s.mem ∧ after t fun z =>
            if z.sat || z.dorm then z else if z.count = 1 then { z with count := 0, dorm := true, age := s.dev.fresh } else { z with count := z.count - 1 })) ∧
      (op = 1 → ∀ e, HasEntry s adom m e →
        (e.dorm = true → ∃ t, exec (.atticNldRequest n) s = .next t ∧ EngineFails t n 0x6E 1) ∧
        (e.dorm = false → s.mem.anyPoison (e.pa + x.toNat) 8 = true → ∃ t, exec (.atticNldRequest n) s = .next t ∧ EngineFails t n 0x45 0) ∧
        (e.dorm = false → s.mem.anyPoison (e.pa + x.toNat) 8 = false → ∃ t, exec (.atticNldRequest n) s = .next t ∧ t.mem = s.mem ∧
          EngineSays t n (BitVec.ofNat 64 (s.mem.read (e.pa + x.toNat) 8)) 0)) ∧
      (op = 4 → (s.live.entry? (homeStack s.boot m) adom m = none → ∃ t, exec (.atticStatRequest n) s = .next t ∧ EngineSays t n 0 0) ∧
        ∀ e, HasEntry s adom m e → ∃ t, exec (.atticStatRequest n) s = .next t ∧ t.mem = s.mem ∧ t.dev.names = s.dev.names ∧
          EngineSays t n (BitVec.ofNat 64 (e.count * 2 ^ 32 + 2 ^ 31 + (if e.dorm then 2 ^ 30 else 0) + (if e.sat then 2 ^ 29 else 0) + e.height * 2 ^ 26 +
            e.nleaf % 2 ^ 22)) 0)) ∧
    (op = 7 → (∃ k, r.dest = .gateway k 37) → r.src < 192 → Came s r false → s.live.engineBehind r = false → r.fail = none → ∀ e, HasEntry s adom m e → nameKind m = false → s.mem.anyPoison e.pa 128 = false →
      (y = 0 → ∃ t q, exec (.atticLeafRead n) s = .next t ∧ HasReq t n q ∧ q.stage = .back ∧ q.fail = none ∧
        q.kind = .attic 7 m (BitVec.ofNat 1024 (s.mem.read e.pa 128)) x y step dst ∧ t.mem = s.mem) ∧
      (y ≠ 0 → ∃ t, exec (.atticLeafRead n) s = .next t ∧ EngineFails t n 0x74 0)) ∧
    (op = 0 → step = 1 → (∃ k, r.dest = .gateway k 37) → r.src < 192 → r.fail = none → ∀ dom c, tfind s.dev.domains adom = some dom →
      childReqs s.live n = [c] → c.stage = .replied → HasReq s c.id c → c.id ≠ n →
      (∀ f, c.fail = some (f, 0, false) → f ≠ 0x6E → ∃ t, exec (.atticChildReply n) s = .next t ∧ EngineFails t n f 0 ∧ t.mem = s.mem ∧ Gone t c.id) ∧
      (∀ d, c.fail = some (0x6E, d, false) → ∃ t, exec (.atticChildReply n) s = .next t ∧ EngineFails t n 0x71 1 ∧ t.mem = s.mem ∧ Gone t c.id)) ∧
    (Came s r true → r.fail = none → r.reported = false → ∀ next, Awaited s r next → (s.dev.thread r.tid).live = true → s.dev.ctxOf r.tid = r.ctx →
      1 ≤ dst → (op = 0 → ∃ t, exec (.atticReply n) s = .next t ∧ t.dev.getG r.tid dst = r.out ∧ t.dev.getG r.tid (dst + 1) = r.out2 ∧
        Completed t r.tid next ∧ Gone t n ∧ t.mem = s.mem) ∧
      (op = 1 ∨ op = 4 → ∃ t, exec (.atticReply n) s = .next t ∧ t.dev.getG r.tid dst = r.out ∧ Completed t r.tid next ∧ Gone t n ∧ t.mem = s.mem) ∧
      (op = 2 ∨ op = 3 → ∃ t, exec (.atticReply n) s = .next t ∧ t.dev.regs = s.dev.regs ∧ Completed t r.tid next ∧ Gone t n ∧ t.mem = s.mem)) ∧
    (Came s r true → r.reported = false → op ≤ 4 → ∀ next c d, r.fail = some (c, d, false) → Awaited s r next → (s.dev.thread r.tid).st = .ready → d < 65536 → c < 256 →
      (s.dev.thread r.tid).toGang = 0 → r.tid % 64 ≠ 63 → ∃ t, exec (.atticReply n) s = .next t ∧ Gone t n ∧
        (t.dev.thread r.tid).faultInfo = BitVec.ofNat 64 (d * 65536 + c) ∧ (t.dev.thread r.tid).pc = (s.dev.thread r.tid).pc)) ∧
  (∀ (s : State) (stack i : Nat) (e : NameEntry), s.dev.stopped = none → s.dev.names[i]? = some (stack, e) → e.dorm = true → nameKind e.name = false →
    ∃ t, exec (.atticReclaim stack i) s = .next t ∧ t.mem = s.mem ∧
      t.dev.names = s.dev.names.filter fun z => !(z.1 == stack && z.2.name == e.name && z.2.adom == e.adom))

/-- The walker waits for a TLBI that other clusters take part in: its request is under way, and nothing of its registers or memory has changed (R389). -/
def Sys2Proof.Say.TlbiWaits (s t : State) (kind : ReqKind) (len : Nat) : Prop :=
  ∃ r ∈ t.dev.reqs, r.kind = kind ∧ r.tid = s.dev.cur ∧ r.stage = .home ∧ t.mem = s.mem ∧ t.dev.regs = s.dev.regs ∧
    thr t = { thr s with flight := .request r.id ((thr s).pc + BitVec.ofNat 64 (4 * len)) }

/-- R78, R379 to R383, R387 to R391: the walker's instructions: the page table's leaf goes into the TLBs, entries go out of them, a probe
gives an entry's image, and WALKRET answers the head miss. In any other thread each of them traps with the privilege cause, 0x02. -/
def Obligations.TranslationInstructionResults : Prop :=
  ∀ (s : State) (x : Ext),
    let core := s.dev.cur / 64
    let ctx := (s.dev.core core).ctxnum.toNat % 2 ^ 16
    let a := reg s x.a
    let rec0 := fun (s : State) => s.dev.core core
    let walks := fun (t : State) => (thr t).flight = .walk ((thr s).pc + BitVec.ofNat 64 (4 * words x)) ∧ t.mem = s.mem ∧ t.dev.cur = s.dev.cur
    (s.dev.stopped = none → Alone s → ∀ i ∈ [Instr.tlbw x, .tlbi x, .tlbp x, .walkret x], ∃ t, exec i s = .next t ∧ Trapped s t 0x02 0) ∧
    (s.dev.cur % 64 = 63 →
      (ReadyX s x [x.a, x.b] [] → ∀ (page : Nat) (big both : Bool),
        a.toNat = page * 65536 + (if both then 2 else 0) + (if big then 1 else 0) → page < 2 ^ 32 →
        let pte := reg s x.b
        let e : TlbEntry := { ctx, page, big, pte }
        let apart := fun (y : TlbEntry) => !(y.covers ctx (page * 65536)) && !(e.covers y.ctx (y.page * 65536))
        ((big = true → page % 32 = 0) → leafOk s.boot (s.dev.ctx ctx).prot big pte = true → pteTier pte ≠ 0 → (big = true → pteAddr pte % 2097152 = 0) →
          ∃ t, exec (.tlbw x) s = .next t ∧ (rec0 t).tlb = (e :: (rec0 s).tlb.filter apart).take 64 ∧
            (t.dev.cluster (core / 8)).tlb2 = (if both then (e :: (s.dev.cluster (core / 8)).tlb2.filter apart).take 2048 else (s.dev.cluster (core / 8)).tlb2) ∧
            thr t = thr (passed (words x) s) ∧ t.mem = s.mem ∧ t.dev.regs = s.dev.regs) ∧
        (leafOk s.boot (s.dev.ctx ctx).prot big pte = false ∨ pteTier pte = 0 → (rec0 s).misses = [] → (thr s).toGang = 0 → ∃ t, exec (.tlbw x) s = .next t ∧
          (thr t).pc = Config.walkerEntry ∧ (thr t).st = .ready ∧ (thr t).faultInfo = 0x49 ∧ (rec0 t).tlb = (rec0 s).tlb)) ∧
      (ReadyX s x [x.a] [] → ∀ (page : Nat) (all : Bool), a.toNat = (if all then 2 ^ 63 else 0) + page * 65536 → page < 2 ^ 32 →
        s.dev.pendingAccess s.dev.cur = false → translatedPending s.live ctx page all (· == core / 8) = false →
        let scope := (match x.lit with
          | some v => v
          | none => x.imm.setWidth 64).toNat
        let stays := fun (e : TlbEntry) => !(if all then e.ctx == ctx else e.covers ctx (page * 65536))
        let others := (s.live.ctxClusters ctx).filter (· != core / 8)
        (scope = 0 → ∃ t, exec (.tlbi x) s = .next t ∧ (rec0 t).tlb = (rec0 s).tlb.filter stays ∧ t.dev.clusters = s.dev.clusters ∧
          thr t = thr (passed (words x) s) ∧ t.mem = s.mem) ∧
        ((scope = 1 ∨ (scope = 2 ∧ others = [])) → ∃ t, exec (.tlbi x) s = .next t ∧ (∀ c, (t.dev.core c).tlb = if c / 8 = core / 8 then (s.dev.core c).tlb.filter stays else (s.dev.core c).tlb) ∧
          (t.dev.cluster (core / 8)).tlb2 = (s.dev.cluster (core / 8)).tlb2.filter stays ∧ thr t = thr (passed (words x) s) ∧ t.mem = s.mem) ∧
        (scope = 2 → others ≠ [] → ∃ t ws, exec (.tlbi x) s = .next t ∧ TlbiWaits s t (.tlbi all page ws) (words x) ∧ ws.map Prod.fst = others ∧
          (t.dev.cluster (core / 8)).tlb2 = (s.dev.cluster (core / 8)).tlb2.filter stays)) ∧
      (ReadyX s x [x.a] [] → ∀ (page : Nat) (all : Bool), a.toNat = (if all then 2 ^ 63 else 0) + page * 65536 → page < 2 ^ 32 →
        s.dev.pendingAccess s.dev.cur = false → translatedPending s.live ctx page all (· == core / 8) = true → x.lit = none → x.imm.toNat < 2 →
        ∃ t, exec (.tlbi x) s = .next t ∧ Waits s t (.tlbi all page [(core / 8, 1)]) (words x)) ∧
      (ReadyX s x [x.d, x.a] [] → ∀ page, a.toNat = page * 65536 → page < 2 ^ 32 →
        let first := (rec0 s).tlb.find? fun e => e.covers ctx (page * 65536)
        let second := (s.dev.cluster (core / 8)).tlb2.find? fun e => e.covers ctx (page * 65536)
        let image := fun (e : TlbEntry) => BitVec.ofNat 64 (e.pte.toNat / 256 * 256 + (if e.big then 4 else 0) + (if second.isSome then 2 else 0) + (if first.isSome then 1 else 0))
        (∀ e, first = some e → exec (.tlbp x) s = .next (wrote s (words x) x.d (image e))) ∧
        (∀ e, first = none → second = some e → exec (.tlbp x) s = .next (wrote s (words x) x.d (image e))) ∧
        (first = none → second = none → exec (.tlbp x) s = .next (wrote s (words x) x.d 0))) ∧
      (ReadyX s x [x.a] [] → ∀ m, HasHead s core m → m.arrived = true →
        let rest := (rec0 s).misses.filter fun y => !(y.slot == m.slot && y.job == m.job)
        let w := core * 64 + m.slot
        let parked := m.job = 0 ∧ m.slot < 63 ∧ (s.dev.thread w).st = .parked .tlb
        (∀ delay, a.toNat = delay * 65536 + 2 → delay < 2 ^ 32 → m.job = 0 → ∃ t, exec (.walkret x) s = .next t ∧ walks t ∧
          (rec0 t).misses = rest ++ [{ m with arrived := false, defers := m.defers + 1, due := some (s.live.turn s.boot + delay) }]) ∧
        (∀ cause ∈ [0x48, 0x49, 0x4A, 0x4C], a.toNat = cause * 256 + 1 → parked → (s.dev.thread w).toGang = 0 → ∃ t, exec (.walkret x) s = .next t ∧
          walks t ∧ (∀ y ∈ (rec0 t).misses, y ∈ rest) ∧ (t.dev.thread w).faultInfo = BitVec.ofNat 64 cause ∧ (t.dev.thread w).pc = (s.dev.thread w).pc) ∧
        (a = 0 → (rec0 s).misses = [m] → m.job = 0 → (s.live.covered core m.va = true → parked → ∃ t, exec (.walkret x) s = .next t ∧ walks t ∧
            (rec0 t).misses = [] ∧ t.dev.thread w = { s.dev.thread w with st := .ready }) ∧
          (s.live.covered core m.va = false → ∃ t, exec (.walkret x) s = .next t ∧ walks t ∧ (rec0 t).misses = [{ m with arrived := false }]))))

/-- R385, R387, R389, R391 to R395, R424: misses on their way to the walker and past it, a TLBI's other clusters, pages that firmware has filled or
moved, and a fenced pseudo-channel. -/
def Obligations.TranslationSteps : Prop :=
  ∀ (s : State), s.dev.stopped = none →
    (∀ core m next, let tid := core * 64 + 63
      (s.dev.thread tid).flight = .walk next → s.live.headMiss core = none → (s.dev.core core).misses.find? (fun m => m.due.isNone) = some m →
      ∃ t, exec (.walkerMissArrive core) s = .next t ∧ HasHead t core { m with arrived := true } ∧ Completed t tid next ∧ t.mem = s.mem) ∧
    (∀ core i m, (s.dev.core core).misses[i]? = some m →
      let rest := (s.dev.core core).misses.filter fun y => !(y.slot == m.slot && y.job == m.job)
      let w := core * 64 + m.slot
      (∀ due, m.due = some due → (due ≤ s.live.turn s.boot → (∀ y ∈ (s.dev.core core).misses, ∀ k, y.due = some k → due ≤ k) →
          ∃ t, exec (.missDeferExpire core i) s = .next t ∧
          (t.dev.core core).misses = rest ++ [{ m with due := none }] ∧ t.dev.threads = s.dev.threads) ∧
        (s.live.turn s.boot < due → exec (.missDeferExpire core i) s = .next s)) ∧
      (m.due.isSome → exec (.walkerOverdue core i) s = .next s) ∧
      (m.due = none → m.job = 0 → m.slot < 63 → (s.dev.thread w).st = .parked .tlb → (s.dev.thread w).toGang = 0 → ∃ t, exec (.walkerOverdue core i) s = .next t ∧
        (∀ y ∈ (t.dev.core core).misses, y ∈ rest) ∧ (t.dev.thread w).faultInfo = 0x5C ∧ (t.dev.thread w).pc = (s.dev.thread w).pc ∧ t.mem = s.mem)) ∧
    (∀ n r all page waiting c, HasReq s n r → r.kind = .tlbi all page waiting →
      let stays := fun (e : TlbEntry) => !(if all then e.ctx == r.ctx else e.covers r.ctx (page * 65536))
      let now := fun (step : Nat) => waiting.find? (fun w => w.1 == c) = some (c, step)
      let pending := translatedPending s.live r.ctx page all (· == c)
      let becomes := fun (t : State) (step : Nat) => ∃ q, HasReq t n q ∧ q.kind = .tlbi all page (waiting.map fun w => if w.1 = c then (c, step) else w)
      let ended := fun (i : Instr) => ∃ t, exec i s = .next t ∧ t.mem = s.mem ∧
        (∀ next, Awaited s r next → (∀ y ∈ waiting, y.1 = c) → Completed t r.tid next ∧ Gone t n) ∧
        ((∃ y ∈ waiting, y.1 ≠ c) → t.dev.threads = s.dev.threads ∧ ∃ q, HasReq t n q ∧ q.kind = .tlbi all page (waiting.filter (·.1 != c)))
      (∀ m, now 0 → c ≠ r.src → s.live.atEndOf n (c + 1) false false = some m → ∃ t, exec (.tlbiRemote n c) s = .next t ∧ t.mem = s.mem ∧
        becomes t (if pending then 1 else 2) ∧ (t.dev.cluster c).tlb2 = (s.dev.cluster c).tlb2.filter stays ∧
        ∀ k, k / 8 = c → (t.dev.core k).tlb = (s.dev.core k).tlb.filter stays) ∧
      (now 0 → s.live.atEndOf n (c + 1) false false = none → exec (.tlbiRemote n c) s = .next s) ∧
      (now 1 → pending = true → exec (.tlbiRemote n c) s = .next s) ∧
      (now 1 → pending = false → c ≠ r.src → ∃ t, exec (.tlbiRemote n c) s = .next t ∧ t.mem = s.mem ∧ becomes t 2 ∧
        ∃ m ∈ t.dev.msgs, m.req = n ∧ m.back = true ∧ m.grp = c + 1) ∧
      (now 1 → pending = false → c = r.src → ended (.tlbiRemote n c)) ∧
      (∀ m step, waiting = [(c, step)] → s.live.atEndOf n (c + 1) true false = some m → ended (.remoteReplyArrive n))) ∧
    (∀ ctx (va pte old : Word) big a lf, let v := va.toNat % 2 ^ 48
      let answered := fun (t : State) (bytes : Nat) => ∀ k, (s.dev.core k).ctxnum.toNat % 2 ^ 16 = ctx → ∀ m ∈ (t.dev.core k).misses,
        ¬(m.job ≠ 0 ∧ m.due.isSome = true ∧ m.va / bytes = v / bytes)
      (s.boot.fillLimit = true → s.live.walk s.boot ctx v = .leaf old big → pteTier old = 0 → ∃ t, exec (.pageFillTimeout ctx va) s = .next t ∧
        answered t (pageBytes big) ∧ t.mem = s.mem) ∧
      (s.boot.fillLimit = false → exec (.pageFillTimeout ctx va) s = .next s) ∧
      (s.live.walk s.boot ctx v = .leaf old big → leafAt s.boot s.live ctx v = some (a, lf) → pteTier pte ≠ 0 → leafOk s.boot (s.dev.ctx ctx).prot big pte = true →
        pteTier pte ≠ 3 → pteClass pte = 0 → s.live.holdsPage ctx (pteAddr pte) (pageBytes big) = true →
        (pteTier old = 0 → ∃ t, exec (.pageFillDone ctx va pte) s = .next t ∧ t.mem.read a 8 = pte.toNat ∧ SameOutside s.mem t.mem a 8 ∧
          answered t (pageBytes big)) ∧
        (pteM old = true → pteM pte = false → pteClass old = 0 → pteW old = pteW pte → (∀ e ∈ s.dev.jobs, e.2.owed = false) → pteAddr old % pageBytes big = 0 → pteAddr old ≠ pteAddr pte →
          (translatedPending s.live ctx (v / 65536) false (fun _ => true) = true → exec (.pageMigrationDone ctx va pte) s = .next s) ∧
          (translatedPending s.live ctx (v / 65536) false (fun _ => true) = false → ∃ t, exec (.pageMigrationDone ctx va pte) s = .next t ∧
            t.mem.read a 8 = pte.toNat ∧ (∀ i, i < pageBytes big → pteAddr pte + i < a ∨ a + 8 ≤ pteAddr pte + i →
              t.mem.byteAt (pteAddr pte + i) = s.mem.byteAt (pteAddr old + i)) ∧
            (∀ i, i < pageBytes big / 16 → t.mem.isFull (pteAddr pte / 16 + i) = s.mem.isFull (pteAddr old / 16 + i) ∧
              t.mem.isPoisoned (pteAddr pte / 16 + i) = s.mem.isPoisoned (pteAddr old / 16 + i)) ∧
            (∀ g tid, (g, tid) ∈ s.dev.grWaits → pteAddr old ≤ g * 16 → g * 16 < pteAddr old + pageBytes big →
              (g, tid) ∉ t.dev.grWaits ∧ (tid ∈ t.dev.wakes ∨ ∃ q ∈ t.dev.reqs, q.kind = .wake tid)))))) ∧
    (∀ pc, shas s.dev.links.fenced pc = false → s.boot.hasStack (pc / 64) = true → ∃ t, exec (.remapTableError pc) s = .next t ∧
      shas t.dev.links.fenced pc = true ∧ Recorded t 0 0x53 ∧ (∀ g, chanOf g = pc → t.mem.isPoisoned g = true) ∧ ∀ x, t.mem.byteAt x = s.mem.byteAt x) ∧
    (∀ pc, ∃ t, exec (.pseudoChannelUnfence pc) s = .next t ∧ shas t.dev.links.fenced pc = false ∧
      (∀ k, k ≠ pc → shas t.dev.links.fenced k = shas s.dev.links.fenced k) ∧ t.mem = s.mem)

namespace Sys2Proof.Say

open Sys2Proof.Machine

/-- What no scalar or vector instruction changes, whatever becomes of it: memory, the boot record, and the units outside the thread. -/
def KeepsUnits (s t : State) : Prop :=
  t.mem = s.mem ∧ t.boot = s.boot ∧ t.dev.cregs = s.dev.cregs ∧ t.dev.accs = s.dev.accs ∧ t.dev.phasers = s.dev.phasers ∧ t.dev.work = s.dev.work ∧
    t.dev.ctxs = s.dev.ctxs ∧ t.dev.circuits = s.dev.circuits ∧ t.dev.names = s.dev.names ∧ t.dev.msgs = s.dev.msgs ∧ t.dev.links = s.dev.links ∧
    t.dev.slots = s.dev.slots ∧ t.dev.cur = s.dev.cur

/-- What it leaves of the general registers but one, of the tiles, and, unless it traps, of other threads. -/
def KeepsBut (s t : State) (d : Option Nat) : Prop :=
  KeepsUnits s t ∧ t.dev.tiles = s.dev.tiles ∧ t.dev.scales = s.dev.scales ∧ t.dev.books = s.dev.books ∧ t.dev.descs = s.dev.descs ∧
    (∀ k, d ≠ some k → tget t.dev.regs 0 (s.dev.cur / 64 * 2048 + (thr s).wbase + k) = tget s.dev.regs 0 (s.dev.cur / 64 * 2048 + (thr s).wbase + k)) ∧
    (∀ e, e < s.dev.cur / 64 * 2048 + (thr s).wbase → tget t.dev.regs 0 e = tget s.dev.regs 0 e) ∧
    (s.dev.cur % 64 ≠ 63 → (thr t).st = .ready → ∀ x, x ≠ s.dev.cur → t.dev.thread x = s.dev.thread x)

/-- The thread that a core's rotation picks fetches these words: its page's entry stands first in the core's TLB and may be executed, and
the block is in the instruction cache, or free of poison in memory, with no link failed; its bytes are those of the core's code, which a store has not
changed since the launch (R61, R62, R112, R244). -/
def Fetches (s : State) (slot : Nat) (ws : List Code) : Prop :=
  let tid := s.core * 64 + slot
  let pc := (s.dev.thread tid).pc
  let r := s.dev.core s.core
  ∃ e pa, s.live.nextSlot s.boot s.core = some slot ∧ pc.toNat < 2 ^ 48 ∧
    r.tlb.find? (fun e => e.covers (r.ctxnum.toNat % 2 ^ 16) pc.toNat) = some e ∧ pteVerdict e.pte 2 0x60 = .ok ∧
    leafPa e.pte e.big pc.toNat = pa ∧ (paHome s.boot pa).isSome = true ∧ s.dev.links.failed = [] ∧
    (pa / 64 ∈ r.icache ∨ s.mem.anyPoison (pa / 64 * 64) 64 = false) ∧
    blockWords (BitVec.ofNat 512 (Mem.read { cells := r.code } (pa / 64 * 64) 64)) (pc.toNat / 4 % 16) = ws

/-- Time has passed since an instruction completed: tile writes that were due have landed, and holds of YIELD have begun; but for that nothing of the part's state
that an instruction works on has changed. -/
def OnlyTimePasses (t c : State) (tid : Nat) : Prop :=
  c.mem = t.mem ∧ c.boot = t.boot ∧ c.agenda = t.agenda ∧ c.core = t.core ∧ c.dev.regs = t.dev.regs ∧ c.dev.cregs = t.dev.cregs ∧ c.dev.reqs = t.dev.reqs ∧
    c.dev.accs = t.dev.accs ∧ c.dev.msgs = t.dev.msgs ∧ c.dev.jobs = t.dev.jobs ∧ t.dev.slots ≤ c.dev.slots ∧
    ∀ x, ∃ n y h, c.dev.thread x = { t.dev.thread x with busy := n, yieldAt := y, hold := h } ∧ (x ≠ tid → n = (t.dev.thread x).busy) ∧
      ((t.dev.thread x).yieldAt = none → y = none ∧ h = (t.dev.thread x).hold)

end Sys2Proof.Say

/-- R61, R70, R112: with nothing else due, a step of a running package runs the instruction that the words at the chosen thread's PC decode to,
in a state with the same memory, registers and PC; after it only time, the thread's next issue cycle and usage move on. A word that does
not decode takes the illegal-instruction trap; an item of the model's schedule (assumption 2) is taken before any issue. -/
def Obligations.AStepRunsTheDecodedInstruction : Prop :=
  (∀ (s : State) (slot : Nat) (ws : List Code), s.agenda = [] → s.dev.stopped = none → (s.dev.cluster (s.core / 8)).busy = false →
    (s.dev.core s.core).lost = false → (s.dev.core s.core).held = [] → Fetches s slot ws →
    let tid := s.core * 64 + slot
    let t0 := s.dev.thread tid
    t0.st = .ready → t0.deferred = none → (slot = 63 → t0.pc ≠ Config.walkerEntry) →
    (∀ i, decode (t0.pc.toNat / 4 % 16) ws = .ok i → ∃ u, u.mem = s.mem ∧ u.boot = s.boot ∧ u.agenda = [] ∧ u.core = s.core ∧ u.dev.cur = tid ∧
      u.dev.regs = s.dev.regs ∧ (∃ h, thr u = { t0 with hold := h }) ∧ u.dev.reqs = s.dev.reqs ∧ u.dev.cregs = s.dev.cregs ∧ u.dev.tiles = s.dev.tiles ∧
      (step s = match exec i u with
        | .next t => .next (t.completed tid i (latencyAt s.boot u.live i))
        | r => r) ∧
      ∀ t : State, OnlyTimePasses t (t.completed tid i (latencyAt s.boot u.live i)) tid) ∧
    (∀ e, decode (t0.pc.toNat / 4 % 16) ws = .error e → e ≠ .field → slot ≠ 63 → ∃ t, step s = .next t ∧ (t.dev.thread tid).pc = t0.pc ∧ t.mem = s.mem ∧
      t.dev.regs = s.dev.regs ∧ (t.dev.thread tid).faultInfo = BitVec.ofNat 64 ((match e with
        | .zeroOrLength => 4
        | .straddle => 1
        | .unassigned => 2
        | .field => 3
        | .short => 1) * 65536 + 1))) ∧
  (∀ (s : State) (i : Instr) (rest : List Agenda), isEvent i = true → s.agenda = .event i :: rest → step s = exec i { s with agenda := rest })

/-- R6, R49 to R56, R73 to R76: words written out from the tables decode to the instructions they stand for. -/
def Obligations.WordsDecode : Prop :=
  decode 0 [0x01000000] = .ok .nop ∧ decode 15 [0x10060A21] = .ok (.sub 3 2 68) ∧
  decode 0 [0x4C0A0000, 0x89ABCDEF, 0x01234567] = .ok (.movl 5 0x0123456789ABCDEF) ∧ decode 0 [0x02000007] = .ok (.trap 7) ∧
  decode 0 [0x1C000000] = .ok .fence ∧ decode 0 [0] = .error .zeroOrLength ∧ decode 14 [0x4C0A0000, 0, 0] = .error .straddle

/-- R49 to R60, R63, R73 to R77: the words of every well-formed instruction decode to it, with every operand, wherever it fits in its
fetch block and whatever follows. -/
def Obligations.EveryInstructionDecodesFromItsWords : Prop :=
  ∀ (i : Instr) (pos : Nat) (rest : List Code), i.wf = true → isEvent i = false → pos + (encode i).length ≤ 16 → decode pos (encode i ++ rest) = .ok i

/-- R50, R51, R55, R60, R61, R77: the words that decode are those of a well-formed instruction: no bit is ignored and no two words of a
length mean the same instruction. -/
def Obligations.OnlyItsWordsDecodeToAnInstruction : Prop :=
  ∀ (i : Instr) (pos : Nat) (ws : List Code), decode pos ws = .ok i →
    i.wf = true ∧ isEvent i = false ∧ ws.take (encode i).length = encode i ∧ pos + (encode i).length ≤ 16

/-- R56, R70, R158, R259, R263, R333, R348: what reset leaves: no package booted, every thread slot FREE but the walkers', every register and
predicate clear, every descriptor at its reset value, memory with nothing listed, FULL and free of poison. Where the spec gives no value,
the values are the model's choice (log entries 5 and 11). -/
def Obligations.ResetState : Prop :=
  let d := State.reset.dev
  State.reset.boot.status = 0 ∧ d.stopped = none ∧ d.cur = 0 ∧ d.reqs = [] ∧ d.msgs = [] ∧ d.jobs = [] ∧ d.kernels = [] ∧ d.gangs = [] ∧
  (∀ tid, tid % 64 ≠ 63 → (d.thread tid).st = .free ∧ (d.thread tid).status = 0 ∧ (d.thread tid).preds = 0) ∧
  (∀ tid, tid % 64 = 63 → (d.thread tid).st = .ready ∧ (d.thread tid).wsize = 32 ∧ (d.thread tid).flight = .walk Config.walkerEntry) ∧
  (∀ tid i, d.getG tid i = 0) ∧ (∀ k, tget d.descs descReset k = 0x04040009) ∧ (∀ k, tget d.cregs 0 k = 0) ∧ (∀ k, tget d.accs 0 k = 0) ∧
  (∀ c i, (d.phaser c i).gen = 0 ∧ (d.phaser c i).st = 0) ∧ (∀ c, (d.list c).items = [] ∧ (d.list c).interval = 0 ∧ (d.list c).thr = 32) ∧
  (∀ k, tget d.usage 0 k = 0) ∧ (∀ a, State.reset.mem.byteAt a = 0) ∧ ∀ g, State.reset.mem.isFull g = true ∧ State.reset.mem.isPoisoned g = false

/-- The invariant of Safety holds after reset. -/
def Obligations.ResetMeetsTheInvariant : Prop := Inv State.reset

/-- R33, R34: every step keeps memory in its canonical form and the boot record consistent: WHLDESC is VALID exactly in a part that has
booted, and its descriptor is then legal. -/
def Obligations.EveryStepKeepsTheInvariant : Prop := ∀ s t : State, Inv s → step s = .next t → Inv t

/-- R23, R33: the capability registers do not change after publication: no instruction and no step of the part changes the boot record but a cold boot, the
firmware image's verification, and a write of WHLDESC while the wheel does not run, which changes its fields alone; none changes the model's schedule
(assumption 2). -/
def Obligations.OnlyBootChangesTheBootRecord : Prop :=
  ∀ (i : Instr) (s t : State), exec i s = .next t → t.agenda = s.agenda ∧ t.core = s.core ∧
    (t.boot ≠ s.boot → (∃ a, i = .coldBoot a) ∨ (∃ ok a, i = .imageVerifyDone ok a) ∨
      ∃ a v, i = .registerWrite a v ∧ a.toNat % 2 ^ 60 = 0x200000 ∧ s.boot.whldesc.getLsbD 63 = false ∧ t.boot = { s.boot with whldesc := t.boot.whldesc } ∧
        t.boot.whldesc.getLsbD 63 = false)

/-- R421: a package that has stopped does nothing but a cold boot, which restores service with no context; on one that runs, every instruction
and every step answers a next state. -/
def Obligations.OnlyAStoppedPackageStops : Prop :=
  (∀ (i : Instr) (s : State), s.dev.stopped ≠ none → (∀ a, i ≠ .coldBoot a) → exec i s = .fault .packageStopped) ∧
  (∀ (a : BootArgs) (s : State), ∃ t, exec (.coldBoot a) s = .next t ∧ t.dev.stopped = none ∧ t.dev.ctxs = []) ∧
  (∀ (i : Instr) (s : State), s.dev.stopped = none → ∃ t, exec i s = .next t) ∧ (∀ s : State, s.dev.stopped = none → SafeStep s)

/-- R70, R87, R89, R115, R134 to R151, R163, R182: the frame of the instructions that act on their own thread and tiles: memory, the boot record, the
core-shared registers, the accumulators and every unit stay as they were; a scalar instruction changes no general register but the one it names,
no tile, and, unless it traps, no other thread; a vector instruction changes no general register. -/
def Obligations.FramesOfScalarAndVectorInstructions : Prop :=
  ∀ (s t : State) (d a b : BitVec 7) (imm : BitVec 10) (lit : Word) (x : Ext) (p : BitVec 3) (cc : BitVec 4) (f : Bool) (disp : BitVec 20) (code : BitVec 16),
    (∀ i ∈ [Instr.addi d a imm, .addiLit d a lit, .andi d a imm, .andiLit d a lit, .ori d a imm, .oriLit d a lit, .xori d a imm, .xoriLit d a lit,
        .shli d a imm, .shliLit d a lit, .shri d a imm, .shriLit d a lit, .sari d a imm, .sariLit d a lit, .roti d a imm, .rotiLit d a lit, .movl d lit,
        .lea d a imm, .leaLit d a lit, .add d a b, .sub d a b, .and d a b, .or d a b, .xor d a b, .andn d a b, .min d a b, .max d a b, .minn d a b,
        .maxn d a b, .shl d a b, .shr d a b, .sar d a b, .rot d a b, .mul d a b, .mulh d a b, .mulhn d a b, .div d a b, .divn d a b, .rem d a b,
        .remn d a b, .clz d a, .ctz d a, .popc d a, .brev d a, .mov d a, .sel d a b p],
      exec i s = .next t → KeepsBut s t (some d.toNat)) ∧
    (∀ i ∈ [Instr.fadd x, .fsub x, .fmul x, .fdiv x, .fmin x, .fmax x, .fsqrt x, .ffma x, .fcvt x, .fclass x, .ext x, .extn x, .ins x],
      exec i s = .next t → KeepsBut s t (some x.d.toNat)) ∧
    (∀ i ∈ [Instr.nop, .cmpi p cc a imm, .cmpiLit p cc a lit, .cmp p cc a b, .fcmp p cc a b f, .pand d a b, .por d a b, .pxor d a b, .pnot d a,
        .bri a, .ret a, .br disp, .brLit lit, .brp p f disp, .brpLit p f lit, .fence, .fenceRed, .yield, .trap code, .brk code],
      exec i s = .next t → KeepsBut s t none) ∧
    (∀ i ∈ [Instr.call p f disp, .callLit p f lit], exec i s = .next t → KeepsBut s t (some 7)) ∧
    (∀ i ∈ [Instr.loop p disp, .loopLit p lit], exec i s = .next t → KeepsBut s t (some p.toNat)) ∧
    (∀ i ∈ [Instr.vadd x, .vsub x, .vmul x, .vmin x, .vmax x, .vfma x, .vabs x, .vneg x, .vand x, .vor x, .vxor x, .vshl x, .vshr x, .vcmp x, .vsel x,
        .vcvt x, .vqnt x, .vdq x, .vexp2 x, .vlog2 x, .vrcp x, .vrsq x, .vredsum x, .vredmax x, .vredmin x, .vbcst x, .vperm x, .vgather x, .vscan x,
        .tmov x, .ttr x], exec i s = .next t → KeepsUnits s t ∧ t.dev.regs = s.dev.regs)
end

