-- ==== Sys2Proof/Laws/Table.lean ====
section
/-!
SUPPORT. Laws of sparse tables and sorted lists: reading after writing, and that the sorted form is kept.
-/

namespace Sys2Proof.Machine

theorem tfind_tput_same {α : Type} (t : Table α) (k : Nat) (v : α) : tfind (tput t k v) k = some v := by
  induction t with
  | nil => simp [tput, tfind]
  | cons e r ih =>
    obtain ⟨j, w⟩ := e
    unfold tput
    split
    · simp [tfind]
    · split
      · simp [tfind]
      · simp [tfind, *]

theorem tfind_tput_other {α : Type} (t : Table α) {k j : Nat} (h : j ≠ k) (v : α) : tfind (tput t k v) j = tfind t j := by
  induction t with
  | nil => simp [tput, tfind, h]
  | cons e r ih =>
    obtain ⟨i, w⟩ := e
    unfold tput
    split
    · rename_i hk; subst hk; simp [tfind, h]
    · split
      · simp [tfind, h]
      · simp [tfind, ih]

theorem tfind_tdel_same {α : Type} (t : Table α) (k : Nat) : tfind (tdel t k) k = none := by
  induction t with
  | nil => rfl
  | cons e r ih =>
    obtain ⟨j, w⟩ := e
    by_cases h : j = k
    · subst h; simpa [tdel] using ih
    · have : ¬ k = j := fun e => h e.symm
      simpa [tdel, tfind, h, this] using ih

theorem tfind_tdel_other {α : Type} (t : Table α) {k j : Nat} (h : j ≠ k) : tfind (tdel t k) j = tfind t j := by
  induction t with
  | nil => rfl
  | cons e r ih =>
    obtain ⟨i, w⟩ := e
    by_cases hi : i = k
    · subst hi; simpa [tdel, tfind, h] using ih
    · by_cases hj : j = i
      · subst hj; simp [tdel, tfind, h]
      · simpa [tdel, tfind, hi, hj] using ih

@[simp] theorem tget_tput_same {α : Type} (t : Table α) (d : α) (k : Nat) (v : α) : tget (tput t k v) d k = v := by
  simp [tget, tfind_tput_same]

theorem tget_tput_other {α : Type} (t : Table α) (d : α) {k j : Nat} (h : j ≠ k) (v : α) : tget (tput t k v) d j = tget t d j := by
  simp [tget, tfind_tput_other t h]

@[simp] theorem tget_tset_same {α : Type} [DecidableEq α] (t : Table α) (d : α) (k : Nat) (v : α) : tget (tset t d k v) d k = v := by
  unfold tset
  split
  · simp [tget, tfind_tdel_same, *]
  · simp

theorem tget_tset_other {α : Type} [DecidableEq α] (t : Table α) (d : α) {k j : Nat} (h : j ≠ k) (v : α) :
    tget (tset t d k v) d j = tget t d j := by
  unfold tset
  split
  · simp [tget, tfind_tdel_other t h]
  · exact tget_tput_other t d h v

theorem rising_cons {a : Nat} {r : List Nat} : rising (a :: r) = true ↔ (∀ b ∈ r, a < b) ∧ rising r = true := by
  induction r generalizing a with
  | nil => simp [rising]
  | cons b r ih =>
    simp only [rising, Bool.and_eq_true, decide_eq_true_eq, List.mem_cons, forall_eq_or_imp]
    constructor
    · rintro ⟨h, hr⟩
      exact ⟨⟨h, fun c hc => Nat.lt_trans h ((ih.1 hr).1 c hc)⟩, hr⟩
    · rintro ⟨⟨h, -⟩, hr⟩
      exact ⟨h, hr⟩

theorem rising_filter {l : List Nat} (p : Nat → Bool) (h : rising l = true) : rising (l.filter p) = true := by
  induction l with
  | nil => rfl
  | cons a r ih =>
    obtain ⟨ha, hr⟩ := rising_cons.1 h
    by_cases hp : p a = true
    · simp only [List.filter_cons, hp, if_true]
      exact rising_cons.2 ⟨fun b hb => ha b ((List.mem_filter.1 hb).1), ih hr⟩
    · simpa [List.filter_cons, hp] using ih hr

theorem mem_sinsert {l : List Nat} {k x : Nat} : x ∈ sinsert l k ↔ x = k ∨ x ∈ l := by
  induction l with
  | nil => simp [sinsert]
  | cons j r ih =>
    unfold sinsert
    split
    · rename_i h; subst h; simp
    · split
      · simp
      · simp only [List.mem_cons, ih]
        constructor
        · rintro (h | h | h) <;> simp [h]
        · rintro (h | h | h) <;> simp [h]

theorem rising_sinsert {l : List Nat} (k : Nat) (h : rising l = true) : rising (sinsert l k) = true := by
  induction l with
  | nil => rfl
  | cons j r ih =>
    obtain ⟨hj, hr⟩ := rising_cons.1 h
    unfold sinsert
    split
    · exact h
    · split
      · rename_i hk
        refine rising_cons.2 ⟨fun b hb => ?_, h⟩
        rcases List.mem_cons.1 hb with rfl | hb
        · exact hk
        · exact Nat.lt_trans hk (hj b hb)
      · rename_i h1 h2
        refine rising_cons.2 ⟨fun b hb => ?_, ih hr⟩
        rcases mem_sinsert.1 hb with rfl | hb
        · omega
        · exact hj b hb

theorem rising_serase {l : List Nat} (k : Nat) (h : rising l = true) : rising (serase l k) = true := rising_filter _ h

theorem shas_sinsert (l : List Nat) (k x : Nat) : shas (sinsert l k) x = (x == k || shas l x) := by
  rw [Bool.eq_iff_iff]
  simp [shas, mem_sinsert]

theorem shas_serase (l : List Nat) (k x : Nat) : shas (serase l k) x = (x != k && shas l x) := by
  rw [Bool.eq_iff_iff]
  simp [shas, serase, and_comm]

/-- The keys of a table after a write: the old ones and the new. -/
theorem mem_keys_tput {α : Type} {t : Table α} {k x : Nat} {v : α} : x ∈ (tput t k v).map Prod.fst ↔ x = k ∨ x ∈ t.map Prod.fst := by
  induction t with
  | nil => simp [tput]
  | cons e r ih =>
    obtain ⟨j, w⟩ := e
    unfold tput
    split
    · rename_i h; subst h; simp
    · split
      · simp
      · simp only [List.map_cons, List.mem_cons, ih]
        constructor
        · rintro (h | h | h) <;> simp [h]
        · rintro (h | h | h) <;> simp [h]

theorem rising_tput {α : Type} {t : Table α} (k : Nat) (v : α) (h : rising (t.map Prod.fst) = true) :
    rising ((tput t k v).map Prod.fst) = true := by
  induction t with
  | nil => rfl
  | cons e r ih =>
    obtain ⟨j, w⟩ := e
    obtain ⟨hj, hr⟩ := rising_cons.1 h
    unfold tput
    split
    · rename_i hk; subst hk; exact h
    · split
      · rename_i hk
        refine rising_cons.2 ⟨fun b hb => ?_, h⟩
        rcases List.mem_cons.1 hb with rfl | hb
        · exact hk
        · exact Nat.lt_trans hk (hj b hb)
      · rename_i h1 h2
        refine rising_cons.2 ⟨fun b hb => ?_, ih hr⟩
        rcases mem_keys_tput.1 hb with rfl | hb
        · simp only; omega
        · exact hj b hb

theorem rising_tfilter {α : Type} {t : Table α} (p : Nat × α → Bool) (h : rising (t.map Prod.fst) = true) :
    rising ((t.filter p).map Prod.fst) = true := by
  induction t with
  | nil => rfl
  | cons e r ih =>
    obtain ⟨ha, hr⟩ := rising_cons.1 h
    by_cases hp : p e = true
    · simp only [List.filter_cons, hp, if_true]
      refine rising_cons.2 ⟨fun b hb => ha b ?_, ih hr⟩
      obtain ⟨x, hx, rfl⟩ := List.mem_map.1 hb
      exact List.mem_map.2 ⟨x, (List.mem_filter.1 hx).1, rfl⟩
    · simpa [List.filter_cons, hp] using ih hr

end Sys2Proof.Machine
end

