-- ==== Sys2Proof/Laws/Memory.lean ====
section
/-!
SUPPORT. Laws of memory: every change keeps the canonical form, and what reading gives after a change.
-/

namespace Sys2Proof.Machine

/-- The parts of the canonical form. -/
theorem Mem.wf_iff (m : Mem) : m.wf = true ↔
    rising (m.cells.map Prod.fst) = true ∧ (∀ c ∈ m.cells, c.2 ≠ 0) ∧ rising m.empties = true ∧ rising m.bad = true ∧
      rising m.poison = true := by
  simp [Mem.wf, and_assoc]

theorem mem_tput {α : Type} {t : Table α} {k : Nat} {v : α} {e : Nat × α} (h : e ∈ tput t k v) : e = (k, v) ∨ e ∈ t := by
  induction t with
  | nil => simpa [tput] using h
  | cons x r ih =>
    obtain ⟨j, w⟩ := x
    unfold tput at h
    split at h
    · simp only [List.mem_cons] at h ⊢
      exact h.imp_right .inr
    · split at h
      · simpa using h
      · simp only [List.mem_cons] at h ⊢
        rcases h with h | h
        · exact .inr (.inl h)
        · exact (ih h).imp_right .inr

theorem Mem.cells_tset_wf (c : List Host.Cell) (a : Nat) (v : Byte) (h : rising (c.map Prod.fst) = true) (hz : ∀ e ∈ c, e.2 ≠ 0) :
    rising ((tset c (0 : Byte) a v).map Prod.fst) = true ∧ ∀ e ∈ tset c (0 : Byte) a v, e.2 ≠ 0 := by
  unfold tset
  split
  · exact ⟨rising_tfilter _ h, fun e he => hz e (List.mem_filter.1 he).1⟩
  · rename_i hv
    refine ⟨rising_tput a v h, fun e he => ?_⟩
    rcases mem_tput he with rfl | he
    · exact hv
    · exact hz e he

theorem rising_clean (bad : List Nat) (g : Nat) (is : List Nat) (p : List Nat) (h : rising p = true) :
    rising (is.foldl (fun p i => if shas bad (chanOf (g + i)) then sinsert p (g + i) else serase p (g + i)) p) = true := by
  induction is generalizing p with
  | nil => exact h
  | cons i is ih =>
    refine ih _ ?_
    dsimp only
    split
    · exact rising_sinsert _ h
    · exact rising_serase _ h

/-- Every change of memory keeps its canonical form. -/
theorem Mem.apply_wf {m : Mem} (w : MemWrite) (h : m.wf = true) : (m.apply w).wf = true := by
  obtain ⟨h1, h2, h3, h4, h5⟩ := (Mem.wf_iff m).1 h
  apply (Mem.wf_iff _).2
  match w with
  | .byte a v =>
    obtain ⟨ha, hb⟩ := Mem.cells_tset_wf m.cells a v h1 h2
    exact ⟨ha, hb, h3, h4, h5⟩
  | .full g true => exact ⟨h1, h2, rising_serase _ h3, h4, h5⟩
  | .full g false => exact ⟨h1, h2, rising_sinsert _ h3, h4, h5⟩
  | .poison g on =>
    refine ⟨h1, h2, h3, h4, ?_⟩
    simp only [Mem.apply]
    split
    · exact rising_sinsert _ h5
    · exact rising_serase _ h5
  | .channel ch => exact ⟨h1, h2, h3, rising_sinsert _ h4, rising_filter _ h5⟩
  | .zero a n => exact ⟨rising_tfilter _ h1, fun e he => h2 e (List.mem_filter.1 he).1, h3, h4, h5⟩
  | .clean g n =>
    exact ⟨rising_tfilter _ h1, fun e he => h2 e (List.mem_filter.1 he).1, rising_filter _ h3, h4, rising_clean _ _ _ _ h5⟩

/-- Changes in order keep the canonical form. -/
theorem Mem.applyAll_wf {m : Mem} (ws : List MemWrite) (h : m.wf = true) : (m.applyAll ws).wf = true := by
  induction ws generalizing m with
  | nil => exact h
  | cons w ws ih => exact ih (Mem.apply_wf w h)

/-- A byte reads as written, and no other byte changes. -/
theorem Mem.byteAt_byte (m : Mem) (a x : Nat) (v : Byte) :
    (m.apply (.byte a v)).byteAt x = if x = a then v else m.byteAt x := by
  simp only [Mem.apply, Mem.byteAt]
  split
  · subst x; simp
  · exact tget_tset_other _ _ ‹_› _

/-- A change of a granule's state changes no byte. -/
theorem Mem.byteAt_full (m : Mem) (g : Nat) (f : Bool) (x : Nat) : (m.apply (.full g f)).byteAt x = m.byteAt x := by cases f <;> rfl

/-- A granule is in the state it was put in, and no other granule changes. -/
theorem Mem.isFull_full (m : Mem) (g : Nat) (f : Bool) (x : Nat) : (m.apply (.full g f)).isFull x = if x = g then f else m.isFull x := by
  cases f <;> by_cases h : x = g <;> simp [Mem.apply, Mem.isFull, shas_sinsert, shas_serase, h]

/-- A granule is poisoned as it was marked, and no other granule changes. -/
theorem Mem.isPoisoned_poison (m : Mem) (g : Nat) (on : Bool) (x : Nat) :
    (m.apply (.poison g on)).isPoisoned x = if x = g then on else m.isPoisoned x := by
  by_cases h : x = g
  · subst h
    cases on <;> cases hb : shas m.bad (chanOf x) <;> simp [Mem.apply, Mem.isPoisoned, shas_sinsert, shas_serase, hb]
  · cases on <;> cases hb : shas m.bad (chanOf g) <;> simp [Mem.apply, Mem.isPoisoned, shas_sinsert, shas_serase, hb, h]

/-- A store changes no byte outside it. -/
theorem Live.store_byteAt (l : Live) (a n v x : Nat) (h : x < a ∨ a + n ≤ x) : (l.store a n v).mem.byteAt x = l.mem.byteAt x := by
  induction n generalizing l a v with
  | zero => rfl
  | succ n ih =>
    rw [Live.store, ih _ _ _ (by omega)]
    simp only [Live.write, Mem.byteAt_byte]
    rw [if_neg (by omega)]

/-- A store's bytes read as its value, little-endian (R6). -/
theorem Live.store_read (l : Live) (a n v : Nat) : (l.store a n v).mem.read a n = v % 256 ^ n := by
  induction n generalizing l a v with
  | zero => simp [Mem.read, Nat.mod_one]
  | succ n ih =>
    rw [Live.store, Mem.read, ih, Live.store_byteAt _ _ _ _ _ (by omega)]
    simp only [Live.write, Mem.byteAt_byte, if_true, BitVec.toNat_ofNat]
    rw [show 2 ^ 8 = 256 from rfl, Nat.pow_succ, Nat.mul_comm _ 256, Nat.mod_mul]

/-- A store leaves the part as it is. -/
@[simp] theorem Live.store_dev (l : Live) (a n v : Nat) : (l.store a n v).dev = l.dev := by
  induction n generalizing l a v with
  | zero => rfl
  | succ n ih => simp [Live.store, ih, Live.write]

end Sys2Proof.Machine
end

