-- ==== Sys2Proof/Laws/State.lean ====
section
/-!
SUPPORT. What each update of the state leaves: one lemma per field per update.
-/

namespace Sys2Proof.Machine

@[simp] theorem Live.map_dev (l : Live) (f : Dev → Dev) : (l.map f).dev = f l.dev := rfl
@[simp] theorem Live.map_mem (l : Live) (f : Dev → Dev) : (l.map f).mem = l.mem := rfl
@[simp] theorem Live.onThread_mem (l : Live) (tid : Nat) (f : Thread → Thread) : (l.onThread tid f).mem = l.mem := rfl
@[simp] theorem Live.onTh_mem (l : Live) (f : Thread → Thread) : (l.onTh f).mem = l.mem := rfl
@[simp] theorem Live.onCore_mem (l : Live) (c : Nat) (f : CoreRec → CoreRec) : (l.onCore c f).mem = l.mem := rfl
@[simp] theorem Live.onCluster_mem (l : Live) (c : Nat) (f : Cluster → Cluster) : (l.onCluster c f).mem = l.mem := rfl
@[simp] theorem Live.onCtx_mem (l : Live) (c : Nat) (f : Ctx → Ctx) : (l.onCtx c f).mem = l.mem := rfl
@[simp] theorem Live.setG_mem (l : Live) (i : BitVec 7) (v : Word) : (l.setG i v).mem = l.mem := rfl
@[simp] theorem Live.setP_mem (l : Live) (i : BitVec 3) (v : Bool) : (l.setP i v).mem = l.mem := rfl
@[simp] theorem Live.setFlags_mem (l : Live) (x : Flags) : (l.setFlags x).mem = l.mem := rfl
@[simp] theorem Live.map_writes (l : Live) (f : Dev → Dev) : (l.map f).writes = l.writes := rfl
@[simp] theorem Live.onThread_writes (l : Live) (tid : Nat) (f : Thread → Thread) : (l.onThread tid f).writes = l.writes := rfl
@[simp] theorem Live.onTh_writes (l : Live) (f : Thread → Thread) : (l.onTh f).writes = l.writes := rfl
@[simp] theorem Live.onCore_writes (l : Live) (c : Nat) (f : CoreRec → CoreRec) : (l.onCore c f).writes = l.writes := rfl
@[simp] theorem Live.onCluster_writes (l : Live) (c : Nat) (f : Cluster → Cluster) : (l.onCluster c f).writes = l.writes := rfl
@[simp] theorem Live.onCtx_writes (l : Live) (c : Nat) (f : Ctx → Ctx) : (l.onCtx c f).writes = l.writes := rfl
@[simp] theorem Live.setG_writes (l : Live) (i : BitVec 7) (v : Word) : (l.setG i v).writes = l.writes := rfl
@[simp] theorem Live.setP_writes (l : Live) (i : BitVec 3) (v : Bool) : (l.setP i v).writes = l.writes := rfl
@[simp] theorem Live.setFlags_writes (l : Live) (x : Flags) : (l.setFlags x).writes = l.writes := rfl
@[simp] theorem Live.write_dev (l : Live) (w : MemWrite) : (l.write w).dev = l.dev := rfl
@[simp] theorem Live.write_mem (l : Live) (w : MemWrite) : (l.write w).mem = l.mem.apply w := rfl
@[simp] theorem Live.write_writes (l : Live) (w : MemWrite) : (l.write w).writes = w :: l.writes := rfl
@[simp] theorem Live.onThread_dev (l : Live) (tid : Nat) (f : Thread → Thread) : (l.onThread tid f).dev = l.dev.setThread tid (f (l.dev.thread tid)) := rfl
@[simp] theorem Live.onTh_dev (l : Live) (f : Thread → Thread) : (l.onTh f).dev = l.dev.setThread l.dev.cur (f (l.dev.thread l.dev.cur)) := rfl
@[simp] theorem Live.setG_dev (l : Live) (i : BitVec 7) (v : Word) : (l.setG i v).dev = l.dev.setG l.dev.cur i.toNat v := rfl
@[simp] theorem Dev.setThread_stopped (d : Dev) (tid : Nat) (t : Thread) : (d.setThread tid t).stopped = d.stopped := rfl
@[simp] theorem Dev.setThread_cur (d : Dev) (tid : Nat) (t : Thread) : (d.setThread tid t).cur = d.cur := rfl
@[simp] theorem Dev.setThread_regs (d : Dev) (tid : Nat) (t : Thread) : (d.setThread tid t).regs = d.regs := rfl
@[simp] theorem Dev.setThread_cregs (d : Dev) (tid : Nat) (t : Thread) : (d.setThread tid t).cregs = d.cregs := rfl
@[simp] theorem Dev.setThread_cores (d : Dev) (tid : Nat) (t : Thread) : (d.setThread tid t).cores = d.cores := rfl
@[simp] theorem Dev.setThread_tiles (d : Dev) (tid : Nat) (t : Thread) : (d.setThread tid t).tiles = d.tiles := rfl
@[simp] theorem Dev.setThread_scales (d : Dev) (tid : Nat) (t : Thread) : (d.setThread tid t).scales = d.scales := rfl
@[simp] theorem Dev.setThread_books (d : Dev) (tid : Nat) (t : Thread) : (d.setThread tid t).books = d.books := rfl
@[simp] theorem Dev.setThread_descs (d : Dev) (tid : Nat) (t : Thread) : (d.setThread tid t).descs = d.descs := rfl
@[simp] theorem Dev.setThread_slices (d : Dev) (tid : Nat) (t : Thread) : (d.setThread tid t).slices = d.slices := rfl
@[simp] theorem Dev.setThread_accs (d : Dev) (tid : Nat) (t : Thread) : (d.setThread tid t).accs = d.accs := rfl
@[simp] theorem Dev.setThread_banks (d : Dev) (tid : Nat) (t : Thread) : (d.setThread tid t).banks = d.banks := rfl
@[simp] theorem Dev.setThread_gangs (d : Dev) (tid : Nat) (t : Thread) : (d.setThread tid t).gangs = d.gangs := rfl
@[simp] theorem Dev.setThread_work (d : Dev) (tid : Nat) (t : Thread) : (d.setThread tid t).work = d.work := rfl
@[simp] theorem Dev.setThread_phasers (d : Dev) (tid : Nat) (t : Thread) : (d.setThread tid t).phasers = d.phasers := rfl
@[simp] theorem Dev.setThread_phWaits (d : Dev) (tid : Nat) (t : Thread) : (d.setThread tid t).phWaits = d.phWaits := rfl
@[simp] theorem Dev.setThread_grWaits (d : Dev) (tid : Nat) (t : Thread) : (d.setThread tid t).grWaits = d.grWaits := rfl
@[simp] theorem Dev.setThread_wakes (d : Dev) (tid : Nat) (t : Thread) : (d.setThread tid t).wakes = d.wakes := rfl
@[simp] theorem Dev.setThread_clusters (d : Dev) (tid : Nat) (t : Thread) : (d.setThread tid t).clusters = d.clusters := rfl
@[simp] theorem Dev.setThread_ctxs (d : Dev) (tid : Nat) (t : Thread) : (d.setThread tid t).ctxs = d.ctxs := rfl
@[simp] theorem Dev.setThread_kernels (d : Dev) (tid : Nat) (t : Thread) : (d.setThread tid t).kernels = d.kernels := rfl
@[simp] theorem Dev.setThread_saves (d : Dev) (tid : Nat) (t : Thread) : (d.setThread tid t).saves = d.saves := rfl
@[simp] theorem Dev.setThread_sched (d : Dev) (tid : Nat) (t : Thread) : (d.setThread tid t).sched = d.sched := rfl
@[simp] theorem Dev.setThread_collectors (d : Dev) (tid : Nat) (t : Thread) : (d.setThread tid t).collectors = d.collectors := rfl
@[simp] theorem Dev.setThread_reqs (d : Dev) (tid : Nat) (t : Thread) : (d.setThread tid t).reqs = d.reqs := rfl
@[simp] theorem Dev.setThread_msgs (d : Dev) (tid : Nat) (t : Thread) : (d.setThread tid t).msgs = d.msgs := rfl
@[simp] theorem Dev.setThread_credits (d : Dev) (tid : Nat) (t : Thread) : (d.setThread tid t).credits = d.credits := rfl
@[simp] theorem Dev.setThread_jobs (d : Dev) (tid : Nat) (t : Thread) : (d.setThread tid t).jobs = d.jobs := rfl
@[simp] theorem Dev.setThread_circuits (d : Dev) (tid : Nat) (t : Thread) : (d.setThread tid t).circuits = d.circuits := rfl
@[simp] theorem Dev.setThread_copies (d : Dev) (tid : Nat) (t : Thread) : (d.setThread tid t).copies = d.copies := rfl
@[simp] theorem Dev.setThread_cfg (d : Dev) (tid : Nat) (t : Thread) : (d.setThread tid t).cfg = d.cfg := rfl
@[simp] theorem Dev.setThread_flits (d : Dev) (tid : Nat) (t : Thread) : (d.setThread tid t).flits = d.flits := rfl
@[simp] theorem Dev.setThread_streams (d : Dev) (tid : Nat) (t : Thread) : (d.setThread tid t).streams = d.streams := rfl
@[simp] theorem Dev.setThread_links (d : Dev) (tid : Nat) (t : Thread) : (d.setThread tid t).links = d.links := rfl
@[simp] theorem Dev.setThread_names (d : Dev) (tid : Nat) (t : Thread) : (d.setThread tid t).names = d.names := rfl
@[simp] theorem Dev.setThread_domains (d : Dev) (tid : Nat) (t : Thread) : (d.setThread tid t).domains = d.domains := rfl
@[simp] theorem Dev.setThread_scrubs (d : Dev) (tid : Nat) (t : Thread) : (d.setThread tid t).scrubs = d.scrubs := rfl
@[simp] theorem Dev.setThread_usage (d : Dev) (tid : Nat) (t : Thread) : (d.setThread tid t).usage = d.usage := rfl
@[simp] theorem Dev.setThread_snaps (d : Dev) (tid : Nat) (t : Thread) : (d.setThread tid t).snaps = d.snaps := rfl
@[simp] theorem Dev.setThread_slots (d : Dev) (tid : Nat) (t : Thread) : (d.setThread tid t).slots = d.slots := rfl
@[simp] theorem Dev.setThread_hostUp (d : Dev) (tid : Nat) (t : Thread) : (d.setThread tid t).hostUp = d.hostUp := rfl
@[simp] theorem Dev.setThread_sessions (d : Dev) (tid : Nat) (t : Thread) : (d.setThread tid t).sessions = d.sessions := rfl
@[simp] theorem Dev.setThread_host (d : Dev) (tid : Nat) (t : Thread) : (d.setThread tid t).host = d.host := rfl
@[simp] theorem Dev.setThread_cmDown (d : Dev) (tid : Nat) (t : Thread) : (d.setThread tid t).cmDown = d.cmDown := rfl
@[simp] theorem Dev.setThread_debugOpen (d : Dev) (tid : Nat) (t : Thread) : (d.setThread tid t).debugOpen = d.debugOpen := rfl
@[simp] theorem Dev.setThread_out (d : Dev) (tid : Nat) (t : Thread) : (d.setThread tid t).out = d.out := rfl
@[simp] theorem Dev.setThread_fresh (d : Dev) (tid : Nat) (t : Thread) : (d.setThread tid t).fresh = d.fresh := rfl
@[simp] theorem Dev.setThread_tick (d : Dev) (tid : Nat) (t : Thread) : (d.setThread tid t).tick = d.tick := rfl
@[simp] theorem Dev.setThread_split (d : Dev) (tid : Nat) (t : Thread) : (d.setThread tid t).split = d.split := rfl
@[simp] theorem Dev.setThread_threads (d : Dev) (tid : Nat) (t : Thread) : (d.setThread tid t).threads = tput d.threads tid t := rfl
@[simp] theorem Dev.setG_stopped (d : Dev) (tid i : Nat) (v : Word) : (d.setG tid i v).stopped = d.stopped := by
  unfold Dev.setG; split <;> rfl
@[simp] theorem Dev.setG_cur (d : Dev) (tid i : Nat) (v : Word) : (d.setG tid i v).cur = d.cur := by
  unfold Dev.setG; split <;> rfl
@[simp] theorem Dev.setG_cregs (d : Dev) (tid i : Nat) (v : Word) : (d.setG tid i v).cregs = d.cregs := by
  unfold Dev.setG; split <;> rfl
@[simp] theorem Dev.setG_cores (d : Dev) (tid i : Nat) (v : Word) : (d.setG tid i v).cores = d.cores := by
  unfold Dev.setG; split <;> rfl
@[simp] theorem Dev.setG_tiles (d : Dev) (tid i : Nat) (v : Word) : (d.setG tid i v).tiles = d.tiles := by
  unfold Dev.setG; split <;> rfl
@[simp] theorem Dev.setG_scales (d : Dev) (tid i : Nat) (v : Word) : (d.setG tid i v).scales = d.scales := by
  unfold Dev.setG; split <;> rfl
@[simp] theorem Dev.setG_books (d : Dev) (tid i : Nat) (v : Word) : (d.setG tid i v).books = d.books := by
  unfold Dev.setG; split <;> rfl
@[simp] theorem Dev.setG_descs (d : Dev) (tid i : Nat) (v : Word) : (d.setG tid i v).descs = d.descs := by
  unfold Dev.setG; split <;> rfl
@[simp] theorem Dev.setG_slices (d : Dev) (tid i : Nat) (v : Word) : (d.setG tid i v).slices = d.slices := by
  unfold Dev.setG; split <;> rfl
@[simp] theorem Dev.setG_accs (d : Dev) (tid i : Nat) (v : Word) : (d.setG tid i v).accs = d.accs := by
  unfold Dev.setG; split <;> rfl
@[simp] theorem Dev.setG_banks (d : Dev) (tid i : Nat) (v : Word) : (d.setG tid i v).banks = d.banks := by
  unfold Dev.setG; split <;> rfl
@[simp] theorem Dev.setG_gangs (d : Dev) (tid i : Nat) (v : Word) : (d.setG tid i v).gangs = d.gangs := by
  unfold Dev.setG; split <;> rfl
@[simp] theorem Dev.setG_work (d : Dev) (tid i : Nat) (v : Word) : (d.setG tid i v).work = d.work := by
  unfold Dev.setG; split <;> rfl
@[simp] theorem Dev.setG_phasers (d : Dev) (tid i : Nat) (v : Word) : (d.setG tid i v).phasers = d.phasers := by
  unfold Dev.setG; split <;> rfl
@[simp] theorem Dev.setG_phWaits (d : Dev) (tid i : Nat) (v : Word) : (d.setG tid i v).phWaits = d.phWaits := by
  unfold Dev.setG; split <;> rfl
@[simp] theorem Dev.setG_grWaits (d : Dev) (tid i : Nat) (v : Word) : (d.setG tid i v).grWaits = d.grWaits := by
  unfold Dev.setG; split <;> rfl
@[simp] theorem Dev.setG_wakes (d : Dev) (tid i : Nat) (v : Word) : (d.setG tid i v).wakes = d.wakes := by
  unfold Dev.setG; split <;> rfl
@[simp] theorem Dev.setG_clusters (d : Dev) (tid i : Nat) (v : Word) : (d.setG tid i v).clusters = d.clusters := by
  unfold Dev.setG; split <;> rfl
@[simp] theorem Dev.setG_ctxs (d : Dev) (tid i : Nat) (v : Word) : (d.setG tid i v).ctxs = d.ctxs := by
  unfold Dev.setG; split <;> rfl
@[simp] theorem Dev.setG_kernels (d : Dev) (tid i : Nat) (v : Word) : (d.setG tid i v).kernels = d.kernels := by
  unfold Dev.setG; split <;> rfl
@[simp] theorem Dev.setG_saves (d : Dev) (tid i : Nat) (v : Word) : (d.setG tid i v).saves = d.saves := by
  unfold Dev.setG; split <;> rfl
@[simp] theorem Dev.setG_sched (d : Dev) (tid i : Nat) (v : Word) : (d.setG tid i v).sched = d.sched := by
  unfold Dev.setG; split <;> rfl
@[simp] theorem Dev.setG_collectors (d : Dev) (tid i : Nat) (v : Word) : (d.setG tid i v).collectors = d.collectors := by
  unfold Dev.setG; split <;> rfl
@[simp] theorem Dev.setG_reqs (d : Dev) (tid i : Nat) (v : Word) : (d.setG tid i v).reqs = d.reqs := by
  unfold Dev.setG; split <;> rfl
@[simp] theorem Dev.setG_msgs (d : Dev) (tid i : Nat) (v : Word) : (d.setG tid i v).msgs = d.msgs := by
  unfold Dev.setG; split <;> rfl
@[simp] theorem Dev.setG_credits (d : Dev) (tid i : Nat) (v : Word) : (d.setG tid i v).credits = d.credits := by
  unfold Dev.setG; split <;> rfl
@[simp] theorem Dev.setG_jobs (d : Dev) (tid i : Nat) (v : Word) : (d.setG tid i v).jobs = d.jobs := by
  unfold Dev.setG; split <;> rfl
@[simp] theorem Dev.setG_circuits (d : Dev) (tid i : Nat) (v : Word) : (d.setG tid i v).circuits = d.circuits := by
  unfold Dev.setG; split <;> rfl
@[simp] theorem Dev.setG_copies (d : Dev) (tid i : Nat) (v : Word) : (d.setG tid i v).copies = d.copies := by
  unfold Dev.setG; split <;> rfl
@[simp] theorem Dev.setG_cfg (d : Dev) (tid i : Nat) (v : Word) : (d.setG tid i v).cfg = d.cfg := by
  unfold Dev.setG; split <;> rfl
@[simp] theorem Dev.setG_flits (d : Dev) (tid i : Nat) (v : Word) : (d.setG tid i v).flits = d.flits := by
  unfold Dev.setG; split <;> rfl
@[simp] theorem Dev.setG_streams (d : Dev) (tid i : Nat) (v : Word) : (d.setG tid i v).streams = d.streams := by
  unfold Dev.setG; split <;> rfl
@[simp] theorem Dev.setG_links (d : Dev) (tid i : Nat) (v : Word) : (d.setG tid i v).links = d.links := by
  unfold Dev.setG; split <;> rfl
@[simp] theorem Dev.setG_names (d : Dev) (tid i : Nat) (v : Word) : (d.setG tid i v).names = d.names := by
  unfold Dev.setG; split <;> rfl
@[simp] theorem Dev.setG_domains (d : Dev) (tid i : Nat) (v : Word) : (d.setG tid i v).domains = d.domains := by
  unfold Dev.setG; split <;> rfl
@[simp] theorem Dev.setG_scrubs (d : Dev) (tid i : Nat) (v : Word) : (d.setG tid i v).scrubs = d.scrubs := by
  unfold Dev.setG; split <;> rfl
@[simp] theorem Dev.setG_usage (d : Dev) (tid i : Nat) (v : Word) : (d.setG tid i v).usage = d.usage := by
  unfold Dev.setG; split <;> rfl
@[simp] theorem Dev.setG_snaps (d : Dev) (tid i : Nat) (v : Word) : (d.setG tid i v).snaps = d.snaps := by
  unfold Dev.setG; split <;> rfl
@[simp] theorem Dev.setG_slots (d : Dev) (tid i : Nat) (v : Word) : (d.setG tid i v).slots = d.slots := by
  unfold Dev.setG; split <;> rfl
@[simp] theorem Dev.setG_hostUp (d : Dev) (tid i : Nat) (v : Word) : (d.setG tid i v).hostUp = d.hostUp := by
  unfold Dev.setG; split <;> rfl
@[simp] theorem Dev.setG_sessions (d : Dev) (tid i : Nat) (v : Word) : (d.setG tid i v).sessions = d.sessions := by
  unfold Dev.setG; split <;> rfl
@[simp] theorem Dev.setG_host (d : Dev) (tid i : Nat) (v : Word) : (d.setG tid i v).host = d.host := by
  unfold Dev.setG; split <;> rfl
@[simp] theorem Dev.setG_cmDown (d : Dev) (tid i : Nat) (v : Word) : (d.setG tid i v).cmDown = d.cmDown := by
  unfold Dev.setG; split <;> rfl
@[simp] theorem Dev.setG_debugOpen (d : Dev) (tid i : Nat) (v : Word) : (d.setG tid i v).debugOpen = d.debugOpen := by
  unfold Dev.setG; split <;> rfl
@[simp] theorem Dev.setG_out (d : Dev) (tid i : Nat) (v : Word) : (d.setG tid i v).out = d.out := by
  unfold Dev.setG; split <;> rfl
@[simp] theorem Dev.setG_fresh (d : Dev) (tid i : Nat) (v : Word) : (d.setG tid i v).fresh = d.fresh := by
  unfold Dev.setG; split <;> rfl
@[simp] theorem Dev.setG_tick (d : Dev) (tid i : Nat) (v : Word) : (d.setG tid i v).tick = d.tick := by
  unfold Dev.setG; split <;> rfl
@[simp] theorem Dev.setG_split (d : Dev) (tid i : Nat) (v : Word) : (d.setG tid i v).split = d.split := by
  unfold Dev.setG; split <;> rfl
@[simp] theorem Dev.clearPresent_stopped (d : Dev) (tid i : Nat) : (d.clearPresent tid i).stopped = d.stopped := by
  unfold Dev.clearPresent; split <;> rfl
@[simp] theorem Dev.clearPresent_cur (d : Dev) (tid i : Nat) : (d.clearPresent tid i).cur = d.cur := by
  unfold Dev.clearPresent; split <;> rfl
@[simp] theorem Dev.clearPresent_regs (d : Dev) (tid i : Nat) : (d.clearPresent tid i).regs = d.regs := by
  unfold Dev.clearPresent; split <;> rfl
@[simp] theorem Dev.clearPresent_cregs (d : Dev) (tid i : Nat) : (d.clearPresent tid i).cregs = d.cregs := by
  unfold Dev.clearPresent; split <;> rfl
@[simp] theorem Dev.clearPresent_cores (d : Dev) (tid i : Nat) : (d.clearPresent tid i).cores = d.cores := by
  unfold Dev.clearPresent; split <;> rfl
@[simp] theorem Dev.clearPresent_tiles (d : Dev) (tid i : Nat) : (d.clearPresent tid i).tiles = d.tiles := by
  unfold Dev.clearPresent; split <;> rfl
@[simp] theorem Dev.clearPresent_scales (d : Dev) (tid i : Nat) : (d.clearPresent tid i).scales = d.scales := by
  unfold Dev.clearPresent; split <;> rfl
@[simp] theorem Dev.clearPresent_books (d : Dev) (tid i : Nat) : (d.clearPresent tid i).books = d.books := by
  unfold Dev.clearPresent; split <;> rfl
@[simp] theorem Dev.clearPresent_descs (d : Dev) (tid i : Nat) : (d.clearPresent tid i).descs = d.descs := by
  unfold Dev.clearPresent; split <;> rfl
@[simp] theorem Dev.clearPresent_slices (d : Dev) (tid i : Nat) : (d.clearPresent tid i).slices = d.slices := by
  unfold Dev.clearPresent; split <;> rfl
@[simp] theorem Dev.clearPresent_accs (d : Dev) (tid i : Nat) : (d.clearPresent tid i).accs = d.accs := by
  unfold Dev.clearPresent; split <;> rfl
@[simp] theorem Dev.clearPresent_banks (d : Dev) (tid i : Nat) : (d.clearPresent tid i).banks = d.banks := by
  unfold Dev.clearPresent; split <;> rfl
@[simp] theorem Dev.clearPresent_gangs (d : Dev) (tid i : Nat) : (d.clearPresent tid i).gangs = d.gangs := by
  unfold Dev.clearPresent; split <;> rfl
@[simp] theorem Dev.clearPresent_work (d : Dev) (tid i : Nat) : (d.clearPresent tid i).work = d.work := by
  unfold Dev.clearPresent; split <;> rfl
@[simp] theorem Dev.clearPresent_phasers (d : Dev) (tid i : Nat) : (d.clearPresent tid i).phasers = d.phasers := by
  unfold Dev.clearPresent; split <;> rfl
@[simp] theorem Dev.clearPresent_phWaits (d : Dev) (tid i : Nat) : (d.clearPresent tid i).phWaits = d.phWaits := by
  unfold Dev.clearPresent; split <;> rfl
@[simp] theorem Dev.clearPresent_grWaits (d : Dev) (tid i : Nat) : (d.clearPresent tid i).grWaits = d.grWaits := by
  unfold Dev.clearPresent; split <;> rfl
@[simp] theorem Dev.clearPresent_wakes (d : Dev) (tid i : Nat) : (d.clearPresent tid i).wakes = d.wakes := by
  unfold Dev.clearPresent; split <;> rfl
@[simp] theorem Dev.clearPresent_clusters (d : Dev) (tid i : Nat) : (d.clearPresent tid i).clusters = d.clusters := by
  unfold Dev.clearPresent; split <;> rfl
@[simp] theorem Dev.clearPresent_ctxs (d : Dev) (tid i : Nat) : (d.clearPresent tid i).ctxs = d.ctxs := by
  unfold Dev.clearPresent; split <;> rfl
@[simp] theorem Dev.clearPresent_kernels (d : Dev) (tid i : Nat) : (d.clearPresent tid i).kernels = d.kernels := by
  unfold Dev.clearPresent; split <;> rfl
@[simp] theorem Dev.clearPresent_saves (d : Dev) (tid i : Nat) : (d.clearPresent tid i).saves = d.saves := by
  unfold Dev.clearPresent; split <;> rfl
@[simp] theorem Dev.clearPresent_sched (d : Dev) (tid i : Nat) : (d.clearPresent tid i).sched = d.sched := by
  unfold Dev.clearPresent; split <;> rfl
@[simp] theorem Dev.clearPresent_collectors (d : Dev) (tid i : Nat) : (d.clearPresent tid i).collectors = d.collectors := by
  unfold Dev.clearPresent; split <;> rfl
@[simp] theorem Dev.clearPresent_reqs (d : Dev) (tid i : Nat) : (d.clearPresent tid i).reqs = d.reqs := by
  unfold Dev.clearPresent; split <;> rfl
@[simp] theorem Dev.clearPresent_msgs (d : Dev) (tid i : Nat) : (d.clearPresent tid i).msgs = d.msgs := by
  unfold Dev.clearPresent; split <;> rfl
@[simp] theorem Dev.clearPresent_credits (d : Dev) (tid i : Nat) : (d.clearPresent tid i).credits = d.credits := by
  unfold Dev.clearPresent; split <;> rfl
@[simp] theorem Dev.clearPresent_jobs (d : Dev) (tid i : Nat) : (d.clearPresent tid i).jobs = d.jobs := by
  unfold Dev.clearPresent; split <;> rfl
@[simp] theorem Dev.clearPresent_circuits (d : Dev) (tid i : Nat) : (d.clearPresent tid i).circuits = d.circuits := by
  unfold Dev.clearPresent; split <;> rfl
@[simp] theorem Dev.clearPresent_copies (d : Dev) (tid i : Nat) : (d.clearPresent tid i).copies = d.copies := by
  unfold Dev.clearPresent; split <;> rfl
@[simp] theorem Dev.clearPresent_cfg (d : Dev) (tid i : Nat) : (d.clearPresent tid i).cfg = d.cfg := by
  unfold Dev.clearPresent; split <;> rfl
@[simp] theorem Dev.clearPresent_flits (d : Dev) (tid i : Nat) : (d.clearPresent tid i).flits = d.flits := by
  unfold Dev.clearPresent; split <;> rfl
@[simp] theorem Dev.clearPresent_streams (d : Dev) (tid i : Nat) : (d.clearPresent tid i).streams = d.streams := by
  unfold Dev.clearPresent; split <;> rfl
@[simp] theorem Dev.clearPresent_links (d : Dev) (tid i : Nat) : (d.clearPresent tid i).links = d.links := by
  unfold Dev.clearPresent; split <;> rfl
@[simp] theorem Dev.clearPresent_names (d : Dev) (tid i : Nat) : (d.clearPresent tid i).names = d.names := by
  unfold Dev.clearPresent; split <;> rfl
@[simp] theorem Dev.clearPresent_domains (d : Dev) (tid i : Nat) : (d.clearPresent tid i).domains = d.domains := by
  unfold Dev.clearPresent; split <;> rfl
@[simp] theorem Dev.clearPresent_scrubs (d : Dev) (tid i : Nat) : (d.clearPresent tid i).scrubs = d.scrubs := by
  unfold Dev.clearPresent; split <;> rfl
@[simp] theorem Dev.clearPresent_usage (d : Dev) (tid i : Nat) : (d.clearPresent tid i).usage = d.usage := by
  unfold Dev.clearPresent; split <;> rfl
@[simp] theorem Dev.clearPresent_snaps (d : Dev) (tid i : Nat) : (d.clearPresent tid i).snaps = d.snaps := by
  unfold Dev.clearPresent; split <;> rfl
@[simp] theorem Dev.clearPresent_slots (d : Dev) (tid i : Nat) : (d.clearPresent tid i).slots = d.slots := by
  unfold Dev.clearPresent; split <;> rfl
@[simp] theorem Dev.clearPresent_hostUp (d : Dev) (tid i : Nat) : (d.clearPresent tid i).hostUp = d.hostUp := by
  unfold Dev.clearPresent; split <;> rfl
@[simp] theorem Dev.clearPresent_sessions (d : Dev) (tid i : Nat) : (d.clearPresent tid i).sessions = d.sessions := by
  unfold Dev.clearPresent; split <;> rfl
@[simp] theorem Dev.clearPresent_host (d : Dev) (tid i : Nat) : (d.clearPresent tid i).host = d.host := by
  unfold Dev.clearPresent; split <;> rfl
@[simp] theorem Dev.clearPresent_cmDown (d : Dev) (tid i : Nat) : (d.clearPresent tid i).cmDown = d.cmDown := by
  unfold Dev.clearPresent; split <;> rfl
@[simp] theorem Dev.clearPresent_debugOpen (d : Dev) (tid i : Nat) : (d.clearPresent tid i).debugOpen = d.debugOpen := by
  unfold Dev.clearPresent; split <;> rfl
@[simp] theorem Dev.clearPresent_out (d : Dev) (tid i : Nat) : (d.clearPresent tid i).out = d.out := by
  unfold Dev.clearPresent; split <;> rfl
@[simp] theorem Dev.clearPresent_fresh (d : Dev) (tid i : Nat) : (d.clearPresent tid i).fresh = d.fresh := by
  unfold Dev.clearPresent; split <;> rfl
@[simp] theorem Dev.clearPresent_tick (d : Dev) (tid i : Nat) : (d.clearPresent tid i).tick = d.tick := by
  unfold Dev.clearPresent; split <;> rfl
@[simp] theorem Dev.clearPresent_split (d : Dev) (tid i : Nat) : (d.clearPresent tid i).split = d.split := by
  unfold Dev.clearPresent; split <;> rfl
@[simp] theorem Thread.setP_st (t : Thread) (i : Nat) (v : Bool) : (t.setP i v).st = t.st := by
  unfold Thread.setP; split <;> rfl
@[simp] theorem Thread.setP_flight (t : Thread) (i : Nat) (v : Bool) : (t.setP i v).flight = t.flight := by
  unfold Thread.setP; split <;> rfl
@[simp] theorem Thread.setP_wbase (t : Thread) (i : Nat) (v : Bool) : (t.setP i v).wbase = t.wbase := by
  unfold Thread.setP; split <;> rfl
@[simp] theorem Thread.setP_wsize (t : Thread) (i : Nat) (v : Bool) : (t.setP i v).wsize = t.wsize := by
  unfold Thread.setP; split <;> rfl
@[simp] theorem Thread.setP_tbase (t : Thread) (i : Nat) (v : Bool) : (t.setP i v).tbase = t.tbase := by
  unfold Thread.setP; split <;> rfl
@[simp] theorem Thread.setP_tsize (t : Thread) (i : Nat) (v : Bool) : (t.setP i v).tsize = t.tsize := by
  unfold Thread.setP; split <;> rfl
@[simp] theorem Thread.setP_pc (t : Thread) (i : Nat) (v : Bool) : (t.setP i v).pc = t.pc := by
  unfold Thread.setP; split <;> rfl
@[simp] theorem Thread.setP_absent (t : Thread) (i : Nat) (v : Bool) : (t.setP i v).absent = t.absent := by
  unfold Thread.setP; split <;> rfl
@[simp] theorem Thread.setP_k0 (t : Thread) (i : Nat) (v : Bool) : (t.setP i v).k0 = t.k0 := by
  unfold Thread.setP; split <;> rfl
@[simp] theorem Thread.setP_k1 (t : Thread) (i : Nat) (v : Bool) : (t.setP i v).k1 = t.k1 := by
  unfold Thread.setP; split <;> rfl
@[simp] theorem Thread.setP_k2 (t : Thread) (i : Nat) (v : Bool) : (t.setP i v).k2 = t.k2 := by
  unfold Thread.setP; split <;> rfl
@[simp] theorem Thread.setP_k3 (t : Thread) (i : Nat) (v : Bool) : (t.setP i v).k3 = t.k3 := by
  unfold Thread.setP; split <;> rfl
@[simp] theorem Thread.setP_status (t : Thread) (i : Nat) (v : Bool) : (t.setP i v).status = t.status := by
  unfold Thread.setP; split <;> rfl
@[simp] theorem Thread.setP_fpmode (t : Thread) (i : Nat) (v : Bool) : (t.setP i v).fpmode = t.fpmode := by
  unfold Thread.setP; split <;> rfl
@[simp] theorem Thread.setP_rng (t : Thread) (i : Nat) (v : Bool) : (t.setP i v).rng = t.rng := by
  unfold Thread.setP; split <;> rfl
@[simp] theorem Thread.setP_faultInfo (t : Thread) (i : Nat) (v : Bool) : (t.setP i v).faultInfo = t.faultInfo := by
  unfold Thread.setP; split <;> rfl
@[simp] theorem Thread.setP_lthread (t : Thread) (i : Nat) (v : Bool) : (t.setP i v).lthread = t.lthread := by
  unfold Thread.setP; split <;> rfl
@[simp] theorem Thread.setP_lcore (t : Thread) (i : Nat) (v : Bool) : (t.setP i v).lcore = t.lcore := by
  unfold Thread.setP; split <;> rfl
@[simp] theorem Thread.setP_ncore (t : Thread) (i : Nat) (v : Bool) : (t.setP i v).ncore = t.ncore := by
  unfold Thread.setP; split <;> rfl
@[simp] theorem Thread.setP_lclu (t : Thread) (i : Nat) (v : Bool) : (t.setP i v).lclu = t.lclu := by
  unfold Thread.setP; split <;> rfl
@[simp] theorem Thread.setP_lstk (t : Thread) (i : Nat) (v : Bool) : (t.setP i v).lstk = t.lstk := by
  unfold Thread.setP; split <;> rfl
@[simp] theorem Thread.setP_ctx (t : Thread) (i : Nat) (v : Bool) : (t.setP i v).ctx = t.ctx := by
  unfold Thread.setP; split <;> rfl
@[simp] theorem Thread.setP_knum (t : Thread) (i : Nat) (v : Bool) : (t.setP i v).knum = t.knum := by
  unfold Thread.setP; split <;> rfl
@[simp] theorem Thread.setP_owner (t : Thread) (i : Nat) (v : Bool) : (t.setP i v).owner = t.owner := by
  unfold Thread.setP; split <;> rfl
@[simp] theorem Thread.setP_jobseed (t : Thread) (i : Nat) (v : Bool) : (t.setP i v).jobseed = t.jobseed := by
  unfold Thread.setP; split <;> rfl
@[simp] theorem Thread.setP_join (t : Thread) (i : Nat) (v : Bool) : (t.setP i v).join = t.join := by
  unfold Thread.setP; split <;> rfl
@[simp] theorem Thread.setP_phNext (t : Thread) (i : Nat) (v : Bool) : (t.setP i v).phNext = t.phNext := by
  unfold Thread.setP; split <;> rfl
@[simp] theorem Thread.setP_deferred (t : Thread) (i : Nat) (v : Bool) : (t.setP i v).deferred = t.deferred := by
  unfold Thread.setP; split <;> rfl
@[simp] theorem Thread.setP_seconds (t : Thread) (i : Nat) (v : Bool) : (t.setP i v).seconds = t.seconds := by
  unfold Thread.setP; split <;> rfl
@[simp] theorem Thread.setP_busy (t : Thread) (i : Nat) (v : Bool) : (t.setP i v).busy = t.busy := by
  unfold Thread.setP; split <;> rfl
@[simp] theorem Thread.setP_hold (t : Thread) (i : Nat) (v : Bool) : (t.setP i v).hold = t.hold := by
  unfold Thread.setP; split <;> rfl
@[simp] theorem Thread.setP_resumeAt (t : Thread) (i : Nat) (v : Bool) : (t.setP i v).resumeAt = t.resumeAt := by
  unfold Thread.setP; split <;> rfl
@[simp] theorem Thread.setP_landing (t : Thread) (i : Nat) (v : Bool) : (t.setP i v).landing = t.landing := by
  unfold Thread.setP; split <;> rfl
@[simp] theorem Thread.setP_toGang (t : Thread) (i : Nat) (v : Bool) : (t.setP i v).toGang = t.toGang := by
  unfold Thread.setP; split <;> rfl
@[simp] theorem Thread.setP_retries (t : Thread) (i : Nat) (v : Bool) : (t.setP i v).retries = t.retries := by
  unfold Thread.setP; split <;> rfl
@[simp] theorem Thread.setK_st (t : Thread) (i : Nat) (v : BitVec 128) : (t.setK i v).st = t.st := by
  unfold Thread.setK; split <;> rfl
@[simp] theorem Thread.setK_flight (t : Thread) (i : Nat) (v : BitVec 128) : (t.setK i v).flight = t.flight := by
  unfold Thread.setK; split <;> rfl
@[simp] theorem Thread.setK_wbase (t : Thread) (i : Nat) (v : BitVec 128) : (t.setK i v).wbase = t.wbase := by
  unfold Thread.setK; split <;> rfl
@[simp] theorem Thread.setK_wsize (t : Thread) (i : Nat) (v : BitVec 128) : (t.setK i v).wsize = t.wsize := by
  unfold Thread.setK; split <;> rfl
@[simp] theorem Thread.setK_tbase (t : Thread) (i : Nat) (v : BitVec 128) : (t.setK i v).tbase = t.tbase := by
  unfold Thread.setK; split <;> rfl
@[simp] theorem Thread.setK_tsize (t : Thread) (i : Nat) (v : BitVec 128) : (t.setK i v).tsize = t.tsize := by
  unfold Thread.setK; split <;> rfl
@[simp] theorem Thread.setK_pc (t : Thread) (i : Nat) (v : BitVec 128) : (t.setK i v).pc = t.pc := by
  unfold Thread.setK; split <;> rfl
@[simp] theorem Thread.setK_absent (t : Thread) (i : Nat) (v : BitVec 128) : (t.setK i v).absent = t.absent := by
  unfold Thread.setK; split <;> rfl
@[simp] theorem Thread.setK_preds (t : Thread) (i : Nat) (v : BitVec 128) : (t.setK i v).preds = t.preds := by
  unfold Thread.setK; split <;> rfl
@[simp] theorem Thread.setK_status (t : Thread) (i : Nat) (v : BitVec 128) : (t.setK i v).status = t.status := by
  unfold Thread.setK; split <;> rfl
@[simp] theorem Thread.setK_fpmode (t : Thread) (i : Nat) (v : BitVec 128) : (t.setK i v).fpmode = t.fpmode := by
  unfold Thread.setK; split <;> rfl
@[simp] theorem Thread.setK_rng (t : Thread) (i : Nat) (v : BitVec 128) : (t.setK i v).rng = t.rng := by
  unfold Thread.setK; split <;> rfl
@[simp] theorem Thread.setK_faultInfo (t : Thread) (i : Nat) (v : BitVec 128) : (t.setK i v).faultInfo = t.faultInfo := by
  unfold Thread.setK; split <;> rfl
@[simp] theorem Thread.setK_lthread (t : Thread) (i : Nat) (v : BitVec 128) : (t.setK i v).lthread = t.lthread := by
  unfold Thread.setK; split <;> rfl
@[simp] theorem Thread.setK_lcore (t : Thread) (i : Nat) (v : BitVec 128) : (t.setK i v).lcore = t.lcore := by
  unfold Thread.setK; split <;> rfl
@[simp] theorem Thread.setK_ncore (t : Thread) (i : Nat) (v : BitVec 128) : (t.setK i v).ncore = t.ncore := by
  unfold Thread.setK; split <;> rfl
@[simp] theorem Thread.setK_lclu (t : Thread) (i : Nat) (v : BitVec 128) : (t.setK i v).lclu = t.lclu := by
  unfold Thread.setK; split <;> rfl
@[simp] theorem Thread.setK_lstk (t : Thread) (i : Nat) (v : BitVec 128) : (t.setK i v).lstk = t.lstk := by
  unfold Thread.setK; split <;> rfl
@[simp] theorem Thread.setK_ctx (t : Thread) (i : Nat) (v : BitVec 128) : (t.setK i v).ctx = t.ctx := by
  unfold Thread.setK; split <;> rfl
@[simp] theorem Thread.setK_knum (t : Thread) (i : Nat) (v : BitVec 128) : (t.setK i v).knum = t.knum := by
  unfold Thread.setK; split <;> rfl
@[simp] theorem Thread.setK_owner (t : Thread) (i : Nat) (v : BitVec 128) : (t.setK i v).owner = t.owner := by
  unfold Thread.setK; split <;> rfl
@[simp] theorem Thread.setK_jobseed (t : Thread) (i : Nat) (v : BitVec 128) : (t.setK i v).jobseed = t.jobseed := by
  unfold Thread.setK; split <;> rfl
@[simp] theorem Thread.setK_join (t : Thread) (i : Nat) (v : BitVec 128) : (t.setK i v).join = t.join := by
  unfold Thread.setK; split <;> rfl
@[simp] theorem Thread.setK_phNext (t : Thread) (i : Nat) (v : BitVec 128) : (t.setK i v).phNext = t.phNext := by
  unfold Thread.setK; split <;> rfl
@[simp] theorem Thread.setK_deferred (t : Thread) (i : Nat) (v : BitVec 128) : (t.setK i v).deferred = t.deferred := by
  unfold Thread.setK; split <;> rfl
@[simp] theorem Thread.setK_seconds (t : Thread) (i : Nat) (v : BitVec 128) : (t.setK i v).seconds = t.seconds := by
  unfold Thread.setK; split <;> rfl
@[simp] theorem Thread.setK_busy (t : Thread) (i : Nat) (v : BitVec 128) : (t.setK i v).busy = t.busy := by
  unfold Thread.setK; split <;> rfl
@[simp] theorem Thread.setK_hold (t : Thread) (i : Nat) (v : BitVec 128) : (t.setK i v).hold = t.hold := by
  unfold Thread.setK; split <;> rfl
@[simp] theorem Thread.setK_resumeAt (t : Thread) (i : Nat) (v : BitVec 128) : (t.setK i v).resumeAt = t.resumeAt := by
  unfold Thread.setK; split <;> rfl
@[simp] theorem Thread.setK_landing (t : Thread) (i : Nat) (v : BitVec 128) : (t.setK i v).landing = t.landing := by
  unfold Thread.setK; split <;> rfl
@[simp] theorem Thread.setK_toGang (t : Thread) (i : Nat) (v : BitVec 128) : (t.setK i v).toGang = t.toGang := by
  unfold Thread.setK; split <;> rfl
@[simp] theorem Thread.setK_retries (t : Thread) (i : Nat) (v : BitVec 128) : (t.setK i v).retries = t.retries := by
  unfold Thread.setK; split <;> rfl

end Sys2Proof.Machine
end

