-- ==== Sys2Proof/Laws/Ops.lean ====
section
/-!
SUPPORT. What the shared operations do: registers, predicates, and the wrappers that every meaning goes through.
-/

namespace Sys2Proof.Machine

@[simp] theorem Dev.thread_setThread_same (d : Dev) (tid : Nat) (t : Thread) : (d.setThread tid t).thread tid = t := by
  simp [Dev.thread]

theorem Dev.thread_setThread_other (d : Dev) {tid x : Nat} (h : x ≠ tid) (t : Thread) : (d.setThread tid t).thread x = d.thread x := by
  simp [Dev.thread, tget_tput_other _ _ h]

/-- Writing a register changes of its thread only the presence bits (R115). -/
theorem Dev.thread_setG (d : Dev) (tid i : Nat) (v : Word) : (d.setG tid i v).thread tid =
    if i = 0 then d.thread tid else { d.thread tid with absent := (d.thread tid).absent &&& ~~~(1#128 <<< i) } := by
  unfold Dev.setG
  split <;> simp [Dev.thread]

theorem Dev.thread_setG_other (d : Dev) {tid x : Nat} (h : x ≠ tid) (i : Nat) (v : Word) : (d.setG tid i v).thread x = d.thread x := by
  unfold Dev.setG
  split
  · rfl
  · simp [Dev.thread, tget_tput_other _ _ h]

@[simp] theorem Dev.thread_setG_wbase (d : Dev) (tid i x : Nat) (v : Word) : ((d.setG tid i v).thread x).wbase = (d.thread x).wbase := by
  by_cases h : x = tid
  · subst h; rw [Dev.thread_setG]; split <;> rfl
  · rw [Dev.thread_setG_other _ h]

/-- g0 reads as zero (R56). -/
@[simp] theorem Dev.getG_zero (d : Dev) (tid : Nat) : d.getG tid 0 = 0 := rfl

/-- A write to g0 is discarded (R56). -/
@[simp] theorem Dev.setG_zero (d : Dev) (tid : Nat) (v : Word) : d.setG tid 0 v = d := rfl

/-- A register reads as written; of the same thread no other register changes (R106). -/
theorem Dev.getG_setG (d : Dev) (tid i x : Nat) (v : Word) :
    (d.setG tid i v).getG tid x = if x = 0 then 0 else if x = i then v else d.getG tid x := by
  by_cases hx : x = 0
  · simp [Dev.getG, hx]
  · by_cases hi : i = 0
    · subst hi; simp [hx]
    · have hr : (d.setG tid i v).regs = tset d.regs 0 (regKey tid (d.thread tid) i) v := by simp [Dev.setG, hi]
      simp only [Dev.getG, hx, if_false, hr, regKey, Dev.thread_setG_wbase]
      by_cases h : x = i
      · subst h; simp
      · rw [if_neg h, tget_tset_other _ _ (by omega)]

/-- A write of a thread leaves every register of its window as it was while the window stays. -/
theorem Dev.getG_setThread (d : Dev) (tid x i : Nat) (t : Thread) (h : t.wbase = (d.thread tid).wbase) :
    (d.setThread tid t).getG x i = d.getG x i := by
  unfold Dev.getG
  by_cases hx : x = tid
  · subst hx; simp [regKey, h]
  · simp [Dev.thread_setThread_other _ hx]

/-- One bit of a predicate mask. -/
theorem predBit (i x : Nat) (hx : x < 8) : (1#8 <<< i).getLsbD x = decide (x = i) := by
  rw [BitVec.getLsbD_shiftLeft, BitVec.getLsbD_one]
  by_cases h : x = i
  · subst h; simp [hx]
  · by_cases h2 : x < i
    · simp [h, h2]
    · have : x - i ≠ 0 := by omega
      simp [h, this]

/-- A predicate reads as written; no other changes, and p0 stays true (R56). -/
theorem Thread.p_setP (t : Thread) (i x : Nat) (v : Bool) (hx : x < 8) : (t.setP i v).p x = if x = 0 then true else if x = i then v else t.p x := by
  unfold Thread.setP Thread.p
  by_cases h0 : x = 0
  · simp [h0]
  · by_cases hi : i = 0
    · subst hi; simp [h0]
    · rw [if_neg hi, if_neg h0]
      have hb : (x == 0) = false := by simpa using h0
      cases v
      · simp only [Bool.false_eq_true, if_false, hb, Bool.false_or, BitVec.getLsbD_and, BitVec.getLsbD_not, predBit i x hx]
        by_cases h : x = i <;> simp [h, hx]
      · simp only [if_true, hb, Bool.false_or, BitVec.getLsbD_or, predBit i x hx]
        by_cases h : x = i <;> simp [h]

/-- The issuing thread of what a step works on. -/
@[simp] theorem Live.th_mk (d : Dev) (m : Mem) (w : List MemWrite) : Live.th ⟨d, m, w⟩ = d.thread d.cur := rfl

/-- A step of the part or an instruction on a package that has not stopped: the state it leaves (R421). -/
theorem onLive_next {s : State} (f : Boot → Live → Live) (h : s.dev.stopped = none) :
    onLive s f = .next { s with dev := (f s.boot ⟨s.dev, s.mem, []⟩).dev, mem := s.mem.applyAll (f s.boot ⟨s.dev, s.mem, []⟩).writes.reverse } := by
  simp [onLive, h]

/-- On a stopped package nothing runs (R421). -/
theorem onLive_stopped {s : State} (f : Boot → Live → Live) (h : s.dev.stopped.isSome = true) : onLive s f = .fault .packageStopped := by
  simp [onLive, h]

/-- What an answer of onLive says of the next state: the boot record, the schedule and the core that issues stay. -/
theorem onLive_eq_next {s t : State} {f : Boot → Live → Live} (h : onLive s f = .next t) :
    s.dev.stopped = none ∧ t.boot = s.boot ∧ t.agenda = s.agenda ∧ t.core = s.core ∧
      t.dev = (f s.boot ⟨s.dev, s.mem, []⟩).dev ∧ t.mem = s.mem.applyAll (f s.boot ⟨s.dev, s.mem, []⟩).writes.reverse := by
  unfold onLive at h
  split at h
  · cases h
  · rename_i hs
    cases h
    exact ⟨by simpa using hs, rfl, rfl, rfl, rfl, rfl⟩

/-- Every step keeps the canonical form of memory. -/
theorem onLive_wf {s t : State} {f : Boot → Live → Live} (h : onLive s f = .next t) (hw : s.mem.wf = true) : t.mem.wf = true := by
  rw [(onLive_eq_next h).2.2.2.2.2]
  exact Mem.applyAll_wf _ hw

/-- The window check passes for indices that the window holds (R63). -/
theorem checkWindows_ok {l : Live} {gs ts : List Nat} {k : Unit → Out} (hg : ∀ i ∈ gs, i < l.th.wsize) (ht : ∀ i ∈ ts, i < l.th.tsize) :
    checkWindows l gs ts k = k () := by
  have h1 : gs.any (fun i => decide (l.th.wsize ≤ i)) = false := by
    simp only [List.any_eq_false, decide_eq_true_eq]
    exact fun i hi => Nat.not_le.2 (hg i hi)
  have h2 : ts.any (fun i => decide (l.th.tsize ≤ i)) = false := by
    simp only [List.any_eq_false, decide_eq_true_eq]
    exact fun i hi => Nat.not_le.2 (ht i hi)
  simp [checkWindows, h1, h2]

/-- The presence check passes for registers that are present (R115). -/
theorem checkPresent_ok {l : Live} {gs : List Nat} {k : Unit → Out} (h : ∀ i ∈ gs, l.th.lacks i = false) : checkPresent l gs k = k () := by
  have : gs.find? (fun i => l.th.lacks i) = none := by
    simp only [List.find?_eq_none]
    intro i hi; simp [h i hi]
  simp [checkPresent, this]

/-- A base instruction whose operands are in the window and present runs its body (R63, R70). -/
theorem instr_ready {s : State} {len : Nat} {gs : List (BitVec 7)} {body : Boot → Live → Out} (h : s.dev.stopped = none)
    (hw : ∀ i ∈ gs, i.toNat < (s.dev.thread s.dev.cur).wsize) (hp : ∀ i ∈ gs, (s.dev.thread s.dev.cur).lacks i.toNat = false) :
    instr s len gs body = onLive s fun b l => finish b len (body b l) := by
  unfold instr
  rw [onLive_next _ h, onLive_next _ h]
  have e : checkWindows ⟨s.dev, s.mem, []⟩ (gs.map BitVec.toNat) [] (fun _ =>
      checkPresent ⟨s.dev, s.mem, []⟩ (gs.map BitVec.toNat) fun _ => body s.boot ⟨s.dev, s.mem, []⟩) = body s.boot ⟨s.dev, s.mem, []⟩ := by
    rw [checkWindows_ok (by simpa using hw) (by simp), checkPresent_ok (by simpa using hp)]
  simp only [e]

/-- An extended instruction whose guard holds and whose operands are in the windows and present runs its body (R59, R63, R70). -/
theorem instrX_ready {s : State} {x : Ext} {gs ts : List (BitVec 7)} {body : Boot → Live → Out} (h : s.dev.stopped = none)
    (hw : ∀ i ∈ gs, i.toNat < (s.dev.thread s.dev.cur).wsize) (ht : ∀ i ∈ ts, i.toNat < (s.dev.thread s.dev.cur).tsize)
    (hg : ((s.dev.thread s.dev.cur).p x.pg.toNat != x.pn) = true) (hp : ∀ i ∈ gs, (s.dev.thread s.dev.cur).lacks i.toNat = false) :
    instrX s x gs ts body = onLive s fun b l => finish b (Ext.len x) (body b l) := by
  unfold instrX
  rw [onLive_next _ h, onLive_next _ h]
  have e : checkWindows ⟨s.dev, s.mem, []⟩ (gs.map BitVec.toNat) (ts.map BitVec.toNat) (fun _ =>
      if (Live.th ⟨s.dev, s.mem, []⟩).p x.pg.toNat != x.pn then
        checkPresent ⟨s.dev, s.mem, []⟩ (gs.map BitVec.toNat) fun _ => body s.boot ⟨s.dev, s.mem, []⟩
      else .done ⟨s.dev, s.mem, []⟩) = body s.boot ⟨s.dev, s.mem, []⟩ := by
    rw [checkWindows_ok (by simpa using hw) (by simpa using ht), if_pos (by simpa using hg), checkPresent_ok (by simpa using hp)]
  simp only [e]

/-- An extended instruction whose guard is false does nothing but pass (R59). -/
theorem instrX_skips {s : State} {x : Ext} {gs ts : List (BitVec 7)} {body : Boot → Live → Out} (h : s.dev.stopped = none)
    (hw : ∀ i ∈ gs, i.toNat < (s.dev.thread s.dev.cur).wsize) (ht : ∀ i ∈ ts, i.toNat < (s.dev.thread s.dev.cur).tsize)
    (hg : ((s.dev.thread s.dev.cur).p x.pg.toNat != x.pn) = false) :
    instrX s x gs ts body = onLive s fun b l => finish b (Ext.len x) (.done l) := by
  unfold instrX
  rw [onLive_next _ h, onLive_next _ h]
  have e : checkWindows ⟨s.dev, s.mem, []⟩ (gs.map BitVec.toNat) (ts.map BitVec.toNat) (fun _ =>
      if (Live.th ⟨s.dev, s.mem, []⟩).p x.pg.toNat != x.pn then
        checkPresent ⟨s.dev, s.mem, []⟩ (gs.map BitVec.toNat) fun _ => body s.boot ⟨s.dev, s.mem, []⟩
      else .done ⟨s.dev, s.mem, []⟩) = .done ⟨s.dev, s.mem, []⟩ := by
    rw [checkWindows_ok (by simpa using hw) (by simpa using ht), if_neg (by unfold Live.th; simpa using hg)]
  simp only [e]

/-- Completion: the PC passes the instruction's words (R70). -/
theorem finish_done (b : Boot) (len : Nat) (l : Live) :
    finish b len (.done l) = l.onTh fun t => { t with pc := t.pc + BitVec.ofNat 64 (4 * len), retries := 0 } := rfl

/-- A taken branch: the PC becomes its target (R149). -/
theorem finish_jump (b : Boot) (len : Nat) (l : Live) (t : Word) : finish b len (.jump l t) = l.onTh fun u => { u with pc := t } := rfl

/-- A park: nothing but the thread's state changes (R70). -/
theorem finish_park (b : Boot) (len : Nat) (l : Live) (p : Park) : finish b len (.park l p) = l.onTh fun t => { t with st := .parked p } := rfl

/-- The checks of a taken branch pass (R62, R149). -/
theorem branchTo_ok {l l' : Live} {t : Word} (h1 : t &&& 0x3F = 0) (h2 : t >>> 48 = 0) : branchTo l l' t = .jump l' t := by
  unfold branchTo; rw [if_neg (by simpa using h1), if_neg (by simpa using h2)]

end Sys2Proof.Machine
end

