-- ==== Sys2Proof/Laws/Words.lean ====
section
/-!
SUPPORT. The first word of an instruction's words: its LEN and MAJ (R49, R50).
-/

namespace Sys2Proof.Laws

open Sys2Proof Sys2Proof.Machine

/-- MAJ of a packed base word. -/
theorem majOf_packBase (lit : Bool) (maj : BitVec 6) (low : BitVec 24) : majOf (packBase lit maj low) = maj := by
  ext i h
  simp only [majOf, fieldOf, packBase, BitVec.getElem_extractLsb', BitVec.getLsbD_append]
  rw [if_neg (by omega), if_pos (by omega)]
  rw [BitVec.getLsbD_eq_getElem (by omega)]; congr 1; omega

/-- LEN of a packed base word. -/
theorem lenOf_packBase (lit : Bool) (maj : BitVec 6) (low : BitVec 24) : lenOf (packBase lit maj low) = if lit then 1 else 0 := by
  ext i h
  have h2 : i = 0 ∨ i = 1 := by omega
  rcases h2 with rfl | rfl <;> cases lit <;> simp only [lenOf, fieldOf, packBase, BitVec.getElem_extractLsb', BitVec.getLsbD_append] <;> simp

/-- MAJ of a packed extended word. -/
theorem majOf_packExt0 (lit : Bool) (maj : BitVec 6) (min : BitVec 10) (x : Ext) : majOf (packExt0 lit maj min x) = maj := by
  ext i h
  simp only [majOf, fieldOf, packExt0, BitVec.getElem_extractLsb', BitVec.getLsbD_append]
  repeat' (split <;> try omega)
  rw [BitVec.getLsbD_eq_getElem (by omega)]; congr 1; omega

/-- LEN of a packed extended word. -/
theorem lenOf_packExt0 (lit : Bool) (maj : BitVec 6) (min : BitVec 10) (x : Ext) : lenOf (packExt0 lit maj min x) = if lit then 3 else 2 := by
  ext i h
  have h2 : i = 0 ∨ i = 1 := by omega
  rcases h2 with rfl | rfl <;> cases lit <;> simp only [lenOf, fieldOf, packExt0, BitVec.getElem_extractLsb', BitVec.getLsbD_append] <;> simp

/-- A first word whose major is not zero is not the zero word. -/
theorem head_of_maj {w : Code} {r : List Code} (hm : majOf w ≠ 0) (hl : lenWrong w = false) (hn : lenWords w = 1 + r.length) :
    ∃ v rest, w :: r = v :: rest ∧ v ≠ 0 ∧ lenWrong v = false ∧ lenWords v = 1 + rest.length :=
  ⟨w, r, rfl, fun h => hm (by rw [h]; rfl), hl, hn⟩

/-- The word of a one-word base form. -/
theorem head_short {maj : BitVec 6} (low : BitVec 24) (h1 : maj ≠ 0) (h : maj.toNat ≤ 0x30) :
    ∃ v rest, short maj low = v :: rest ∧ v ≠ 0 ∧ lenWrong v = false ∧ lenWords v = 1 + rest.length := by
  refine head_of_maj (by rwa [majOf_packBase]) ?_ ?_
  · simp only [lenWrong, majOf_packBase, lenOf_packBase]
    simp; omega
  · simp [lenWords, lenOf_packBase]

/-- The words of a base form with a literal. -/
theorem head_long {maj : BitVec 6} (low : BitVec 24) (l : Word) (h1 : maj ≠ 0) (h : maj.toNat ≤ 0x30) :
    ∃ v rest, long maj low l = v :: rest ∧ v ≠ 0 ∧ lenWrong v = false ∧ lenWords v = 1 + rest.length := by
  refine head_of_maj (by rwa [majOf_packBase]) ?_ ?_
  · simp only [lenWrong, majOf_packBase, lenOf_packBase]
    simp; omega
  · simp [lenWords, lenOf_packBase, litWords]

/-- The words of an extended form. -/
theorem head_ext {maj : BitVec 6} (min : BitVec 10) (x : Ext) (h : 0x31 ≤ maj.toNat) :
    ∃ v rest, packExt maj min x = v :: rest ∧ v ≠ 0 ∧ lenWrong v = false ∧ lenWords v = 1 + rest.length := by
  have hm : maj ≠ 0 := by rintro rfl; simp at h
  unfold packExt
  split
  all_goals
    refine head_of_maj (by rwa [majOf_packExt0]) ?_ ?_
    · simp only [lenWrong, majOf_packExt0, lenOf_packExt0]
      simp; omega
    · simp [lenWords, lenOf_packExt0, litWords]

end Sys2Proof.Laws
end

