-- ==== Sys2Proof/Laws/PerInstr.lean ====
section
/-!
SUPPORT. Of every instruction: its first word is not zero, agrees with its major, and names its length (R49, R50, R77).
-/

namespace Sys2Proof.Laws

open Sys2Proof Sys2Proof.Machine

/-- The first word of an instruction passes check 1 of R63 and says how many words there are; a step of the part has no words. -/
def Head.Statement (i : Instr) : Prop :=
  isEvent i = false → ∃ w rest, encode i = w :: rest ∧ w ≠ 0 ∧ lenWrong w = false ∧ lenWords w = 1 + rest.length

end Sys2Proof.Laws

namespace Sys2Proof.Laws.Head

open Sys2Proof Sys2Proof.Machine

theorem nop : Statement .nop := fun _ => head_short _ (by decide) (by decide)
theorem trap (code : BitVec 16) : Statement (.trap code) := fun _ => head_short _ (by decide) (by decide)
theorem brk (code : BitVec 16) : Statement (.brk code) := fun _ => head_short _ (by decide) (by decide)
theorem addi (d a : BitVec 7) (imm : BitVec 10) : Statement (.addi d a imm) := fun _ => head_short _ (by decide) (by decide)
theorem addiLit (d a : BitVec 7) (lit : Word) : Statement (.addiLit d a lit) := fun _ => head_long _ _ (by decide) (by decide)
theorem andi (d a : BitVec 7) (imm : BitVec 10) : Statement (.andi d a imm) := fun _ => head_short _ (by decide) (by decide)
theorem andiLit (d a : BitVec 7) (lit : Word) : Statement (.andiLit d a lit) := fun _ => head_long _ _ (by decide) (by decide)
theorem ori (d a : BitVec 7) (imm : BitVec 10) : Statement (.ori d a imm) := fun _ => head_short _ (by decide) (by decide)
theorem oriLit (d a : BitVec 7) (lit : Word) : Statement (.oriLit d a lit) := fun _ => head_long _ _ (by decide) (by decide)
theorem xori (d a : BitVec 7) (imm : BitVec 10) : Statement (.xori d a imm) := fun _ => head_short _ (by decide) (by decide)
theorem xoriLit (d a : BitVec 7) (lit : Word) : Statement (.xoriLit d a lit) := fun _ => head_long _ _ (by decide) (by decide)
theorem shli (d a : BitVec 7) (imm : BitVec 10) : Statement (.shli d a imm) := fun _ => head_short _ (by decide) (by decide)
theorem shliLit (d a : BitVec 7) (lit : Word) : Statement (.shliLit d a lit) := fun _ => head_long _ _ (by decide) (by decide)
theorem shri (d a : BitVec 7) (imm : BitVec 10) : Statement (.shri d a imm) := fun _ => head_short _ (by decide) (by decide)
theorem shriLit (d a : BitVec 7) (lit : Word) : Statement (.shriLit d a lit) := fun _ => head_long _ _ (by decide) (by decide)
theorem sari (d a : BitVec 7) (imm : BitVec 10) : Statement (.sari d a imm) := fun _ => head_short _ (by decide) (by decide)
theorem sariLit (d a : BitVec 7) (lit : Word) : Statement (.sariLit d a lit) := fun _ => head_long _ _ (by decide) (by decide)
theorem roti (d a : BitVec 7) (imm : BitVec 10) : Statement (.roti d a imm) := fun _ => head_short _ (by decide) (by decide)
theorem rotiLit (d a : BitVec 7) (lit : Word) : Statement (.rotiLit d a lit) := fun _ => head_long _ _ (by decide) (by decide)
theorem movl (d : BitVec 7) (lit : Word) : Statement (.movl d lit) := fun _ => head_long _ _ (by decide) (by decide)
theorem lea (d a : BitVec 7) (imm : BitVec 10) : Statement (.lea d a imm) := fun _ => head_short _ (by decide) (by decide)
theorem leaLit (d a : BitVec 7) (lit : Word) : Statement (.leaLit d a lit) := fun _ => head_long _ _ (by decide) (by decide)
theorem cmpi (pd : BitVec 3) (cc : BitVec 4) (a : BitVec 7) (imm : BitVec 10) : Statement (.cmpi pd cc a imm) := fun _ => head_short _ (by decide) (by decide)
theorem cmpiLit (pd : BitVec 3) (cc : BitVec 4) (a : BitVec 7) (lit : Word) : Statement (.cmpiLit pd cc a lit) := fun _ => head_long _ _ (by decide) (by decide)
theorem cmp (pd : BitVec 3) (cc : BitVec 4) (a b : BitVec 7) : Statement (.cmp pd cc a b) := fun _ => head_short _ (by decide) (by decide)
theorem add (d a b : BitVec 7) : Statement (.add d a b) := fun _ => head_short _ (by decide) (by decide)
theorem sub (d a b : BitVec 7) : Statement (.sub d a b) := fun _ => head_short _ (by decide) (by decide)
theorem and (d a b : BitVec 7) : Statement (.and d a b) := fun _ => head_short _ (by decide) (by decide)
theorem or (d a b : BitVec 7) : Statement (.or d a b) := fun _ => head_short _ (by decide) (by decide)
theorem xor (d a b : BitVec 7) : Statement (.xor d a b) := fun _ => head_short _ (by decide) (by decide)
theorem andn (d a b : BitVec 7) : Statement (.andn d a b) := fun _ => head_short _ (by decide) (by decide)
theorem min (d a b : BitVec 7) : Statement (.min d a b) := fun _ => head_short _ (by decide) (by decide)
theorem max (d a b : BitVec 7) : Statement (.max d a b) := fun _ => head_short _ (by decide) (by decide)
theorem shl (d a b : BitVec 7) : Statement (.shl d a b) := fun _ => head_short _ (by decide) (by decide)
theorem shr (d a b : BitVec 7) : Statement (.shr d a b) := fun _ => head_short _ (by decide) (by decide)
theorem sar (d a b : BitVec 7) : Statement (.sar d a b) := fun _ => head_short _ (by decide) (by decide)
theorem rot (d a b : BitVec 7) : Statement (.rot d a b) := fun _ => head_short _ (by decide) (by decide)
theorem minn (d a b : BitVec 7) : Statement (.minn d a b) := fun _ => head_short _ (by decide) (by decide)
theorem maxn (d a b : BitVec 7) : Statement (.maxn d a b) := fun _ => head_short _ (by decide) (by decide)
theorem mul (d a b : BitVec 7) : Statement (.mul d a b) := fun _ => head_short _ (by decide) (by decide)
theorem mulh (d a b : BitVec 7) : Statement (.mulh d a b) := fun _ => head_short _ (by decide) (by decide)
theorem mulhn (d a b : BitVec 7) : Statement (.mulhn d a b) := fun _ => head_short _ (by decide) (by decide)
theorem div (d a b : BitVec 7) : Statement (.div d a b) := fun _ => head_short _ (by decide) (by decide)
theorem divn (d a b : BitVec 7) : Statement (.divn d a b) := fun _ => head_short _ (by decide) (by decide)
theorem rem (d a b : BitVec 7) : Statement (.rem d a b) := fun _ => head_short _ (by decide) (by decide)
theorem remn (d a b : BitVec 7) : Statement (.remn d a b) := fun _ => head_short _ (by decide) (by decide)
theorem clz (d a : BitVec 7) : Statement (.clz d a) := fun _ => head_short _ (by decide) (by decide)
theorem ctz (d a : BitVec 7) : Statement (.ctz d a) := fun _ => head_short _ (by decide) (by decide)
theorem popc (d a : BitVec 7) : Statement (.popc d a) := fun _ => head_short _ (by decide) (by decide)
theorem brev (d a : BitVec 7) : Statement (.brev d a) := fun _ => head_short _ (by decide) (by decide)
theorem mov (d a : BitVec 7) : Statement (.mov d a) := fun _ => head_short _ (by decide) (by decide)
theorem pand (d a b : BitVec 7) : Statement (.pand d a b) := fun _ => head_short _ (by decide) (by decide)
theorem por (d a b : BitVec 7) : Statement (.por d a b) := fun _ => head_short _ (by decide) (by decide)
theorem pxor (d a b : BitVec 7) : Statement (.pxor d a b) := fun _ => head_short _ (by decide) (by decide)
theorem pnot (d a : BitVec 7) : Statement (.pnot d a) := fun _ => head_short _ (by decide) (by decide)
theorem sel (d a b : BitVec 7) (n : BitVec 3) : Statement (.sel d a b n) := fun _ => head_short _ (by decide) (by decide)
theorem fcmp (pd : BitVec 3) (cc : BitVec 4) (a b : BitVec 7) (f64 : Bool) : Statement (.fcmp pd cc a b f64) := fun _ => head_short _ (by decide) (by decide)
theorem bri (a : BitVec 7) : Statement (.bri a) := fun _ => head_short _ (by decide) (by decide)
theorem ret (a : BitVec 7) : Statement (.ret a) := fun _ => head_short _ (by decide) (by decide)
theorem br (disp : BitVec 20) : Statement (.br disp) := fun _ => head_short _ (by decide) (by decide)
theorem brLit (lit : Word) : Statement (.brLit lit) := fun _ => head_long _ _ (by decide) (by decide)
theorem brp (pg : BitVec 3) (pn : Bool) (disp : BitVec 20) : Statement (.brp pg pn disp) := fun _ => head_short _ (by decide) (by decide)
theorem brpLit (pg : BitVec 3) (pn : Bool) (lit : Word) : Statement (.brpLit pg pn lit) := fun _ => head_long _ _ (by decide) (by decide)
theorem call (pg : BitVec 3) (pn : Bool) (disp : BitVec 20) : Statement (.call pg pn disp) := fun _ => head_short _ (by decide) (by decide)
theorem callLit (pg : BitVec 3) (pn : Bool) (lit : Word) : Statement (.callLit pg pn lit) := fun _ => head_long _ _ (by decide) (by decide)
theorem loop (cnt : BitVec 3) (disp : BitVec 20) : Statement (.loop cnt disp) := fun _ => head_short _ (by decide) (by decide)
theorem loopLit (cnt : BitVec 3) (lit : Word) : Statement (.loopLit cnt lit) := fun _ => head_long _ _ (by decide) (by decide)
theorem fence : Statement .fence := fun _ => head_short _ (by decide) (by decide)
theorem fenceRed : Statement .fenceRed := fun _ => head_short _ (by decide) (by decide)
theorem exit : Statement .exit := fun _ => head_short _ (by decide) (by decide)
theorem yield : Statement .yield := fun _ => head_short _ (by decide) (by decide)
theorem mfs (d : BitVec 7) (n : BitVec 12) : Statement (.mfs d n) := fun _ => head_short _ (by decide) (by decide)
theorem mts (d : BitVec 7) (n : BitVec 12) : Statement (.mts d n) := fun _ => head_short _ (by decide) (by decide)
theorem ldI8 (d a : BitVec 7) (ord : BitVec 2) (off : BitVec 8) : Statement (.ldI8 d a ord off) := fun _ => head_short _ (by decide) (by decide)
theorem ldI8Lit (d a : BitVec 7) (ord : BitVec 2) (lit : Word) : Statement (.ldI8Lit d a ord lit) := fun _ => head_long _ _ (by decide) (by decide)
theorem ldN8 (d a : BitVec 7) (ord : BitVec 2) (off : BitVec 8) : Statement (.ldN8 d a ord off) := fun _ => head_short _ (by decide) (by decide)
theorem ldN8Lit (d a : BitVec 7) (ord : BitVec 2) (lit : Word) : Statement (.ldN8Lit d a ord lit) := fun _ => head_long _ _ (by decide) (by decide)
theorem ldI16 (d a : BitVec 7) (ord : BitVec 2) (off : BitVec 8) : Statement (.ldI16 d a ord off) := fun _ => head_short _ (by decide) (by decide)
theorem ldI16Lit (d a : BitVec 7) (ord : BitVec 2) (lit : Word) : Statement (.ldI16Lit d a ord lit) := fun _ => head_long _ _ (by decide) (by decide)
theorem ldN16 (d a : BitVec 7) (ord : BitVec 2) (off : BitVec 8) : Statement (.ldN16 d a ord off) := fun _ => head_short _ (by decide) (by decide)
theorem ldN16Lit (d a : BitVec 7) (ord : BitVec 2) (lit : Word) : Statement (.ldN16Lit d a ord lit) := fun _ => head_long _ _ (by decide) (by decide)
theorem ldI32 (d a : BitVec 7) (ord : BitVec 2) (off : BitVec 8) : Statement (.ldI32 d a ord off) := fun _ => head_short _ (by decide) (by decide)
theorem ldI32Lit (d a : BitVec 7) (ord : BitVec 2) (lit : Word) : Statement (.ldI32Lit d a ord lit) := fun _ => head_long _ _ (by decide) (by decide)
theorem ldN32 (d a : BitVec 7) (ord : BitVec 2) (off : BitVec 8) : Statement (.ldN32 d a ord off) := fun _ => head_short _ (by decide) (by decide)
theorem ldN32Lit (d a : BitVec 7) (ord : BitVec 2) (lit : Word) : Statement (.ldN32Lit d a ord lit) := fun _ => head_long _ _ (by decide) (by decide)
theorem ld64 (d a : BitVec 7) (ord : BitVec 2) (off : BitVec 8) : Statement (.ld64 d a ord off) := fun _ => head_short _ (by decide) (by decide)
theorem ld64Lit (d a : BitVec 7) (ord : BitVec 2) (lit : Word) : Statement (.ld64Lit d a ord lit) := fun _ => head_long _ _ (by decide) (by decide)
theorem ld128 (d a : BitVec 7) (ord : BitVec 2) (off : BitVec 8) : Statement (.ld128 d a ord off) := fun _ => head_short _ (by decide) (by decide)
theorem ld128Lit (d a : BitVec 7) (ord : BitVec 2) (lit : Word) : Statement (.ld128Lit d a ord lit) := fun _ => head_long _ _ (by decide) (by decide)
theorem st8 (d a : BitVec 7) (ord : BitVec 2) (off : BitVec 8) : Statement (.st8 d a ord off) := fun _ => head_short _ (by decide) (by decide)
theorem st8Lit (d a : BitVec 7) (ord : BitVec 2) (lit : Word) : Statement (.st8Lit d a ord lit) := fun _ => head_long _ _ (by decide) (by decide)
theorem st16 (d a : BitVec 7) (ord : BitVec 2) (off : BitVec 8) : Statement (.st16 d a ord off) := fun _ => head_short _ (by decide) (by decide)
theorem st16Lit (d a : BitVec 7) (ord : BitVec 2) (lit : Word) : Statement (.st16Lit d a ord lit) := fun _ => head_long _ _ (by decide) (by decide)
theorem st32 (d a : BitVec 7) (ord : BitVec 2) (off : BitVec 8) : Statement (.st32 d a ord off) := fun _ => head_short _ (by decide) (by decide)
theorem st32Lit (d a : BitVec 7) (ord : BitVec 2) (lit : Word) : Statement (.st32Lit d a ord lit) := fun _ => head_long _ _ (by decide) (by decide)
theorem st64 (d a : BitVec 7) (ord : BitVec 2) (off : BitVec 8) : Statement (.st64 d a ord off) := fun _ => head_short _ (by decide) (by decide)
theorem st64Lit (d a : BitVec 7) (ord : BitVec 2) (lit : Word) : Statement (.st64Lit d a ord lit) := fun _ => head_long _ _ (by decide) (by decide)
theorem st128 (d a : BitVec 7) (ord : BitVec 2) (off : BitVec 8) : Statement (.st128 d a ord off) := fun _ => head_short _ (by decide) (by decide)
theorem st128Lit (d a : BitVec 7) (ord : BitVec 2) (lit : Word) : Statement (.st128Lit d a ord lit) := fun _ => head_long _ _ (by decide) (by decide)
theorem movToC (a : BitVec 7) (c : BitVec 4) : Statement (.movToC a c) := fun _ => head_short _ (by decide) (by decide)
theorem movFromC (d : BitVec 7) (c : BitVec 4) : Statement (.movFromC d c) := fun _ => head_short _ (by decide) (by decide)
theorem mtd (t : BitVec 4) (d : BitVec 7) (fld : BitVec 4) (imm : BitVec 9) : Statement (.mtd t d fld imm) := fun _ => head_short _ (by decide) (by decide)
theorem mtdLit (t : BitVec 4) (d : BitVec 7) (fld : BitVec 4) (lit : Word) : Statement (.mtdLit t d fld lit) := fun _ => head_long _ _ (by decide) (by decide)
theorem mfd (t : BitVec 4) (d : BitVec 7) (fld : BitVec 4) : Statement (.mfd t d fld) := fun _ => head_short _ (by decide) (by decide)
theorem tzero (t : BitVec 4) (fld : BitVec 4) : Statement (.tzero t fld) := fun _ => head_short _ (by decide) (by decide)
theorem fadd (x : Ext) : Statement (.fadd x) := fun _ => head_ext _ _ (by decide)
theorem fsub (x : Ext) : Statement (.fsub x) := fun _ => head_ext _ _ (by decide)
theorem fmul (x : Ext) : Statement (.fmul x) := fun _ => head_ext _ _ (by decide)
theorem fdiv (x : Ext) : Statement (.fdiv x) := fun _ => head_ext _ _ (by decide)
theorem fmin (x : Ext) : Statement (.fmin x) := fun _ => head_ext _ _ (by decide)
theorem fmax (x : Ext) : Statement (.fmax x) := fun _ => head_ext _ _ (by decide)
theorem fsqrt (x : Ext) : Statement (.fsqrt x) := fun _ => head_ext _ _ (by decide)
theorem ffma (x : Ext) : Statement (.ffma x) := fun _ => head_ext _ _ (by decide)
theorem fcvt (x : Ext) : Statement (.fcvt x) := fun _ => head_ext _ _ (by decide)
theorem fclass (x : Ext) : Statement (.fclass x) := fun _ => head_ext _ _ (by decide)
theorem ext (x : Ext) : Statement (.ext x) := fun _ => head_ext _ _ (by decide)
theorem extn (x : Ext) : Statement (.extn x) := fun _ => head_ext _ _ (by decide)
theorem ins (x : Ext) : Statement (.ins x) := fun _ => head_ext _ _ (by decide)
theorem ldf (x : Ext) : Statement (.ldf x) := fun _ => head_ext _ _ (by decide)
theorem ldfClr (x : Ext) : Statement (.ldfClr x) := fun _ => head_ext _ _ (by decide)
theorem stf (x : Ext) : Statement (.stf x) := fun _ => head_ext _ _ (by decide)
theorem sts (x : Ext) : Statement (.sts x) := fun _ => head_ext _ _ (by decide)
theorem sete (x : Ext) : Statement (.sete x) := fun _ => head_ext _ _ (by decide)
theorem setf (x : Ext) : Statement (.setf x) := fun _ => head_ext _ _ (by decide)
theorem feq (x : Ext) : Statement (.feq x) := fun _ => head_ext _ _ (by decide)
theorem roinv (x : Ext) : Statement (.roinv x) := fun _ => head_ext _ _ (by decide)
theorem aadd (x : Ext) : Statement (.aadd x) := fun _ => head_ext _ _ (by decide)
theorem aand (x : Ext) : Statement (.aand x) := fun _ => head_ext _ _ (by decide)
theorem aor (x : Ext) : Statement (.aor x) := fun _ => head_ext _ _ (by decide)
theorem axor (x : Ext) : Statement (.axor x) := fun _ => head_ext _ _ (by decide)
theorem amin (x : Ext) : Statement (.amin x) := fun _ => head_ext _ _ (by decide)
theorem amax (x : Ext) : Statement (.amax x) := fun _ => head_ext _ _ (by decide)
theorem aminn (x : Ext) : Statement (.aminn x) := fun _ => head_ext _ _ (by decide)
theorem amaxn (x : Ext) : Statement (.amaxn x) := fun _ => head_ext _ _ (by decide)
theorem axchg (x : Ext) : Statement (.axchg x) := fun _ => head_ext _ _ (by decide)
theorem acas (x : Ext) : Statement (.acas x) := fun _ => head_ext _ _ (by decide)
theorem afadd (x : Ext) : Statement (.afadd x) := fun _ => head_ext _ _ (by decide)
theorem redadd (x : Ext) : Statement (.redadd x) := fun _ => head_ext _ _ (by decide)
theorem redmin (x : Ext) : Statement (.redmin x) := fun _ => head_ext _ _ (by decide)
theorem redmax (x : Ext) : Statement (.redmax x) := fun _ => head_ext _ _ (by decide)
theorem redand (x : Ext) : Statement (.redand x) := fun _ => head_ext _ _ (by decide)
theorem redor (x : Ext) : Statement (.redor x) := fun _ => head_ext _ _ (by decide)
theorem redxor (x : Ext) : Statement (.redxor x) := fun _ => head_ext _ _ (by decide)
theorem redfadd (x : Ext) : Statement (.redfadd x) := fun _ => head_ext _ _ (by decide)
theorem spawn (x : Ext) : Statement (.spawn x) := fun _ => head_ext _ _ (by decide)
theorem migrate (x : Ext) : Statement (.migrate x) := fun _ => head_ext _ _ (by decide)
theorem rput (x : Ext) : Statement (.rput x) := fun _ => head_ext _ _ (by decide)
theorem tld (x : Ext) : Statement (.tld x) := fun _ => head_ext _ _ (by decide)
theorem tldv (x : Ext) : Statement (.tldv x) := fun _ => head_ext _ _ (by decide)
theorem tst (x : Ext) : Statement (.tst x) := fun _ => head_ext _ _ (by decide)
theorem tstAon (x : Ext) : Statement (.tstAon x) := fun _ => head_ext _ _ (by decide)
theorem tmov (x : Ext) : Statement (.tmov x) := fun _ => head_ext _ _ (by decide)
theorem ttr (x : Ext) : Statement (.ttr x) := fun _ => head_ext _ _ (by decide)
theorem vadd (x : Ext) : Statement (.vadd x) := fun _ => head_ext _ _ (by decide)
theorem vsub (x : Ext) : Statement (.vsub x) := fun _ => head_ext _ _ (by decide)
theorem vmul (x : Ext) : Statement (.vmul x) := fun _ => head_ext _ _ (by decide)
theorem vmin (x : Ext) : Statement (.vmin x) := fun _ => head_ext _ _ (by decide)
theorem vmax (x : Ext) : Statement (.vmax x) := fun _ => head_ext _ _ (by decide)
theorem vfma (x : Ext) : Statement (.vfma x) := fun _ => head_ext _ _ (by decide)
theorem vabs (x : Ext) : Statement (.vabs x) := fun _ => head_ext _ _ (by decide)
theorem vneg (x : Ext) : Statement (.vneg x) := fun _ => head_ext _ _ (by decide)
theorem vand (x : Ext) : Statement (.vand x) := fun _ => head_ext _ _ (by decide)
theorem vor (x : Ext) : Statement (.vor x) := fun _ => head_ext _ _ (by decide)
theorem vxor (x : Ext) : Statement (.vxor x) := fun _ => head_ext _ _ (by decide)
theorem vshl (x : Ext) : Statement (.vshl x) := fun _ => head_ext _ _ (by decide)
theorem vshr (x : Ext) : Statement (.vshr x) := fun _ => head_ext _ _ (by decide)
theorem vcmp (x : Ext) : Statement (.vcmp x) := fun _ => head_ext _ _ (by decide)
theorem vsel (x : Ext) : Statement (.vsel x) := fun _ => head_ext _ _ (by decide)
theorem vcvt (x : Ext) : Statement (.vcvt x) := fun _ => head_ext _ _ (by decide)
theorem vqnt (x : Ext) : Statement (.vqnt x) := fun _ => head_ext _ _ (by decide)
theorem vdq (x : Ext) : Statement (.vdq x) := fun _ => head_ext _ _ (by decide)
theorem vexp2 (x : Ext) : Statement (.vexp2 x) := fun _ => head_ext _ _ (by decide)
theorem vlog2 (x : Ext) : Statement (.vlog2 x) := fun _ => head_ext _ _ (by decide)
theorem vrcp (x : Ext) : Statement (.vrcp x) := fun _ => head_ext _ _ (by decide)
theorem vrsq (x : Ext) : Statement (.vrsq x) := fun _ => head_ext _ _ (by decide)
theorem vredsum (x : Ext) : Statement (.vredsum x) := fun _ => head_ext _ _ (by decide)
theorem vredmax (x : Ext) : Statement (.vredmax x) := fun _ => head_ext _ _ (by decide)
theorem vredmin (x : Ext) : Statement (.vredmin x) := fun _ => head_ext _ _ (by decide)
theorem vbcst (x : Ext) : Statement (.vbcst x) := fun _ => head_ext _ _ (by decide)
theorem vperm (x : Ext) : Statement (.vperm x) := fun _ => head_ext _ _ (by decide)
theorem vgather (x : Ext) : Statement (.vgather x) := fun _ => head_ext _ _ (by decide)
theorem vscan (x : Ext) : Statement (.vscan x) := fun _ => head_ext _ _ (by decide)
theorem mgang (x : Ext) : Statement (.mgang x) := fun _ => head_ext _ _ (by decide)
theorem mleave (x : Ext) : Statement (.mleave x) := fun _ => head_ext _ _ (by decide)
theorem wld (x : Ext) : Statement (.wld x) := fun _ => head_ext _ _ (by decide)
theorem wswap (x : Ext) : Statement (.wswap x) := fun _ => head_ext _ _ (by decide)
theorem mma (x : Ext) : Statement (.mma x) := fun _ => head_ext _ _ (by decide)
theorem mdrain (x : Ext) : Statement (.mdrain x) := fun _ => head_ext _ _ (by decide)
theorem mzero (x : Ext) : Statement (.mzero x) := fun _ => head_ext _ _ (by decide)
theorem mstat (x : Ext) : Statement (.mstat x) := fun _ => head_ext _ _ (by decide)
theorem wpush (x : Ext) : Statement (.wpush x) := fun _ => head_ext _ _ (by decide)
theorem wpop (x : Ext) : Statement (.wpop x) := fun _ => head_ext _ _ (by decide)
theorem wlen (x : Ext) : Statement (.wlen x) := fun _ => head_ext _ _ (by decide)
theorem balcfg (x : Ext) : Statement (.balcfg x) := fun _ => head_ext _ _ (by decide)
theorem phnew (x : Ext) : Statement (.phnew x) := fun _ => head_ext _ _ (by decide)
theorem phreg (x : Ext) : Statement (.phreg x) := fun _ => head_ext _ _ (by decide)
theorem phdrop (x : Ext) : Statement (.phdrop x) := fun _ => head_ext _ _ (by decide)
theorem phsig (x : Ext) : Statement (.phsig x) := fun _ => head_ext _ _ (by decide)
theorem phwait (x : Ext) : Statement (.phwait x) := fun _ => head_ext _ _ (by decide)
theorem phnext (x : Ext) : Statement (.phnext x) := fun _ => head_ext _ _ (by decide)
theorem phfree (x : Ext) : Statement (.phfree x) := fun _ => head_ext _ _ (by decide)
theorem phq (x : Ext) : Statement (.phq x) := fun _ => head_ext _ _ (by decide)
theorem copen (x : Ext) : Statement (.copen x) := fun _ => head_ext _ _ (by decide)
theorem cresize (x : Ext) : Statement (.cresize x) := fun _ => head_ext _ _ (by decide)
theorem cclose (x : Ext) : Statement (.cclose x) := fun _ => head_ext _ _ (by decide)
theorem cquery (x : Ext) : Statement (.cquery x) := fun _ => head_ext _ _ (by decide)
theorem cpy (x : Ext) : Statement (.cpy x) := fun _ => head_ext _ _ (by decide)
theorem cpyg (x : Ext) : Statement (.cpyg x) := fun _ => head_ext _ _ (by decide)
theorem cpys (x : Ext) : Statement (.cpys x) := fun _ => head_ext _ _ (by decide)
theorem cpyc (x : Ext) : Statement (.cpyc x) := fun _ => head_ext _ _ (by decide)
theorem cpyn (x : Ext) : Statement (.cpyn x) := fun _ => head_ext _ _ (by decide)
theorem coll (x : Ext) : Statement (.coll x) := fun _ => head_ext _ _ (by decide)
theorem qfence (x : Ext) : Statement (.qfence x) := fun _ => head_ext _ _ (by decide)
theorem jwait (x : Ext) : Statement (.jwait x) := fun _ => head_ext _ _ (by decide)
theorem jpoll (x : Ext) : Statement (.jpoll x) := fun _ => head_ext _ _ (by decide)
theorem jcancel (x : Ext) : Statement (.jcancel x) := fun _ => head_ext _ _ (by decide)
theorem wlds (x : Ext) : Statement (.wlds x) := fun _ => head_ext _ _ (by decide)
theorem srq (x : Ext) : Statement (.srq x) := fun _ => head_ext _ _ (by decide)
theorem name (x : Ext) : Statement (.name x) := fun _ => head_ext _ _ (by decide)
theorem nld (x : Ext) : Statement (.nld x) := fun _ => head_ext _ _ (by decide)
theorem nref (x : Ext) : Statement (.nref x) := fun _ => head_ext _ _ (by decide)
theorem nrel (x : Ext) : Statement (.nrel x) := fun _ => head_ext _ _ (by decide)
theorem nswap (x : Ext) : Statement (.nswap x) := fun _ => head_ext _ _ (by decide)
theorem nroot (x : Ext) : Statement (.nroot x) := fun _ => head_ext _ _ (by decide)
theorem nstat (x : Ext) : Statement (.nstat x) := fun _ => head_ext _ _ (by decide)
theorem tlbw (x : Ext) : Statement (.tlbw x) := fun _ => head_ext _ _ (by decide)
theorem tlbi (x : Ext) : Statement (.tlbi x) := fun _ => head_ext _ _ (by decide)
theorem tlbp (x : Ext) : Statement (.tlbp x) := fun _ => head_ext _ _ (by decide)
theorem walkret (x : Ext) : Statement (.walkret x) := fun _ => head_ext _ _ (by decide)
theorem threadWake (tid : Nat) : Statement (.threadWake tid) := nofun
theorem yieldHoldEnd (tid : Nat) : Statement (.yieldHoldEnd tid) := nofun
theorem setptWrite (cluster : Nat) (v : Word) : Statement (.setptWrite cluster v) := nofun
theorem setptChangeDone (cluster : Nat) : Statement (.setptChangeDone cluster) := nofun
theorem supplyDroop (cluster freq : Nat) (under : Bool) : Statement (.supplyDroop cluster freq under) := nofun
theorem coldBoot (b : BootArgs) : Statement (.coldBoot b) := nofun
theorem fwrldWrite (v : Word) : Statement (.fwrldWrite v) := nofun
theorem imageVerifyDone (ok : Bool) (b : BootArgs) : Statement (.imageVerifyDone ok b) := nofun
theorem flitArrival (flit : Nat) (bad : Bool) : Statement (.flitArrival flit bad) := nofun
theorem circuitInject (cnum : Nat) (rev : Bool) (n : Nat) : Statement (.circuitInject cnum rev n) := nofun
theorem configFlitReceive (msg : Nat) : Statement (.configFlitReceive msg) := nofun
theorem configFlitForward (msg : Nat) : Statement (.configFlitForward msg) := nofun
theorem configAckReceive (msg : Nat) : Statement (.configAckReceive msg) := nofun
theorem commitReceive (msg : Nat) : Statement (.commitReceive msg) := nofun
theorem switchTurn (turn : Nat) : Statement (.switchTurn turn) := nofun
theorem injectStop (cnum : Nat) : Statement (.injectStop cnum) := nofun
theorem relayFlitSend (node dir ctx : Nat) : Statement (.relayFlitSend node dir ctx) := nofun
theorem creditReturnSend (node dir ctx : Nat) : Statement (.creditReturnSend node dir ctx) := nofun
theorem creditReturnReceive (node dir ctx : Nat) : Statement (.creditReturnReceive node dir ctx) := nofun
theorem relayMessageAccept (msg : Nat) : Statement (.relayMessageAccept msg) := nofun
theorem relayPlaceRequest (ctx : Nat) (ask : PlaceAsk) : Statement (.relayPlaceRequest ctx ask) := nofun
theorem homeRequestArrive (req part : Nat) (macFail : Bool) : Statement (.homeRequestArrive req part macFail) := nofun
theorem granuleWake (tid : Nat) : Statement (.granuleWake tid) := nofun
theorem granuleRetryTimeout (tid : Nat) : Statement (.granuleRetryTimeout tid) := nofun
theorem dramRequestArrive (req part : Nat) : Statement (.dramRequestArrive req part) := nofun
theorem hbmAccessWindow (pc win : Nat) (macFail : Bool) : Statement (.hbmAccessWindow pc win macFail) := nofun
theorem hbmRefresh (pc : Nat) : Statement (.hbmRefresh pc) := nofun
theorem lpddrServe (ch : Nat) (macFail : Bool) : Statement (.lpddrServe ch macFail) := nofun
theorem hbmrateRequest (v : Word) : Statement (.hbmrateRequest v) := nofun
theorem hbmRateStallBegin : Statement .hbmRateStallBegin := nofun
theorem hbmRateSwitchDone : Statement .hbmRateSwitchDone := nofun
theorem ptpExchange (port : Nat) (skew : BitVec 16) : Statement (.ptpExchange port skew) := nofun
theorem remoteReplyArrive (req : Nat) : Statement (.remoteReplyArrive req) := nofun
theorem storeAckArrive (req : Nat) : Statement (.storeAckArrive req) := nofun
theorem redAckArrive (reqs : List Nat) : Statement (.redAckArrive reqs) := nofun
theorem relayFailureReport (req : Nat) (lost : Bool) : Statement (.relayFailureReport req lost) := nofun
theorem rputDeliver (req : Nat) : Statement (.rputDeliver req) := nofun
theorem migrationPlace (req : Nat) : Statement (.migrationPlace req) := nofun
theorem migrationFlitLand (req : Nat) : Statement (.migrationFlitLand req) := nofun
theorem migrationAccept (req : Nat) : Statement (.migrationAccept req) := nofun
theorem spawnRemoteCreate (req : Nat) : Statement (.spawnRemoteCreate req) := nofun
theorem spawnReply (req : Nat) : Statement (.spawnReply req) := nofun
theorem joinMessage (req : Nat) : Statement (.joinMessage req) := nofun
theorem gangBarrierRelease (head : Nat) : Statement (.gangBarrierRelease head) := nofun
theorem mgangTimeout (head : Nat) : Statement (.mgangTimeout head) := nofun
theorem mmaBegin (head : Nat) : Statement (.mmaBegin head) := nofun
theorem mmaComplete (head : Nat) : Statement (.mmaComplete head) := nofun
theorem wldReadsDone (core : Nat) : Statement (.wldReadsDone core) := nofun
theorem weightChunkVerify (core : Nat) : Statement (.weightChunkVerify core) := nofun
theorem tldvRetry (req : Nat) : Statement (.tldvRetry req) := nofun
theorem balanceInstant (cluster ctx knum : Nat) : Statement (.balanceInstant cluster ctx knum) := nofun
theorem balanceInsert (cluster : Nat) : Statement (.balanceInsert cluster) := nofun
theorem coreRelease (ctx knum lc : Nat) : Statement (.coreRelease ctx knum lc) := nofun
theorem phaserRequest (req : Nat) : Statement (.phaserRequest req) := nofun
theorem phaserReply (req : Nat) : Statement (.phaserReply req) := nofun
theorem phaserRetryTimeout (tid : Nat) : Statement (.phaserRetryTimeout tid) := nofun
theorem cmRequest (req : Nat) : Statement (.cmRequest req) := nofun
theorem cmPeerRequest (p : PeerRequest) : Statement (.cmPeerRequest p) := nofun
theorem cmPeerTimeout (cnum : Nat) : Statement (.cmPeerTimeout cnum) := nofun
theorem circuitAnswer (req : Nat) : Statement (.circuitAnswer req) := nofun
theorem linkFail (node port cause : Nat) : Statement (.linkFail node port cause) := nofun
theorem routeRecompute : Statement .routeRecompute := nofun
theorem jobBegin (job : Nat) : Statement (.jobBegin job) := nofun
theorem jobItemStart (job item : Nat) : Statement (.jobItemStart job item) := nofun
theorem jobUnstall (job : Nat) (present : Bool) : Statement (.jobUnstall job present) := nofun
theorem jobItemDone (job item : Nat) : Statement (.jobItemDone job item) := nofun
theorem collEnqueueAccept (req : Nat) : Statement (.collEnqueueAccept req) := nofun
theorem ringFlitArrive (f : RingFlit) : Statement (.ringFlitArrive f) := nofun
theorem collTimeout (job : Nat) : Statement (.collTimeout job) := nofun
theorem streamDescriptor (req : Nat) : Statement (.streamDescriptor req) := nofun
theorem streamFlitArrive (cluster cnum : Nat) : Statement (.streamFlitArrive cluster cnum) := nofun
theorem rowAck (job count : Nat) : Statement (.rowAck job count) := nofun
theorem engineWatchdog (job item : Nat) : Statement (.engineWatchdog job item) := nofun
theorem launch (q : Nat) : Statement (.launch q) := nofun
theorem thresume (q : Nat) : Statement (.thresume q) := nofun
theorem thend (q : Nat) : Statement (.thend q) := nofun
theorem kend (q : Nat) : Statement (.kend q) := nofun
theorem doorbellWrite (q : Nat) (v : BitVec 32) : Statement (.doorbellWrite q v) := nofun
theorem queueScan : Statement .queueScan := nofun
theorem heapBind : Statement .heapBind := nofun
theorem bindRecord : Statement .bindRecord := nofun
theorem preemptRequest (ctx knum : Nat) : Statement (.preemptRequest ctx knum) := nofun
theorem coreSave (ctx knum lc : Nat) : Statement (.coreSave ctx knum lc) := nofun
theorem kernelSaved (ctx knum : Nat) : Statement (.kernelSaved ctx knum) := nofun
theorem kernelRetire (ctx knum : Nat) : Statement (.kernelRetire ctx knum) := nofun
theorem retireReport : Statement .retireReport := nofun
theorem schedHeartbeatTimeout : Statement .schedHeartbeatTimeout := nofun
theorem schedImemError : Statement .schedImemError := nofun
theorem standbyReady : Statement .standbyReady := nofun
theorem progressCheck : Statement .progressCheck := nofun
theorem borderMove (cluster : Nat) : Statement (.borderMove cluster) := nofun
theorem create (ctx owner : Nat) (prot : Bool) (spill ptroot : Word) (pages : List Page) : Statement (.create ctx owner prot spill ptroot pages) := nofun
theorem attach (ctx cluster : Nat) (mask : BitVec 8) (base size : Nat) : Statement (.attach ctx cluster mask base size) := nofun
theorem epset (ctx cluster ep : Nat) (entry : Word) : Statement (.epset ctx cluster ep entry) := nofun
theorem activate (ctx : Nat) : Statement (.activate ctx) := nofun
theorem rekey (ctx slot : Nat) (key : BitVec 256) : Statement (.rekey ctx slot key) := nofun
theorem efwd (ctx : Nat) (on : Bool) : Statement (.efwd ctx on) := nofun
theorem destroy (ctx : Nat) : Statement (.destroy ctx) := nofun
theorem resume (ctx : Nat) : Statement (.resume ctx) := nofun
theorem keyload (ctx slot : Nat) (key : BitVec 256) (adom : Nat) : Statement (.keyload ctx slot key adom) := nofun
theorem lend (cluster borrower : Nat) : Statement (.lend cluster borrower) := nofun
theorem recallCluster (cluster : Nat) : Statement (.recallCluster cluster) := nofun
theorem snap (owner : Nat) (nonce : BitVec 128) : Statement (.snap owner nonce) := nofun
theorem rekeySwap (ctx : Nat) : Statement (.rekeySwap ctx) := nofun
theorem rekeyAbandon (ctx : Nat) : Statement (.rekeyAbandon ctx) := nofun
theorem fabricRekeyAuto (ctx : Nat) : Statement (.fabricRekeyAuto ctx) := nofun
theorem contextPoison (ctx : Nat) : Statement (.contextPoison ctx) := nofun
theorem hotReset : Statement .hotReset := nofun
theorem suspendExpire (ctx : Nat) : Statement (.suspendExpire ctx) := nofun
theorem hostLinkDown : Statement .hostLinkDown := nofun
theorem hostLinkUp : Statement .hostLinkUp := nofun
theorem scrubStart (ctx : Nat) : Statement (.scrubStart ctx) := nofun
theorem scrubDone (ctx : Nat) : Statement (.scrubDone ctx) := nofun
theorem dieLoss (die : Nat) : Statement (.dieLoss die) := nofun
theorem machineCheck (m : MachineCheck) : Statement (.machineCheck m) := nofun
theorem atticNameRequest (req : Nat) : Statement (.atticNameRequest req) := nofun
theorem atticChildReply (req : Nat) : Statement (.atticChildReply req) := nofun
theorem atticRefRequest (req : Nat) : Statement (.atticRefRequest req) := nofun
theorem atticRelRequest (req : Nat) : Statement (.atticRelRequest req) := nofun
theorem atticNldRequest (req : Nat) : Statement (.atticNldRequest req) := nofun
theorem atticStatRequest (req : Nat) : Statement (.atticStatRequest req) := nofun
theorem atticLeafRead (req : Nat) : Statement (.atticLeafRead req) := nofun
theorem atticReclaim (stack entry : Nat) : Statement (.atticReclaim stack entry) := nofun
theorem atticReply (req : Nat) : Statement (.atticReply req) := nofun
theorem walkerMissArrive (core : Nat) : Statement (.walkerMissArrive core) := nofun
theorem missDeferExpire (core miss : Nat) : Statement (.missDeferExpire core miss) := nofun
theorem walkerOverdue (core miss : Nat) : Statement (.walkerOverdue core miss) := nofun
theorem tlbiRemote (req cluster : Nat) : Statement (.tlbiRemote req cluster) := nofun
theorem pageFillDone (ctx : Nat) (va pte : Word) : Statement (.pageFillDone ctx va pte) := nofun
theorem pageFillTimeout (ctx : Nat) (va : Word) : Statement (.pageFillTimeout ctx va) := nofun
theorem pageMigrationDone (ctx : Nat) (va pte : Word) : Statement (.pageMigrationDone ctx va pte) := nofun
theorem remapTableError (pc : Nat) : Statement (.remapTableError pc) := nofun
theorem pseudoChannelUnfence (pc : Nat) : Statement (.pseudoChannelUnfence pc) := nofun
theorem laneErrorThreshold (link lane : Nat) : Statement (.laneErrorThreshold link lane) := nofun
theorem laneRepairApply (link : Nat) : Statement (.laneRepairApply link) := nofun
theorem trecoRetrain (port : Nat) : Statement (.trecoRetrain port) := nofun
theorem trecoTrained (port : Nat) (lanesUp descOk : Bool) (peerPkg peerPort : Nat) : Statement (.trecoTrained port lanesUp descOk peerPkg peerPort) := nofun
theorem trecoAlign (port : Nat) (skewMax : BitVec 16) (peerPlane peerGuard : Nat) : Statement (.trecoAlign port skewMax peerPlane peerGuard) := nofun
theorem trecoLaneFail (port : Nat) : Statement (.trecoLaneFail port) := nofun
theorem ueTransportFail (cnum : Nat) : Statement (.ueTransportFail cnum) := nofun
theorem uePortDown (q : Nat) : Statement (.uePortDown q) := nofun
theorem ideIntegrityFail : Statement .ideIntegrityFail := nofun
theorem ideKeyProgram : Statement .ideKeyProgram := nofun
theorem lpddrFence (ch : Nat) : Statement (.lpddrFence ch) := nofun
theorem eyeSample (n h v : Nat) : Statement (.eyeSample n h v) := nofun
theorem eyeMonitorWrite (n : Nat) (v : Word) : Statement (.eyeMonitorWrite n v) := nofun
theorem rtrstatWrite (node : Nat) (v : Word) : Statement (.rtrstatWrite node v) := nofun
theorem lnkstatWrite (link : Nat) (v : Word) : Statement (.lnkstatWrite link v) := nofun
theorem uestatWrite (q : Nat) (v : Word) : Statement (.uestatWrite q v) := nofun
theorem lpstatWrite (ch : Nat) (v : Word) : Statement (.lpstatWrite ch v) := nofun
theorem trkwhlWrite (port : Nat) (v : Word) : Statement (.trkwhlWrite port v) := nofun
theorem qcfgWrite (q : Nat) (v : Word) : Statement (.qcfgWrite q v) := nofun
theorem fqcfgWrite (ctx : Nat) (v : Word) : Statement (.fqcfgWrite ctx v) := nofun
theorem owncfgWrite (owner : Nat) (v : Word) : Statement (.owncfgWrite owner v) := nofun
theorem registerWrite (addr v : Word) : Statement (.registerWrite addr v) := nofun
theorem faultRecordWrite (ctx : Nat) : Statement (.faultRecordWrite ctx) := nofun
theorem takeOverEnd : Statement .takeOverEnd := nofun
theorem ieee1588Lost (port : Nat) : Statement (.ieee1588Lost port) := nofun
theorem uePortUp (q : Nat) : Statement (.uePortUp q) := nofun
theorem debugSessionOpen : Statement .debugSessionOpen := nofun
theorem debugRead (target : DebugTarget) : Statement (.debugRead target) := nofun
theorem spdmRequest (session : Nat) (ask : SpdmAsk) : Statement (.spdmRequest session ask) := nofun
theorem serviceCoreWatchdog (unit : Nat) : Statement (.serviceCoreWatchdog unit) := nofun
theorem fabricReferenceLost : Statement .fabricReferenceLost := nofun
theorem thermalShutdown : Statement .thermalShutdown := nofun
theorem adomcfg (adom : Nat) (dk : Option (BitVec 256)) (lines : List AtticPool) : Statement (.adomcfg adom dk lines) := nofun

end Sys2Proof.Laws.Head
end

