-- ==== Sys2Proof/Tests/Slice0.lean ====
section
/-!
SUPPORT. Tests: words of every family written out from the spec's encodings; ill-formed terms that WellFormed refuses; and, for every
statement, small states that meet its hypotheses, with the result that the spec gives there worked out by hand.
-/

set_option Elab.async false

namespace Sys2Proof.Tests

open Sys2Proof Sys2Proof.Machine Sys2Proof.Say

/-- A whole package with a wheel of 8 slots. -/
def boot0 : Boot :=
  { capdie := 0xFFF, capclu0 := BitVec.allOnes 64, capclu1 := BitVec.allOnes 64, capclu2 := BitVec.allOnes 64, capstk := 0xFFF,
    caplnk := BitVec.allOnes 64, caplpc0 := BitVec.allOnes 64, caplpc1 := BitVec.allOnes 64, status := 1, whldesc := 0x8000000802008003 }

/-- A READY thread of context 5 with 32 registers and 8 tile registers. -/
def th0 : Thread :=
  { st := .ready, wbase := 0, wsize := 32, tbase := 0, tsize := 8, pc := 0x1000, ctx := 5, knum := 1, k0 := BitVec.allOnes 128, k1 := 0x55,
    ncore := 1 }

/-- The cells of bytes from an address. -/
def cellsOf (pa : Nat) (bs : List Nat) : List Host.Cell :=
  (bs.zip (List.range bs.length)).filterMap fun p => if p.1 % 256 = 0 then none else some (pa + p.2, BitVec.ofNat 8 p.1)

/-- That thread in slot 0 of core 0, with these registers. -/
def w (regs : List (Nat × Word)) : State :=
  { boot := boot0, mem := {}, dev := { threads := [(0, th0)], regs, cores := [(0, { cmwin := 0x40 })] }, agenda := [], core := 0 }

/-- An extended form with every field zero. -/
def x0 : Ext :=
  { pg := 0, pn := false, d := 0, a := 0, b := 0, c := 0, dfmt := 0, sfmt := 0, rm := 0, men := false, km := 0, sat := false, row0 := 0, rcnt := 0,
    imm := 0, lit := none }

/-- The next state, where there is one. -/
def nx (o : Host.Outcome State Fault Refusal) : State :=
  match o with
  | .next t => t
  | _ => State.reset

/-- An instruction answers this state. -/
def goes (i : Instr) (s t : State) : Bool :=
  match exec i s with
  | .next u => u == t
  | _ => false

/-- It answers a state. -/
def runs (i : Instr) (s : State) : Bool :=
  match exec i s with
  | .next _ => true
  | _ => false

/-- An instruction traps with this cause and DETAIL, and leaves PC, registers and memory as they were. -/
def trapIs (s : State) (i : Instr) (cause detail : Nat) : Bool :=
  let t := nx (exec i s)
  runs i s && (thr t).faultInfo == BitVec.ofNat 64 (detail * 65536 + cause) && (thr t).pc == (thr s).pc && t.dev.regs == s.dev.regs && t.mem == s.mem &&
    ((thr t).st == .trapped || (thr t).st == .halted true)

/-- A state with its part changed. -/
def dv (s : State) (f : Dev → Dev) : State := { s with dev := f s.dev }

/-- Registers 1 and 2 hold −1 and 5 (R134). -/
theorem test_add_wraps : Ready (w [(1, -1), (2, 5)]) [3, 1, 2] ∧ goes (.add 3 1 2) (w [(1, -1), (2, 5)]) (wrote (w [(1, -1), (2, 5)]) 1 3 4) = true := by
  decide +kernel
/-- A write to g0 is discarded (R56). -/
theorem test_add_g0 : goes (.add 0 1 2) (w [(1, -1), (2, 5)]) (passed 1 (w [(1, -1), (2, 5)])) = true := by decide +kernel
theorem test_sub_borrows : goes (.sub 3 2 1) (w [(1, -1), (2, 5)]) (wrote (w [(1, -1), (2, 5)]) 1 3 6) = true := by decide +kernel
theorem test_sar_floors : goes (.sar 3 1 2) (w [(1, -7), (2, 65)]) (wrote (w [(1, -7), (2, 65)]) 1 3 (-4)) = true := by decide +kernel
theorem test_rot_by_0 : goes (.rot 3 1 2) (w [(1, -7), (2, 64)]) (wrote (w [(1, -7), (2, 64)]) 1 3 (-7)) = true := by decide +kernel
theorem test_min_signed : goes (.min 3 1 2) (w [(1, -7), (2, 64)]) (wrote (w [(1, -7), (2, 64)]) 1 3 (-7)) = true ∧
    goes (.minn 3 1 2) (w [(1, -7), (2, 64)]) (wrote (w [(1, -7), (2, 64)]) 1 3 64) = true := by decide +kernel
/-- −7 by 2: quotient −3, remainder −1 (R138); −2⁶³ by −1 gives −2⁶³ and 0. -/
theorem test_div_truncates : Ready (w [(1, -7), (2, 2)]) [3, 1, 2] ∧ reg (w [(1, -7), (2, 2)]) 2 ≠ 0 ∧
    goes (.div 3 1 2) (w [(1, -7), (2, 2)]) (wrote (w [(1, -7), (2, 2)]) 1 3 (-3)) = true ∧
    goes (.rem 3 1 2) (w [(1, -7), (2, 2)]) (wrote (w [(1, -7), (2, 2)]) 1 3 (-1)) = true ∧
    goes (.div 3 1 2) (w [(1, 0x8000000000000000), (2, -1)]) (wrote (w [(1, 0x8000000000000000), (2, -1)]) 1 3 0x8000000000000000) = true ∧
    goes (.rem 3 1 2) (w [(1, 0x8000000000000000), (2, -1)]) (wrote (w [(1, 0x8000000000000000), (2, -1)]) 1 3 0) = true := by decide +kernel
theorem test_div_by_zero : Ready (w [(1, 7)]) [3, 1, 2] ∧ Alone (w [(1, 7)]) ∧ trapIs (w [(1, 7)]) (.divn 3 1 2) 0x20 0 = true := by decide +kernel
theorem test_mulh_signs : goes (.mulh 3 1 2) (w [(1, -1), (2, 2)]) (wrote (w [(1, -1), (2, 2)]) 1 3 (-1)) = true ∧
    goes (.mulhn 3 1 2) (w [(1, -1), (2, 2)]) (wrote (w [(1, -1), (2, 2)]) 1 3 1) = true := by decide +kernel
theorem test_word_rem : encode (.rem 3 2 1) = [0x1206080D] := by decide
theorem test_immediates : Ready (w [(1, 9)]) [3, 1] ∧ goes (.addi 3 1 (-2)) (w [(1, 9)]) (wrote (w [(1, 9)]) 1 3 7) = true ∧
    goes (.shliLit 3 1 65) (w [(1, 9)]) (wrote (w [(1, 9)]) 3 3 18) = true ∧ goes (.lea 3 1 4) (w [(1, 9)]) (wrote (w [(1, 9)]) 1 3 0x100D) = true ∧
    goes (.movl 3 77) (w []) (wrote (w []) 3 3 77) = true := by decide +kernel
theorem test_bit_counts : Ready (w [(1, 0xF0)]) [3, 1] ∧ goes (.clz 3 1) (w [(1, 0xF0)]) (wrote (w [(1, 0xF0)]) 1 3 56) = true ∧
    goes (.ctz 3 1) (w [(1, 0xF0)]) (wrote (w [(1, 0xF0)]) 1 3 4) = true ∧ goes (.popc 3 1) (w [(1, 0xF0)]) (wrote (w [(1, 0xF0)]) 1 3 4) = true ∧
    goes (.brev 3 1) (w [(1, 0xF0)]) (wrote (w [(1, 0xF0)]) 1 3 0x0F00000000000000) = true ∧ goes (.ctz 3 2) (w []) (wrote (w []) 1 3 64) = true := by decide +kernel
/-- A field of 8 bits from bit 4 (R140). -/
theorem test_bit_field : ReadyX (w [(1, 0x8F0), (3, -1)]) { x0 with d := 3, a := 1, imm := 0x204 } [3, 1] [] ∧ bitFieldOk 0x204 = true ∧
    goes (.ext { x0 with d := 3, a := 1, imm := 0x204 }) (w [(1, 0x8F0), (3, -1)]) (wrote (w [(1, 0x8F0), (3, -1)]) 3 3 (-0x71)) = true ∧
    goes (.extn { x0 with d := 3, a := 1, imm := 0x204 }) (w [(1, 0x8F0), (3, -1)]) (wrote (w [(1, 0x8F0), (3, -1)]) 3 3 0x8F) = true ∧
    goes (.ins { x0 with d := 3, a := 1, imm := 0x204 }) (w [(1, 0x8F0), (3, -1)]) (wrote (w [(1, 0x8F0), (3, -1)]) 3 3 (-0xF1)) = true := by decide +kernel
/-- −7 is less than 5 as a signed number and not as an unsigned one (R142). -/
theorem test_compare : Ready (w [(1, -7), (2, 5)]) [1, 2] ∧
    goes (.cmp 2 2 1 2) (w [(1, -7), (2, 5)]) (passed 1 (withPred 2 true (w [(1, -7), (2, 5)]))) = true ∧
    goes (.cmp 1 6 1 2) (w [(1, -7), (2, 5)]) (passed 1 (withPred 1 false (w [(1, -7), (2, 5)]))) = true ∧
    goes (.cmpi 0 2 1 4) (w [(1, -7), (2, 5)]) (passed 1 (w [(1, -7), (2, 5)])) = true ∧
    goes (.cmpiLit 3 11 1 8) (w [(1, -9), (2, 5)]) (passed 3 (withPred 3 true (w [(1, -9), (2, 5)]))) = true := by decide +kernel
/-- A signalling NaN is unordered and raises NV; −0 and +0 compare equal (R143). -/
theorem test_fcmp : goes (.fcmp 1 6 1 2 false) (w [(1, 0x7F800001), (2, 5)]) (passed 1 (withPred 1 true (withFlags 0x10 (w [(1, 0x7F800001), (2, 5)])))) = true ∧
    goes (.fcmp 1 0 1 2 true) (w [(1, 0x8000000000000000)]) (passed 1 (withPred 1 true (w [(1, 0x8000000000000000)]))) = true := by decide +kernel
/-- p0 reads as true (R56), p1 as false. -/
theorem test_predicates : goes (.pand 2 0 1) (w []) (passed 1 (withPred 2 false (w []))) = true ∧ goes (.por 2 0 1) (w []) (passed 1 (withPred 2 true (w []))) = true ∧
    goes (.pxor 2 0 0) (w []) (passed 1 (withPred 2 false (w []))) = true ∧ goes (.pnot 2 1) (w []) (passed 1 (withPred 2 true (w []))) = true ∧
    goes (.sel 3 1 2 1) (w [(1, -7), (2, 5)]) (wrote (w [(1, -7), (2, 5)]) 1 3 5) = true := by decide +kernel
/-- From the block at 0x1000: one block back, a literal target, CALL's link 0x1040, LOOP from 2 and from 1 (R150, R151). -/
theorem test_branches : Ready (w [(1, 0x2000), (3, 2)]) [7, 1, 3] ∧ Legal (reg (w [(1, 0x2000), (3, 2)]) 1) ∧
    goes (.bri 1) (w [(1, 0x2000)]) (jumped 0x2000 (w [(1, 0x2000)])) = true ∧ goes (.br (-1)) (w []) (jumped 0xFC0 (w [])) = true ∧
    goes (.callLit 0 false 0x2000) (w []) (jumped 0x2000 (withReg 7 0x1040 (w []))) = true ∧
    goes (.brp 0 true 4) (w []) (passed 1 (w [])) = true ∧ goes (.brpLit 1 true 0x40) (w []) (jumped 0x40 (w [])) = true ∧
    goes (.loop 3 1) (w [(3, 2)]) (jumped 0x1040 (withReg 3 1 (w [(3, 2)]))) = true ∧ goes (.loopLit 3 0) (w [(3, 1)]) (wrote (w [(3, 1)]) 3 3 0) = true ∧
    goes (.loop 3 1) (w []) (jumped 0x1040 (withReg 3 (-1) (w []))) = true := by decide +kernel
/-- A target off a block boundary, and one beyond 48 bits (R62). -/
theorem test_branch_traps : Alone (w [(1, 0x2004)]) ∧ ((thr (w [])).p 0 != false) = true ∧ reg (w []) 3 ≠ 1 ∧ trapIs (w [(1, 0x2004)]) (.bri 1) 0x04 0 = true ∧
    trapIs (w [(1, 0x1000000000000)]) (.ret 1) 0x05 0 = true ∧ trapIs (w []) (.loopLit 3 0x2004) 0x04 0 = true ∧ trapIs (w []) (.brLit 0x1000000000000) 0x05 0 = true := by decide +kernel
/-- binary32 (R146): 1.5 + 0.5; 2^24 + 1 is inexact to nearest even; 1 / 0 is infinite with DZ; √4. -/
theorem test_fp : ReadyX (w [(1, 0x3FC00000), (2, 0x3F000000)]) { x0 with d := 3, a := 1, b := 2, dfmt := 9 } [3, 1, 2, 0] [] ∧
    goes (.fadd { x0 with d := 3, a := 1, b := 2, dfmt := 9 }) (w [(1, 0x3FC00000), (2, 0x3F000000)]) (wrote (w [(1, 0x3FC00000), (2, 0x3F000000)]) 3 3 0x40000000) = true ∧
    (nx (exec (.fadd { x0 with d := 3, a := 1, b := 2, dfmt := 9 }) (w [(1, 0x4B800000), (2, 0x3F800000)]))).dev.getG 0 3 = 0x4B800000 ∧
    (thr (nx (exec (.fadd { x0 with d := 3, a := 1, b := 2, dfmt := 9 }) (w [(1, 0x4B800000), (2, 0x3F800000)])))).status ≠ 0 ∧
    (nx (exec (.fdiv { x0 with d := 3, a := 1, b := 2, dfmt := 9 }) (w [(1, 0x3F800000)]))).dev.getG 0 3 = 0x7F800000 ∧
    (nx (exec (.fsqrt { x0 with d := 3, a := 1, dfmt := 9 }) (w [(1, 0x40800000)]))).dev.getG 0 3 = 0x40000000 ∧
    (nx (exec (.fclass { x0 with d := 3, a := 1, sfmt := 9 }) (w [(1, 0x80000000)]))).dev.getG 0 3 = 8 := by decide +kernel
/-- A number of binary16 rounds to itself in every mode (R80, R91). -/
theorem test_representable : ((fpFmt 10).val 0x3555).nonFinite = false ∧ roundFp (fpFmt 10) false .rtz 7 ((fpFmt 10).val 0x3555) = (0x3555, 0) := by decide +kernel
/-- g32 lies outside a window of 32; an absent register parks (R63, R115). -/
theorem test_operand_checks : Alone (w []) ∧ trapIs (w []) (.add 32 1 2) 0x03 0 = true ∧
    (thr (nx (exec (.add 3 1 2) { w [] with dev := { (w []).dev with threads := [(0, { th0 with absent := 4 })] } }))).st = .parked (.presence 2) := by decide +kernel
theorem test_fences : Ready (w []) [] ∧ (w []).dev.pendingAccess 0 = false ∧ (w []).dev.redOut 0 = 0 ∧ goes .nop (w []) (passed 1 (w [])) = true ∧
    goes .fence (w []) (passed 1 (w [])) = true ∧ goes .fenceRed (w []) (passed 1 (w [])) = true ∧
    goes .yield (w []) (passed 1 { w [] with dev := (w []).dev.setThread 0 { th0 with yieldAt := some 6 } }) = true := by decide +kernel

/-- The same with an access, or a reduction, of the thread outstanding. -/
def wReq (k : ReqKind) (cls : Cls) : State :=
  { w [] with dev := { (w []).dev with reqs := [{ id := 1, kind := k, tid := 0, ctx := 5, pc := 0, va := 0x2000000000000000, cls, stage := .home, src := 0, dest := .cluster 0 }], fresh := 2 } }
theorem test_fence_waits : (wReq (.mem (.load 8 false) 3) .relaxed).dev.pendingAccess 0 = true ∧
    (thr (nx (exec .fence (wReq (.mem (.load 8 false) 3) .relaxed)))).st = .parked (.order .accesses) ∧
    (wReq (.mem (.red 0 7 1) 0) .red).dev.redOut 0 ≠ 0 ∧ goes .fence (wReq (.mem (.red 0 7 1) 0) .red) (passed 1 (wReq (.mem (.red 0 7 1) 0) .red)) = true ∧
    (thr (nx (exec .fenceRed (wReq (.mem (.red 0 7 1) 0) .red)))).st = .parked (.order .all) := by decide +kernel
/-- Two threads of a core, one of which executed YIELD six issue cycles ago: it waits for the other, for at most 64 issue cycles more (R126). -/
theorem test_yield_holds :
    let u := (dv (w []) fun d => { d with threads := [(0, { th0 with yieldAt := some 6 }), (1, th0)], cores := [(0, { cycle := 6 })] })
    u.dev.othersReady 0 = [1] ∧ ((u.live.startHolds 0).dev.thread 0).hold = some ([1], 70) ∧ ((u.live.startHolds 0).dev.thread 0).yieldAt = none := by decide +kernel
/-- No kernel's fault policy ends it: TRAP 7 leaves TRAPPED, to resume at the next instruction (R153, R313). -/
theorem test_trap : trapIs (w []) (.trap 7) 6 7 = true ∧ trapIs (w []) (.brk 9) 7 9 = true ∧ (thr (nx (exec (.trap 7) (w [])))).resumeAt = some 0x1004 ∧
    ((nx (exec (.trap 7) (w []))).dev.collector 5).queue.map (fun r => (r.cause, r.detail, r.pc, r.phys)) = [(6, 7, 0x1000, 0)] := by decide +kernel
theorem test_resume : ((resumeThread 0 (nx (exec (.trap 7) (w []))).live).dev.thread 0).pc = 0x1004 ∧
    ((resumeThread 0 (nx (exec (.trap 7) (w []))).live).dev.thread 0).st = .ready ∧ (th0.st ≠ .trapped) := by decide +kernel
theorem test_exit : Ready (w []) [] ∧ (w []).dev.gangOf 0 = none ∧ (thr (w [])).landing = false ∧ (thr (w [])).join = none ∧
    ((nx (exec .exit (w []))).dev.thread 0).st = .free := by decide +kernel
/-- A thread of a gang may not end (R190). -/
theorem test_gang_exit : (({ w [] with dev := { (w []).dev with gangs := [(0, { st := 2, n := 1, ctx := 5, knum := 1, timeout := 0, threads := [(0, 0)] })] } } : State).dev.gangOf 0).isSome = true ∧
    trapIs { w [] with dev := { (w []).dev with gangs := [(0, { st := 2, n := 1, ctx := 5, knum := 1, timeout := 0, threads := [(0, 0)] })] } } .exit 0x27 0 = true := by decide +kernel

/-- The walker's slot of core 0. -/
def wW (regs : List (Nat × Word)) : State :=
  { w [] with dev := { (w []).dev with cur := 63, threads := [(63, { walkerInit with flight := .none })], regs := regs.map fun r => (2016 + r.1, r.2) } }
theorem test_mfs : goes (.mfs 3 0x00A) (w []) (wrote (w []) 1 3 0x200000) = true ∧ goes (.mfs 3 0x009) (w []) (wrote (w []) 1 3 0) = true ∧
    trapIs (w []) (.mfs 3 0x802) 0x02 0 = true ∧ runs (.mfs 3 0x804) (wW []) = true ∧ trapIs (w []) (.mfs 3 0x010) 0x01 2 = true ∧ trapIs (w []) (.mts 3 0x001) 0x01 3 = true := by decide +kernel
theorem test_mts : (thr (nx (exec (.mts 1 0x008) (w [(1, -1)])))).status = 0x3000FF ∧ (thr (nx (exec (.mts 1 0x009) (w [(1, 12)])))).fpmode = 4 ∧
    Ready (wW [(1, 0xFFFF)]) [1] ∧ (wW []).dev.cur % 64 = 63 ∧ ((nx (exec (.mts 1 0x803) (wW [(1, 0xFFFF)]))).dev.core 0).ctxnum = 0xFFFF := by decide +kernel
/-- A write to c2 is its writer's at once (R114). -/
theorem test_core_shared : tget (nx (exec (.movToC 1 2) (w [(1, 9)]))).dev.cregs 0 2 = 9 ∧ goes (.movFromC 3 2) (w []) (wrote (w []) 1 3 0) = true ∧
    ((nx (exec (.movToC 1 2) (w [(1, 9)]))).dev.core 0).late.map (fun e => (e.slot, e.idx, e.old, e.until_)) = [(0, 2, 0, 6)] := by decide +kernel

/-- Cluster 0's memory from offset 0x100 holds these bytes; register 1 holds the address on path 0x2, register 2 another value. -/
def wMem (bs : List Nat) (v : Word) : State :=
  { w [(1, 0x2000000000000100), (2, v)] with mem := { cells := cellsOf (2 * 2 ^ 48 + 0x100) bs } }
theorem test_loads : Ready (wMem [0xFE, 1, 2, 0x83, 5, 6, 7, 8] 0) [3, 1] ∧ Own (wMem [0xFE, 1, 2, 0x83, 5, 6, 7, 8] 0) 0x2000000000000100 8 ∧
    goes (.ldI8 3 1 0 0) (wMem [0xFE] 0) (wrote (wMem [0xFE] 0) 1 3 (-2)) = true ∧ goes (.ldN8 3 1 0 1) (wMem [0xFE, 7] 0) (wrote (wMem [0xFE, 7] 0) 1 3 7) = true ∧
    goes (.ldI32Lit 3 1 0 0) (wMem [0xFE, 1, 2, 0x83] 0) (wrote (wMem [0xFE, 1, 2, 0x83] 0) 3 3 (-0x7CFDFE02)) = true ∧
    goes (.ld64 3 1 0 0) (wMem [0xFE, 1, 2, 0x83, 5, 6, 7, 8] 0) (wrote (wMem [0xFE, 1, 2, 0x83, 5, 6, 7, 8] 0) 1 3 0x08070605830201FE) = true := by decide +kernel
theorem test_load_pair : (nx (exec (.ld128 4 1 0 0) (wMem [1, 0, 0, 0, 0, 0, 0, 0, 9] 0))).dev.getG 0 4 = 1 ∧
    (nx (exec (.ld128 4 1 0 0) (wMem [1, 0, 0, 0, 0, 0, 0, 0, 9] 0))).dev.getG 0 5 = 9 := by decide +kernel
theorem test_store : (nx (exec (.st16 2 1 0 1) (wMem [1, 2, 3, 4, 5] 0xABCD))).mem.cells = cellsOf (2 * 2 ^ 48 + 0x100) [1, 2, 0xCD, 0xAB, 5] ∧
    (nx (exec (.st16 2 1 0 1) (wMem [1, 2, 3, 4, 5] 0xABCD))).mem.wf = true ∧ (nx (exec (.st8 2 1 0 0) (wMem [1, 2] 0))).mem.cells = cellsOf (2 * 2 ^ 48 + 0x100) [0, 2] := by
  decide +kernel
/-- i32 5 at the address, 3 in the operand (R227). -/
theorem test_atomics : let x := { x0 with d := 3, a := 1, b := 2, dfmt := 2 }
    ReadyX (wMem [5] 3) x [3, 1, 2, 0] [] ∧ Own (wMem [5] 3) 0x2000000000000100 4 ∧ atomicOrd x = 0 ∧
    (nx (exec (.aadd x) (wMem [5] 3))).mem.cells = cellsOf (2 * 2 ^ 48 + 0x100) [8] ∧ (nx (exec (.aadd x) (wMem [5] 3))).dev.getG 0 3 = 5 ∧
    (nx (exec (.acas { x with b := 2, c := 1 }) (wMem [3] 3))).mem.cells = cellsOf (2 * 2 ^ 48 + 0x101) [1] := by decide +kernel
/-- 1.5 + 0.5 in binary32 at the address. -/
theorem test_afadd : let x := { x0 with d := 3, a := 1, b := 2, dfmt := 9 }
    (nx (exec (.afadd x) (wMem [0, 0, 0xC0, 0x3F] 0x3F000000))).mem.cells = cellsOf (2 * 2 ^ 48 + 0x103) [0x40] ∧
    (nx (exec (.afadd x) (wMem [0, 0, 0xC0, 0x3F] 0x3F000000))).dev.getG 0 3 = 0x3FC00000 := by decide +kernel
/-- A FULL granule: LDF.clr takes it, STF parks (R216, R225). -/
theorem test_granules : let x := { x0 with d := 3, a := 1, b := 2, dfmt := 2 }
    (nx (exec (.ldfClr x) (wMem [5] 3))).dev.getG 0 3 = 5 ∧ (nx (exec (.ldfClr x) (wMem [5] 3))).mem.isFull (2 * 2 ^ 44 + 0x10) = false ∧
    (thr (nx (exec (.stf x) (wMem [5] 3)))).pc = 0x1000 ∧ (thr (nx (exec (.stf x) (wMem [5] 3)))).st ≠ .ready ∧
    (thr (nx (exec (.ldf x) { wMem [5] 3 with mem := { (wMem [5] 3).mem with empties := [2 * 2 ^ 44 + 0x10] } }))).st ≠ .ready ∧
    (nx (exec (.stf x) { wMem [5] 3 with mem := { (wMem [5] 3).mem with empties := [2 * 2 ^ 44 + 0x10] } })).mem.isFull (2 * 2 ^ 44 + 0x10) = true := by decide +kernel
theorem test_relaxed_and_reductions : let x := { x0 with a := 1, b := 2, dfmt := 7 }
    Near (wMem [5] 3) 0x2000000000000100 8 ∧ (wMem [5] 3).dev.relOut 0 < 8 ∧ (wMem [5] 3).dev.redOut 0 < 255 ∧ (wMem [5] 3).dev.pendingAccess 0 = false ∧
    (nx (exec (.ld64 3 1 1 0) (wMem [5] 3))).dev.relOut 0 = 1 ∧ (thr (nx (exec (.ld64 3 1 1 0) (wMem [5] 3)))).lacks 3 = true ∧
    (nx (exec (.redadd x) (wMem [5] 3))).dev.redOut 0 = 1 ∧ (thr (nx (exec (.redadd x) (wMem [5] 3)))).pc = 0x100C ∧
    (nx (exec (.st64 2 1 2 0) (wMem [5] 3))).dev.reqs.map (fun r => r.cls) = [.release] := by decide +kernel

/-- A page of HBM4 that the core's TLB maps at VA 0. -/
def wTlb (pte : Word) (regs : List (Nat × Word)) : State :=
  { w regs with dev := { (w regs).dev with cores := [(0, { cmwin := 0x40, tlb := [{ ctx := 0, page := 0, big := false, pte }] })] } }
theorem test_translated : (wTlb 0xD200000000000000 []).dev.pendingAccess 0 = false ∧ pteVerdict 0xD200000000000000 0 0x60 = .ok ∧
    pteVerdict 0xD200000000000000 1 0x61 = .ok ∧ paHome boot0 (leafPa 0xD200000000000000 false 8) = some (.hbm 0) ∧
    CanSend (wTlb 0xD200000000000000 []) (Home.hbm 0).dest (some (pcHome boot0 0 0)) ∧
    (thr (nx (exec (.ld64Lit 3 1 0 8) (wTlb 0xD200000000000000 [])))).flight = .request 1 0x100C ∧
    (nx (exec (.st64Lit 3 1 0 8) (wTlb 0xD200000000000000 []))).dev.reqs.map (fun r => r.dest) = [(Home.hbm 0).dest] ∧
    (thr (nx (exec (.ld64Lit 3 1 0 0x10000) (wTlb 0xD200000000000000 [])))).st = .parked .tlb ∧
    ((nx (exec (.st64Lit 3 1 0 0x10000) (wTlb 0xD200000000000000 []))).dev.core 0).misses.map (fun m => (m.kind, m.va)) = [(1, 0x10000)] := by decide +kernel
theorem test_roinv : let s := { wTlb 0xD200000000000000 [(1, 0x1000000000000000)] with dev := { (wTlb 0xD200000000000000 [(1, 0x1000000000000000)]).dev with
      clusters := [(0, { robuf := [(5, 0, 7), (4, 0, 8), (5, 1, 9)] })] } }
    ReadyX s { x0 with a := 1 } [1] [] ∧ ((nx (exec (.roinv { x0 with a := 1 }) s)).dev.cluster 0).robuf = [(4, 0, 8), (5, 1, 9)] := by decide +kernel
/-- Misaligned; paths 4, 6, 14; reserved bits; beyond the window of 64 units (R209 to R214). -/
theorem test_refused : trapIs (w []) (.ld64Lit 3 1 0 4) 0x42 0 = true ∧ trapIs (w []) (.st64Lit 3 1 2 0x4000000000000000) 0x41 0 = true ∧
    trapIs (w []) (.ld64Lit 3 1 0 0x6000000000000000) 0x60 0 = true ∧ trapIs (w []) (.st64Lit 3 1 0 0x6000000000000000) 0x61 0 = true ∧
    trapIs (w []) (.ld64Lit 3 1 1 0xE000000000000000) 0x02 0 = true ∧ trapIs (w []) (.st64Lit 3 1 0 0x1000000000000000) 0x41 0 = true ∧
    trapIs (w []) (.ld64Lit 3 1 0 0x1000000000000) 0x40 0 = true ∧ trapIs (w []) (.ld64Lit 3 1 0 0x2000000000400000) 0x40 0 = true ∧
    inWindow 0x01 0x10000 = false ∧ trapIs { w [] with dev := { (w []).dev with cores := [(0, { cmwin := 1 })] } } (.ld64Lit 3 1 0 0x2000000000010000) 0x44 0 = true := by decide +kernel
/-- The RUNNING kernel of the thread, on cores 0 and 1. -/
def k1 : Kernel :=
  { st := 2, ctx := 5, knum := 1, owner := 3, queue := 0, ring := 0, lrec := 0, flags := 0, cmpaddr := 0, cmpval := 0, cores := [0, 1], populated := 2, lstks := [0] }

/-- A thread of that kernel, whose work list holds these entries. -/
def wList (items : List Word) (regs : List (Nat × Word)) : State :=
  dv (w regs) fun d => { d with kernels := [k1], work := [(0, { holder := some (5, 1), items })] }
theorem test_work_lists : let x := { x0 with d := 3, a := 1, b := 2 }
    ReadyX (wList [7] [(1, 9), (2, 4)]) x [3, 1, 2] [] ∧ ((wList [7] []).dev.list 0).holder = some ((thr (wList [7] [])).ctx, (thr (wList [7] [])).knum) ∧
    ((nx (exec (.wpush x) (wList [7] [(1, 9)]))).dev.list 0).items = [7, 9] ∧ ((nx (exec (.wpop x) (wList [7, 8] []))).dev.list 0).items = [7] ∧
    (nx (exec (.wpop x) (wList [7, 8] []))).dev.getG 0 3 = 8 ∧ goes (.wpop x) (wList [] []) (wrote (wList [] []) 3 3 0) = true ∧
    goes (.wlen x) (wList [7, 8] []) (wrote (wList [7, 8] []) 3 3 2) = true ∧ ((nx (exec (.balcfg x) (wList [7] [(1, 9), (2, 4)]))).dev.list 0).thr = 4 := by decide +kernel
theorem test_work_list_traps : let x := { x0 with d := 3, a := 1 }
    trapIs (w [(1, 9)]) (.wpush x) 0xA5 3 = true ∧ trapIs (wList [] []) (.wpush x) 0xA5 2 = true ∧ trapIs (wList (List.replicate 64 5) [(1, 9)]) (.wpush x) 0xA5 1 = true := by
  decide +kernel

/-- An OPEN phaser 0 with these counts in cluster 0, and a handle to it with SIG and WAIT in register 1. -/
def wPh (sig wait arr ph : Nat) (h : Word) (b : Word) : State :=
  dv (w [(1, h), (2, b)]) fun d => { d with kernels := [k1], phasers := [(0, { st := 1, gen := 2, ctx := 5, knum := 1, sigreg := sig, waitreg := wait, arrived := arr, ph })] }
/-- The handle of generation 2: SIG, WAIT, phase 0. -/
def hd : Word := 0x800000020000C000
theorem test_phasers : let x := { x0 with d := 3, a := 1, b := 2 }
    let p : Phaser := { st := 1, gen := 2, ctx := 5, knum := 1, sigreg := 2, waitreg := 1 }
    NamesPhaser (wPh 2 1 0 0 hd 1) hd p ∧ ReadyX (wPh 2 1 0 0 hd 1) x [3, 1, 2] [] ∧
    (nx (exec (.phsig x) (wPh 2 1 0 0 hd 0))).dev.phaser 0 0 = { p with arrived := 1 } ∧ (nx (exec (.phsig x) (wPh 2 1 1 0 hd 0))).dev.phaser 0 0 = { p with ph := 1 } ∧
    (nx (exec (.phwait x) (wPh 2 1 0 1 hd 0))).dev.getG 0 1 = 0x800000020001C000 ∧ (thr (nx (exec (.phwait x) (wPh 2 1 0 0 hd 0)))).st = .parked (.phaser 0 0 0 true) ∧
    (nx (exec (.phwait x) (wPh 2 1 0 0 hd 0))).dev.phWaits = [(0, 0, 0)] ∧ (nx (exec (.phnext x) (wPh 2 1 1 0 hd 0))).dev.getG 0 1 = 0x800000020001C000 ∧
    (nx (exec (.phdrop x) (wPh 2 0 0 0 0x8000000200008000 0))).dev.phaser 0 0 = { p with sigreg := 1, waitreg := 0 } ∧
    (nx (exec (.phdrop x) (wPh 2 0 0 0 0x8000000200008000 0))).dev.getG 0 1 = 0x8000000200000000 ∧
    (nx (exec (.phfree x) (wPh 0 0 0 0 0x8000000200000000 0))).dev.phaser 0 0 = { gen := 3 } ∧
    goes (.phq x) (wPh 2 1 0 0 hd 0) (wrote (wPh 2 1 0 0 hd 0) 3 3 0x0002000100000000) = true := by decide +kernel
theorem test_phaser_registration : let x := { x0 with d := 3, a := 1, b := 2 }
    let p : Phaser := { st := 1, gen := 2, ctx := 5, knum := 1, sigreg := 2, waitreg := 1 }
    (nx (exec (.phreg x) (wPh 1 1 0 0 0x8000000200000000 1))).dev.phaser 0 0 = p ∧ (nx (exec (.phreg x) (wPh 1 1 0 0 0x8000000200000000 1))).dev.getG 0 1 = 0x8000000200008000 ∧
    (thr (nx (exec (.phreg x) (wPh 1 1 0 0 hd 4)))).join = some hd ∧
    (nx (exec (.phnew x) (dv (w [(1, 3)]) fun d => { d with kernels := [k1] }))).dev.phaser 0 0 = { st := 1, ctx := 5, knum := 1, sigreg := 1, waitreg := 1 } ∧
    (nx (exec (.phnew x) (dv (w [(1, 3)]) fun d => { d with kernels := [k1] }))).dev.getG 0 3 = 0x800000000000C000 := by decide +kernel
theorem test_phaser_handles : let x := { x0 with d := 3, a := 1, b := 2 }
    phUnit (some k1) 5 = none ∧ trapIs (wPh 2 1 0 0 5 0) (.phsig x) 0xA4 1 = true ∧
    (let s := dv (wPh 2 1 0 0 (hd + 0x1000000000000) 0) fun d => { d with kernels := [{ k1 with cores := [0, 8] }] }
     phUnit (some { k1 with cores := [0, 8] }) (hd + 0x1000000000000) = some 1 ∧ CanSend s (.cluster 1) none ∧
     (nx (exec (.phq x) s)).dev.reqs.map (fun r => (r.kind, r.dest)) = [(.phaser 7 (hd + 0x1000000000000) 0 3, .cluster 1)]) := by decide +kernel

/-- SPAWN on logical core 0, copying g1 to g2, entry one block on (R123). -/
theorem test_spawn : let x := { x0 with d := 3, a := 4, b := 5, c := 0, imm := 1 }
    let s := dv (w [(1, 11), (2, 22), (5, 0x201)]) fun d => { d with kernels := [k1], threads := [(0, { th0 with ncore := 2 })] }
    ReadyX s x [3, 4, 5, 0] [] ∧ unpopulated k1 0 = false ∧ s.dev.findPlace k1 0 32 = some (1, 32) ∧
    (nx (exec (.spawn x) s)).dev.getG 0 3 = 1 ∧ ((nx (exec (.spawn x) s)).dev.thread 1).pc = 0x1040 ∧ (nx (exec (.spawn x) s)).dev.getG 1 2 = 22 ∧
    (nx (exec (.spawn x) s)).dev.getG 1 5 = 0 ∧ ((nx (exec (.spawn x) s)).dev.thread 1).st = .ready := by decide +kernel
/-- RPUT to slot 1 of the core; MIGRATE to the own cluster, and to cluster 1 (R127, R128). -/
theorem test_rput_migrate : let x := { x0 with d := 3, a := 1, b := 2 }
    let two := fun (a : Word) => dv (w [(1, a), (2, 7)]) fun d => { d with threads := [(0, th0), (1, { th0 with wbase := 32 })] }
    (nx (exec (.rput x) (w [(1, 65), (2, 7)]))).dev.reqs.map (fun r => r.kind) = [.rput 65 3 7 false] ∧
    rputOk (two 1).dev 5 1 1 3 = true ∧ (nx (exec (.rput x) (two 1))).dev.getG 1 3 = 7 ∧ trapIs (two 2) (.rput x) 0xA1 0 = true ∧
    ((nx (exec (.rput x) (two 0x8000000000000001))).dev.thread 1).lacks 3 = true ∧
    (let s := dv (w [(1, 0x3000000000000000)]) fun d => { d with threads := [(0, { th0 with wsize := 16, tsize := 0 })] }
     goes (.migrate x) s (passed 3 s) = true) ∧
    (let s := dv (w [(1, 0x3000000000400000)]) fun d => { d with kernels := [{ k1 with cores := [0, 8] }], threads := [(0, { th0 with wsize := 16, tsize := 0 })] }
     8 ∈ { k1 with cores := [0, 8] : Kernel }.openCores 1 ∧ CanSend s (.cluster 1) none ∧ (thr (nx (exec (.migrate x) s))).st = .migrating ∧
     (nx (exec (.migrate x) s)).dev.reqs.map (fun r => r.dest) = [.cluster 1]) := by decide +kernel
/-- A request of thread 0 at its unit. -/
def rq (k : ReqKind) : Req := { id := 1, kind := k, tid := 0, ctx := 5, pc := 0x1000, va := 0, cls := .plain, stage := .home }
/-- The thread waits for request 1; its kernel runs. -/
def wR (rs : List Req) (regs : List (Nat × Word)) : State :=
  dv (w regs) fun d => { d with threads := [(0, { th0 with flight := .request 1 0x100C })], kernels := [k1], reqs := rs, fresh := 9 }

/-- R109, R110: the register has come; R216: the wake has been sent, or the retry time has passed. -/
theorem test_wakes : let p := fun (k : Park) => dv (w []) fun d => { d with threads := [(0, { th0 with st := .parked k })], wakes := [0] }
    wakeMet (p (.presence 3)).dev 0 (.presence 3) = true ∧ (thr (nx (exec (.threadWake 0) (p (.presence 3))))) = th0 ∧
    thr (nx (exec (.granuleWake 0) (p (.granule 9 true)))) = th0 ∧ thr (nx (exec (.granuleRetryTimeout 0) (p (.granule 9 false)))) = th0 ∧
    thr (nx (exec (.phaserRetryTimeout 0) (p (.phaser 0 1 2 false)))) = th0 ∧ thr (nx (exec (.threadWake 0) (w []))) = th0 ∧
    (thr (nx (exec (.yieldHoldEnd 0) (dv (w []) fun d => { d with threads := [(0, { th0 with hold := some ([1], 0) })] })))).hold = none := by decide +kernel
/-- A wake from a DRAM controller has come by relay (R216); a second RPUT waits for the first (R116); a full list takes no move (R255); a join message whose
thread has gone on follows it (R268). -/
theorem test_messages_wait : let v := dv (w []) fun d =>
      { d with threads := [(0, { th0 with st := .parked (.granule 9 true) })], reqs := [{ rq (.wake 0) with stage := .going }],
               msgs := [{ id := 3, ctx := 5, req := 1, back := false, path := [], node := 0, dest := .cluster 0, flits := 1 }] }
    let r := dv (wR [rq (.rput 1 3 7 false), { rq (.rput 1 3 8 false) with id := 2 }] []) fun d => { d with threads := [(0, th0), (1, { th0 with wbase := 32 })] }
    let b := dv (w []) fun d => { d with work := [(1, { holder := some (5, 1), items := List.replicate 64 5 })], clusters := [(0, { moves := [{ core := 1, ctx := 5, knum := 1, items := [1] }] })] }
    (v.live.wakeAt 0).isSome = true ∧ thr (nx (exec (.granuleWake 0) v)) = th0 ∧ goes (.rputDeliver 2) r r = true ∧ goes (.balanceInsert 0) b b = true ∧
    (nx (exec (.joinMessage 1) (wR [rq (.joinMsg 512 (some hd))] []))).dev.reqs.map (fun q => q.dest) = [.cluster 1] := by decide +kernel
theorem test_rput_arrives : let s := dv (wR [rq (.rput 1 3 7 false)] []) fun d => { d with threads := [(0, { th0 with flight := .request 1 0x100C }), (1, { th0 with wbase := 32 })] }
    HasReq s 1 (rq (.rput 1 3 7 false)) ∧ Awaited s (rq (.rput 1 3 7 false)) 0x100C ∧ (nx (exec (.rputDeliver 1) s)).dev.getG 1 3 = 7 ∧
    (thr (nx (exec (.rputDeliver 1) s))).pc = 0x100C ∧ (nx (exec (.rputDeliver 1) s)).dev.reqs = [] ∧
    ((nx (exec (.rputDeliver 1) { s with dev := { s.dev with reqs := [rq (.rput 1 3 7 true)] } })).dev.thread 1).lacks 3 = true := by decide +kernel
/-- A SPAWN from another cluster; its reply; the join message that follows (R124). -/
theorem test_spawn_messages : let r := { rq (.spawn { th0 with pc := 0x2000 } [5, 6] 0 16 0 3) with src := 1, tid := 512, stage := .going, dest := .cluster 0 }
    let m : Msg := { id := 2, ctx := 5, req := 1, back := false, path := [], node := 0, dest := .cluster 0, flits := 3 }
    let s := dv (wR [r] []) fun d => { d with msgs := [m] }
    Came s r false ∧ s.dev.findPlace k1 0 16 = some (1, 32) ∧ ((nx (exec (.spawnRemoteCreate 1) s)).dev.thread 1).pc = 0x2000 ∧
    (nx (exec (.spawnRemoteCreate 1) s)).dev.reqs.map (fun q => (q.out, q.stage)) = [(1, .back)] ∧
    (let q := { rq (.spawn th0 [] 0 16 0 3) with stage := .replied, out := 513 }
     (nx (exec (.spawnReply 1) (wR [q] []))).dev.getG 0 3 = 513 ∧ (nx (exec (.spawnReply 1) (wR [q] []))).dev.reqs.map (fun q => q.kind) = [.joinMsg 513 none]) ∧
    (let j := rq (.joinMsg 0 (some hd))
     (thr (nx (exec (.joinMessage 1) (wR [j] [])))).join = some hd) := by decide +kernel
theorem test_migration : let r := { rq (.migrate { th0 with pc := 0x2000 } [8, 9] 0 0 none) with tid := 512, dest := .cluster 0 }
    let s := dv (wR [r] []) fun d => { d with threads := [(512, { th0 with st := .migrating })] }
    0 ∈ k1.openCores 0 ∧ s.dev.freeSlot 0 56 7 = some 56 ∧ ((nx (exec (.migrationPlace 1) s)).dev.thread 56).st = .guest ∧
    ((nx (exec (.migrationPlace 1) s)).dev.thread 56).wbase = 1904 ∧
    (let q := rq (.migrate { th0 with absent := 0 } [8, 9] 0 0 (some 56))
     let u := dv (wR [q] []) fun d => { d with threads := [(56, { th0 with st := .guest, wbase := 1904, wsize := 16, absent := BitVec.allOnes 128 })] }
     (nx (exec (.migrationFlitLand 1) u)).dev.getG 56 2 = 9 ∧ ((nx (exec (.migrationFlitLand 1) u)).dev.thread 56).st = .ready) ∧
    (let q := { rq (.migrate th0 [] 0 3 (some 512)) with stage := .replied }
     let u := dv (wR [q] [(1, 4)]) fun d => { d with threads := [(0, { th0 with st := .migrating })] }
     ((nx (exec (.migrationAccept 1) u)).dev.thread 0).st = .free ∧ (nx (exec (.migrationAccept 1) u)).dev.regs = [] ∧
     (nx (exec (.migrationAccept 1) u)).dev.reqs.map (fun q => q.kind) = [.joinMsg 512 none]) := by decide +kernel
/-- The balancer takes half the excess of core 0's list for core 1 (R260). -/
theorem test_balancer : let s := dv (w []) fun d => { d with kernels := [k1], work := [(0, { holder := some (5, 1), items := [1, 2, 3, 4], interval := 1, thr := 1 }), (1, { holder := some (5, 1), thr := 1 })] }
    let t := nx (exec (.balanceInstant 0 5 1) s)
    (t.dev.list 0).items = [3, 4] ∧ (t.dev.cluster 0).moves.map (fun m => (m.core, m.items)) = [(1, [1, 2])] ∧ ((nx (exec (.balanceInsert 0) t)).dev.list 1).items = [1, 2] := by decide +kernel
theorem test_core_release : let s := dv (w []) fun d => { d with kernels := [k1], threads := [] }
    k1.cores[1]? = some 1 ∧ s.dev.coreGroupEmpty 5 1 1 = true ∧ ((nx (exec (.coreRelease 5 1 1) s)).dev.kernel? 5 1).map Kernel.released = some [1] := by decide +kernel
/-- A signal comes to its phaser from another cluster, and the reply of a query (R269). -/
theorem test_phaser_messages : let r := { rq (.phaser 3 0x8000000200008000 0 1) with va := 1, src := 1, tid := 512 }
    let s := dv (wPh 3 1 0 0 0 0) fun d => { d with reqs := [r], fresh := 9 }
    ((nx (exec (.phaserRequest 1) s)).dev.phaser 0 0).arrived = 1 ∧ (nx (exec (.phaserRequest 1) s)).dev.reqs.map (fun q => q.stage) = [.back] ∧
    (let q := { rq (.phaser 7 hd 0 3) with stage := .replied, out := 77 }
     (nx (exec (.phaserReply 1) (wR [q] []))).dev.getG 0 3 = 77 ∧ (thr (nx (exec (.phaserReply 1) (wR [q] [])))).pc = 0x100C) := by decide +kernel

/-- Tile registers 0 to 3 of thread 0 with these descriptors and rows 0. -/
def wV (ds : List Word) (rows : List Nat) (regs : List (Nat × Word)) : State :=
  dv (w regs) fun d => { d with descs := (List.range ds.length).zip ds, tiles := ((List.range rows.length).map (· * 32)).zip (rows.map (BitVec.ofNat 4096)) }
/-- Element j of row 0 of tile register n once every write has landed. -/
def el (t : State) (n width j : Nat) : Nat := elemAt (settled t 0 (n * 32)) width j
/-- Rows 1, columns 4 of a format. -/
def d4 (f : Nat) : Word := mkDesc f 1 4 0 false false
/-- D is tile 0, A tile 1, B tile 2, C tile 3. -/
def xV (f : Nat) : Ext := { x0 with a := 1, b := 2, c := 3, dfmt := BitVec.ofNat 4 f, sfmt := BitVec.ofNat 4 f }
/-- Bytes as a row. -/
def row8 (bs : List Nat) : Nat := bs.foldr (fun (b n : Nat) => n * 256 + b) 0

/-- .i8 lanes: 100 + 50 wraps to −106, and with SAT is 127 with ST; a lane beyond the columns is not written (R80, R163, R174). -/
theorem test_vector_integers : let s := wV [d4 0, d4 0, d4 0, d4 0] [row8 [9, 9, 9, 9, 9], row8 [100, 0xFF, 3, 4], row8 [50, 2, 10, 1], row8 [1, 1, 1, 1]] []
    let g := fun (i : Instr) => (List.range 5).map (el (nx (exec i s)) 0 8)
    ReadyX s (xV 0) [] [0, 1, 2, 3] ∧ Calm s ∧ Fits s (xV 0) [(0, 0), (1, 0), (2, 0), (3, 0)] ∧ Active s (xV 0) (lanesOf 0) [0, 1, 2] 3 ∧
    g (.vadd (xV 0)) = [150, 1, 13, 5, 9] ∧ g (.vadd { xV 0 with sat := true }) = [127, 1, 13, 5, 9] ∧
    (thr (nx (exec (.vadd { xV 0 with sat := true }) s))).status = 0x20 ∧ g (.vsub (xV 0)) = [50, 253, 249, 3, 9] ∧ g (.vmul (xV 0)) = [136, 254, 30, 4, 9] ∧
    g (.vmin (xV 0)) = [50, 255, 3, 1, 9] ∧ g (.vmax (xV 0)) = [100, 2, 10, 4, 9] ∧ g (.vabs (xV 0)) = [100, 1, 3, 4, 9] ∧ g (.vneg (xV 0)) = [156, 1, 253, 252, 9] ∧
    g (.vshl (xV 0)) = [144, 252, 12, 8, 9] ∧ g (.vshr (xV 0)) = [25, 255, 0, 2, 9] ∧ g (.vand (xV 0)) = [32, 2, 2, 0, 9] ∧ g (.vor (xV 0)) = [118, 255, 11, 5, 9] ∧
    g (.vxor (xV 0)) = [86, 253, 9, 5, 9] ∧ g (.vfma (xV 0)) = [137, 255, 31, 5, 9] ∧
    g (.vadd { xV 0 with men := true, km := 1 }) = [150, 1, 9, 9, 9] := by decide +kernel
/-- binary32 lanes: 1.5 + 2 = 3.5; −1 by 2. -/
theorem test_vector_floats : let s := wV [d4 9, d4 9, d4 9, d4 9] [0, 0x3FC00000, 0x40000000, 0x3F800000] []
    let g := fun (i : Instr) => el (nx (exec i s)) 0 32 0
    g (.vadd (xV 9)) = 0x40600000 ∧ g (.vsub (xV 9)) = 0xBF000000 ∧ g (.vmul (xV 9)) = 0x40400000 ∧ g (.vfma (xV 9)) = 0x40800000 ∧
    g (.vmin (xV 9)) = 0x3FC00000 ∧ g (.vmax (xV 9)) = 0x40000000 ∧ g (.vneg (xV 9)) = 0xBFC00000 ∧ g (.vabs (xV 9)) = 0x3FC00000 := by decide +kernel
/-- R176 to R178, R186, R187. -/
theorem test_vector_selection : let s := wV [d4 0, d4 0, d4 4, d4 5] [row8 [9, 9, 9, 9], row8 [10, 20, 0xFE, 40], row8 [3, 9, 0, 1], 2 * 2 ^ 16] [(1, 0x155)]
    let g := fun (i : Instr) => (List.range 4).map (el (nx (exec i s)) 0 8)
    Fits s (xV 0) [(0, 0), (1, 0), (2, 4)] ∧ ReadyX s (xV 0) [1] [0, 1, 2] ∧ g (.vperm (xV 0)) = [40, 0, 10, 20] ∧ g (.vgather { xV 0 with b := 3 }) = [10, 0xFE, 10, 10] ∧
    g (.vbcst (xV 0)) = [0x55, 0x55, 0x55, 0x55] ∧ g (.vbcst { xV 0 with imm := 0x40001 }) = [20, 20, 20, 20] ∧
    (let u := wV [d4 1, d4 1, d4 1] [0, row8 [10, 0, 20, 0, 0xFE, 0xFF, 40], row8 [3, 0, 30, 0, 0, 0, 40]] []
     (thr (nx (exec (.vcmp { xV 1 with d := 2, imm := 2 }) u))).k2 = 6 ∧ (thr (nx (exec (.vcmp { xV 1 with d := 2, imm := 6 }) u))).k2 = 2 ∧
     (List.range 4).map (el (nx (exec (.vsel { xV 1 with men := true, km := 1 }) u)) 0 16) = [10, 30, 0xFFFE, 40]) ∧
    (let u := wV [d4 9, d4 0] [0, row8 [10, 20, 0xFE, 40]] []
     Fits u { xV 9 with sfmt := 0 } [(0, 9), (1, 0)] ∧ (List.range 4).map (el (nx (exec (.vcvt { xV 9 with sfmt := 0 }) u)) 0 32) = [0x41200000, 0x41A00000, 0xC0000000, 0x42200000]) := by
  decide +kernel
/-- R181: 2³ = 8, log₂ 8 = 3, 1/8 and 1/√16 of binary16. -/
theorem test_vector_functions : let f := fun (v : Nat) => wV [d4 11, d4 11] [0, v] []
    let g := fun (i : Instr) (v : Nat) => el (nx (exec i (f v))) 0 16 0
    Fits (f 0x4200) (xV 11) [(0, 11), (1, 11)] ∧
    g (.vexp2 (xV 11)) 0x4200 = 0x4800 ∧ g (.vlog2 (xV 11)) 0x4800 = 0x4200 ∧ g (.vrcp (xV 11)) 0x4800 = 0x3000 ∧ g (.vrsq (xV 11)) 0x4C00 = 0x3400 ∧
    Fits (wV [d4 9, d4 9] [0, 0x40400000] []) (xV 9) [(0, 9), (1, 9)] ∧ runs (.vexp2 (xV 9)) (wV [d4 9, d4 9] [0, 0x40400000] []) = true := by decide +kernel
/-- R99, R182, R183 over .i8 and binary32 lanes 1, 2, 3, 4. -/
theorem test_reductions : let s := wV [d4 0, d4 0] [row8 [9, 9, 9, 9], row8 [1, 2, 0xFD, 4]] []
    let g := fun (i : Instr) => (List.range 4).map (el (nx (exec i s)) 0 8)
    ReadyX s (xV 0) [] [0, 1] ∧ Fits s (xV 0) [(0, 0), (1, 0)] ∧ dEcol (descOf s 0) < dCols (descOf s 0) ∧ g (.vredsum (xV 0)) = [4, 9, 9, 9] ∧ g (.vredmax (xV 0)) = [4, 9, 9, 9] ∧
    g (.vredmin (xV 0)) = [0xFD, 9, 9, 9] ∧ g (.vscan (xV 0)) = [1, 3, 0, 4] ∧ g (.vredmax { xV 0 with men := true, km := 3 }) = [0, 9, 9, 9] ∧
    (let u := wV [d4 9, d4 9] [0, 0x40400000000000003F80000040000000] []
     let h := fun (i : Instr) => (List.range 4).map (el (nx (exec i u)) 0 32)
     h (.vscan (xV 9)) = [0x40000000, 0x40400000, 0x40400000, 0x40C00000] ∧ h (.vredsum (xV 9)) = [0x40C00000, 0, 0, 0] ∧ h (.vredmin (xV 9)) = [0, 0, 0, 0]) := by decide +kernel
/-- R100 to R103: a block 1, 2, 4, 6 of binary32 to .e4m3 with scale 2, and back. -/
theorem test_quantise : let u := wV [d4 12, d4 9] [0, 0x40C00000408000004000000040000000] [(2, 0x40000000)]
    ReadyX u { xV 12 with sfmt := 9 } [2] [0, 1] ∧ Fits u { xV 12 with sfmt := 9 } [(0, 12), (1, 9)] ∧
    dScl (descOf u 0) = decide ((xV 12).b = 0) ∧ (List.range 4).map (el (nx (exec (.vqnt { xV 12 with sfmt := 9 }) u)) 0 8) = [0x38, 0x38, 0x40, 0x44] := by decide +kernel
/-- R100: of 2, 2, 4, 6 the derived scale is 2⁻⁶; R103: codes 1 and 2 of .e4m3 with the scale byte 128. -/
theorem test_derived_scales : let u := wV [mkDesc 12 1 4 0 true false, d4 9] [0, 0x40C00000408000004000000040000000] []
    let x := { xV 12 with sfmt := 9, b := 0 }
    dScl (descOf u 0) = decide (x.b = 0) ∧ ReadyX u x [0] [0, 1] ∧ (List.range 4).map (el (nx (exec (.vqnt x) u)) 0 8) = [0x70, 0x70, 0x78, 0x7C] ∧
    elemAt (settled (nx (exec (.vqnt x) u)) 1 0) 8 0 = 121 ∧
    (let v := dv (wV [d4 9, mkDesc 12 1 4 0 true false] [0, 0x4038] []) fun d => { d with scales := [(32, 128)] }
     Fits v { xV 9 with sfmt := 12, b := 0 } [(0, 9), (1, 12)] ∧ (List.range 2).map (el (nx (exec (.vdq { xV 9 with sfmt := 12, b := 0 }) v)) 0 32) = [0x40000000, 0x40800000]) := by
  decide +kernel
/-- R160, R161, R184, R185: ROWS of t1 set to 3, an ECOL out of range, MFD, TZERO of the rows, TMOV, TTR of .i8. -/
theorem test_descriptors : let s := wV [d4 0, d4 0] [row8 [9, 9], row8 [1, 2, 3, 4]] [(2, 1)]
    ReadyX s (xV 0) [2] [0, 1] ∧ (nx (exec (.mtd 1 2 2 2) s)).dev.descs = [(0, d4 0), (1, mkDesc 0 3 4 0 false false)] ∧ Alone s ∧
    trapIs s (.mtdLit 1 2 4 1024) 0x21 0 = true ∧ goes (.mfd 1 3 3) s (wrote s 1 3 4) = true ∧ settled (nx (exec (.tzero 1 1) s)) 0 32 = 0 ∧
    (List.range 4).map (el (nx (exec (.tmov (xV 0)) s)) 0 8) = [1, 2, 3, 4] ∧
    (List.range 4).map (fun r => elemAt (settled (nx (exec (.ttr (xV 0)) s)) 0 r) 8 0) = [1, 2, 3, 4] ∧
    settled (nx (exec (.ttr (xV 0)) s)) 3 0 = (mkDesc 0 4 1 0 false false).toNat := by decide +kernel
/-- An image of 2 rows of 20 .i8 at offset 0x100 of the own cluster: its VERSION, its descriptor, its rows. -/
def wImg (version : Nat) : State :=
  { w [(1, 0x2000000000000100)] with
    mem := { cells := cellsOf (2 * 2 ^ 48 + 0x100) ([version, 0, 0, 0, 0, 0, 0, 0] ++ ((List.range 8).map fun i => (mkDesc 0 2 20 0 false false).toNat / 256 ^ i % 256) ++
      List.replicate 48 0 ++ (List.range 40).map (· + 1)) } }
def xT : Ext := { x0 with d := 2, a := 1, rcnt := 1 }
theorem test_tile_loads : ImageHere (wImg 2) (reg (wImg 2) 1) (bookAt (mkDesc 0 2 20 0 false false) + 32) ∧ ReadyX (wImg 2) xT [1] [2] ∧
    idescOk (BitVec.ofNat 64 ((wImg 2).mem.read (place (wImg 2) (reg (wImg 2) 1) + 8) 8)) 1 = true ∧ descOf (nx (exec (.tldv xT) (wImg 2))) 2 = mkDesc 0 2 20 0 false false ∧
    elemAt (tget (nx (exec (.tld xT) (wImg 2))).dev.tiles 0 65).toNat 8 19 = 40 ∧ elemAt (tget (nx (exec (.tldv xT) (wImg 2))).dev.tiles 0 64).toNat 8 0 = 1 ∧
    trapIs (wImg 2) (.tld { xT with rcnt := 2 }) 0x24 0 = true ∧ (thr (nx (exec (.tldv xT) (wImg 3)))).flight = .request 1 0x100C := by decide +kernel
/-- A retry of TLDV after cycle 32 meets the even VERSION (R170). -/
theorem test_tldv_retry : let t := nx (exec (.tldv xT) (wImg 3))
    let u := { t with mem := (wImg 2).mem, dev := { t.dev with clusters := [(0, { cycle := 40 })] } }
    t.dev.reqs.map (fun r => r.kind) = [.tile (.tldv xT) 4 0 1] ∧ t.dev.reqs.map (fun r => (r.va, r.fail)) = [(0x2000000000000100, none)] ∧
    (∃ r ∈ u.dev.reqs, HasReq u 1 r ∧ Awaited u r 0x100C) ∧ (thr (nx (exec (.tldvRetry 1) u))).pc = 0x100C ∧ elemAt (tget (nx (exec (.tldvRetry 1) u)).dev.tiles 0 65).toNat 8 19 = 40 := by decide +kernel
/-- TST and TST.AON of one row of 4 .i8 at offset 0x200 (R169, R171). -/
theorem test_tile_stores : let s := wV [0, d4 0] [0, row8 [1, 2, 3, 4]] [(1, 0x2000000000000200)]
    let x := { x0 with a := 1, b := 1 }
    let pa := 2 * 2 ^ 48 + 0x200
    let odd := { s with mem := { cells := [(pa, 3)] } }
    ReadyX s x [1] [1] ∧ ImageHere s (reg s 1) (bookAt (d4 0) + 32) ∧ (nx (exec (.tst x) s)).mem.read (pa + 8) 8 = (d4 0).toNat ∧
    (nx (exec (.tst x) s)).mem.read (pa + 64) 8 = 0x04030201 ∧ (nx (exec (.tst x) s)).mem.read pa 8 = 0 ∧ (nx (exec (.tstAon x) s)).mem.read pa 8 = 2 ∧
    trapIs odd (.tstAon x) 0x25 0 = true := by decide +kernel
/-- An ACTIVE gang of one core. -/
def g1 : Gang := { n := 1, st := 2, ctx := 5, knum := 1, timeout := 0, threads := [(0, 0)] }
def wG (s : State) : State := dv s fun d => { d with kernels := [k1], gangs := [(0, g1)], clusters := [(0, { lock := true })] }
theorem test_gang_forms : let x := { x0 with a := 1, d := 3 }
    let s := fun (v : Word) => dv (w [(1, v)]) fun d => { d with kernels := [k1] }
    ReadyX (s 1) x [1] [] ∧ (s 1).dev.gangOf 0 = none ∧ tfind (nx (exec (.mgang x) (s 1))).dev.gangs 0 = some g1 ∧ (thr (nx (exec (.mgang x) (s 1)))).pc = 0x100C ∧
    (thr (nx (exec (.mgang x) (s 2)))).flight = .gang 0x100C ∧ ((tfind (nx (exec (.mgang x) (s 2))).dev.gangs 0).map Gang.st) = some 1 ∧
    trapIs (s 0x101) (.mgang x) 0x28 0 = true ∧ trapIs (s 49) (.mgang x) 0x28 0 = true ∧ Solo (wG (w [])) g1 ∧
    tfind (nx (exec (.mleave x) (wG (w [])))).dev.gangs 0 = none ∧
    goes (.mstat x) (dv (w []) fun d => { d with banks := [(0, { st := 2, wf := 10, valid := 5 })], slices := [(0, { mflags := 2 })] })
      (wrote (dv (w []) fun d => { d with banks := [(0, { st := 2, wf := 10, valid := 5 })], slices := [(0, { mflags := 2 })] }) 3 3 0x14200050000) = true := by
  decide +kernel
/-- An activation row 2, 3 of .bf16, weights 4 and 1/2 in column 0 of slot 0, over 1 in a1: 1 + 8 + 1.5 = 10.5 (R96, R200). -/
theorem test_mma : let s := dv (wG (wV [0, mkDesc 10 1 2 0 false false] [0, 0x40404000] [])) fun d =>
      { d with accs := [(accKey 0 1 0 0, 0x3F800000)], banks := [(0, { st := 2, wf := 10, valid := 1, data := [(0, 0x3F004080)] })] }
    let x := { x0 with d := 1, a := 1, sfmt := 10 }
    Solo s g1 ∧ Calm s ∧ ReadyX s x [] [1] ∧ Fits s x [(1, 10)] ∧ bankServes s.dev 0 10 0 = true ∧ acc (nx (exec (.mma x) s)) 1 0 0 = 0x41280000 ∧
    acc (nx (exec (.mma x) s)) 1 0 1 = 0 ∧ acc (nx (exec (.mzero x) s)) 1 0 0 = 0 ∧
    runs (.wswap x) (dv s fun d => { d with banks := [(1, { st := 2 })] }) = true ∧ (nx (exec (.wswap x) (dv s fun d => { d with banks := [(1, { st := 2 })] }))).dev.active 0 = 1 := by
  decide +kernel
/-- MDRAIN of a0 as .f32, clearing the rows; WLD of column group 0, .e4m3, 256 bytes a column. -/
theorem test_drain_and_weights : let s := dv (wG (wV [mkDesc 9 1 8 0 false false] [0] [(1, 0x2000000000000100), (2, 16)])) fun d => { d with accs := [(accKey 0 0 0 3, 0x40400000)] }
    let x := { x0 with dfmt := 9, imm := 0x40 }
    ReadyX s x [] [0] ∧ Fits s x [(0, 9)] ∧ el (nx (exec (.mdrain x) s)) 0 32 3 = 0x40400000 ∧ acc (nx (exec (.mdrain x) s)) 0 0 3 = 0 ∧
    acc (nx (exec (.mdrain { x with imm := 0, lit := some 0x40 }) s)) 0 0 3 = 0 := by decide +kernel
/-- A WLD of column group 0, .e4m3, 256 bytes a column, meets its hypotheses. -/
theorem test_weights_here : let s := wG (wV [] [] [(1, 0x2000000000000100), (2, 16)])
    let y := { x0 with d := 2, a := 1, dfmt := 12 }
    Solo s g1 ∧ ReadyX s y [2, 1] [] ∧ (∀ o, o < 2048 → inWindow (s.dev.core (s.dev.cur / 64)).cmwin ((reg s 1).toNat % 2 ^ 22 + o) = true) ∧
    s.mem.anyPoison (place s (reg s 1)) 2048 = false ∧ s.boot.hasCluster 0 = true ∧ s.dev.pendingAccess 0 = false ∧ Calm s := by
  intro s y
  refine ⟨by decide +kernel, by decide +kernel, fun o h => ?_, by decide +kernel⟩
  have e : (s.dev.core (s.dev.cur / 64)).cmwin = 0x40 ∧ (reg s 1).toNat % 2 ^ 22 = 0x100 ∧ wbits 0x40 13 8 = 0 ∧ wbits 0x40 6 0 = 64 := by decide +kernel
  unfold inWindow; rw [e.1, e.2.1, e.2.2.1, e.2.2.2]; simp; omega
theorem test_gang_barrier : let x := { x0 with a := 1, d := 2 }
    let a := fun (p : Nat) (i : Instr) => { pos := p, tid := p * 64, instr := i, guard := true, vals := [] : Arrival }
    let s := fun (i : Instr) => dv (w []) fun d =>
      { d with kernels := [k1], threads := [(0, { th0 with flight := .gang 0x100C }), (64, { th0 with flight := .gang 0x100C })],
               accs := [(accKey 1 2 0 0, 5)], gangs := [(0, { g1 with n := 2, threads := [(0, 0), (1, 64)], arrivals := [a 0 (.mzero x), a 1 i] })] }
    Alone (w []) ∧ trapIs (w []) (.mzero x) 0x26 0 = true ∧ tget (nx (exec (.gangBarrierRelease 0) (s (.mzero x)))).dev.accs 0 (accKey 1 2 0 0) = 0 ∧
    ((nx (exec (.gangBarrierRelease 0) (s (.mzero x)))).dev.thread 64).pc = 0x100C ∧
    ((nx (exec (.gangBarrierRelease 0) (s (.mma x)))).dev.thread 64).faultInfo.toNat % 2 ^ 16 = 0x29 ∧
    (let u := dv (w []) fun d => { d with gangs := [(0, { g1 with n := 2, threads := [(0, 0), (1, 64)] })] }
     (thr (nx (exec (.mzero x) u))).flight = .gang 0x100C ∧ ((tfind (nx (exec (.mzero x) u)).dev.gangs 0).map fun g => g.arrivals) = some [a 0 (.mzero x)]) ∧
    (let m : Mma := { instr := .mma x, acc := 2, row0 := 0, rcnt := 1, begun := true, res := [(accKey 0 2 0 0, 9)] }
     tget (nx (exec (.mmaComplete 0) (dv (w []) fun d => { d with gangs := [(0, { g1 with mmas := [m] })] }))).dev.accs 0 (accKey 0 2 0 0) = 9 ∧
     runs (.mmaBegin 0) (dv (w []) fun d => { d with gangs := [(0, { g1 with mmas := [{ m with begun := false }] })] }) = true) ∧
    (let u := dv (w []) fun d => { d with kernels := [k1], threads := [(0, { th0 with flight := .gang 0x100C })], gangs := [(0, { g1 with n := 2, st := 1, timeout := 3, threads := [], arrivals := [a 0 (.mgang x)] })] }
     (thr (nx (exec (.mgangTimeout 0) u))).faultInfo = 0x10028 ∧ tfind (nx (exec (.mgangTimeout 0) u)).dev.gangs 0 = none) := by
  decide +kernel
/-- The header of a sealed tensor, .e4m3, NSTEP 2, NCB 3, IVP 1 to 8, with its tag under the key of zeros. -/
def sealHdr : List Nat :=
  List.replicate 8 0 ++ [12, 0, 0, 0, 2, 0, 0, 0, 3, 0, 0, 0, 0, 0, 0, 0, 1, 2, 3, 4, 5, 6, 7, 8] ++ List.replicate 80 0 ++
    [169, 94, 92, 60, 131, 50, 3, 192, 226, 214, 192, 107, 247, 37, 170, 122]
def sealPte : Word := 0xD600000000000000
/-- It lies at the start of a page of class Strongroom. -/
def wSeal : State :=
  let s := wG (wTlb sealPte [(1, 0x6000000000000000), (2, 0x10), (3, 0)])
  { s with mem := { cells := cellsOf (leafPa sealPte false 0) sealHdr }, dev := { s.dev with ctxs := [(5, { (s.dev.ctx 5) with keyW := [(0, 0)] })] } }
theorem test_srq : let x := { x0 with d := 3, a := 1 }
    ReadyX wSeal x [3, 1] [] ∧ SealedAddr (reg wSeal 1) ∧ (nx (exec (.srq x) wSeal)).dev.getG 0 3 = 0x10C8000300000002 := by decide +kernel
/-- The tag holds, and with a wrong one the header trap is DETAIL 1 (R356). -/
theorem test_header : headerFault ⟨ofLe sealHdr⟩ 0 0x10 0 = none := by decide +kernel
theorem test_wlds_ready : let x := { x0 with d := 2, a := 1, b := 3 }
    ReadyX wSeal x [2, 1, 3] [] ∧ Solo wSeal g1 ∧ wSeal.dev.pendingAccess 0 = false ∧ tfind (wSeal.dev.ctx (wSeal.dev.ctxOf 0)).keyW 0 = some 0 ∧
    (match locateSealed wSeal.boot wSeal.live 0 5 (reg wSeal 1) (chunkGranules 2 0 0 1) with
      | .all _ ps => ps.length == 280 && (ps.head?.map fun p => p.pa) == some (leafPa sealPte false 128)
      | _ => false) = true ∧
    (match locateSealed wSeal.boot wSeal.live 0 5 (reg wSeal 1) (granulesOf 0 128) with
      | .all _ ps => ps.length == 8 && !ps.any fun p => wSeal.mem.anyPoison p.pa p.n
      | _ => false) = true := by decide +kernel
/-- A WLD's reads are done, or have failed; a chunk whose key is not installed (R198, R199, R358). -/
theorem test_bank_loads : let x := { x0 with dfmt := 12 }
    let r := fun (f : Option (Nat × Nat × Bool)) => { rq (.weights 0 1 (.wld x) 0 1) with fail := f }
    ((nx (exec (.wldReadsDone 0) (wR [r none] []))).dev.bank 0 1).st = 2 ∧ ((nx (exec (.wldReadsDone 0) (wR [r (some (0x44, 0, false))] []))).dev.bank 0 1).st = 3 ∧
    (let q := { rq (.chunks 0 1 false 0 0 1 0 2 0 0x6000000000000000) with parts := List.replicate 43 { pa := 0, n := 16, done := true } }
     LoadOf (wR [q] []) 0 q ∧ ((nx (exec (.weightChunkVerify 0) (wR [q] []))).dev.bank 0 1).held = some (0x69, 0x6000000000000080)) := by decide +kernel
/-- An endpoint entry in slot 0 of context 5: another cluster, 1. -/
def wEp (regs : List (Nat × Word)) : State :=
  dv (w regs) fun d => { d with ctxs := [(5, { st := 3, endpoints := [(0, 0x8000000001000000)] })], copies := [(1, { cluster := 0, ctx := 5, gen := 2, st := 2, fcause := 0, ep := 0, lat := 9, slots := [(0, 1), (0, 5)] })] }
/-- Circuit 1, generation 2, of cluster 0. -/
def ch1 : Word := 0x8000020000100000
theorem test_circuit_requests : let x := { x0 with d := 3, a := 1, b := 2 }
    let s := wEp [(1, 0), (2, 0x100002)]
    ReadyX s x [3, 1, 2] [] ∧ Limits (reg s 2) 2 16 0 ∧ s.live.endpoint 5 0 0 = 0x8000000001000000 ∧ CanAsk s ∧
    (nx (exec (.copen x) s)).dev.reqs.map (fun r => (r.kind, r.dest)) = [(.circuit 0 0 0x100002 0 3 0, .gateway 1 38)] ∧ (thr (nx (exec (.copen x) s))).lacks 3 = true ∧
    (thr (nx (exec (.copen x) s))).pc = 0x100C ∧ trapIs (wEp [(1, 1), (2, 2)]) (.copen x) 0xC0 3 = true ∧ trapIs (wEp [(1, 0), (2, 0)]) (.copen x) 0xC0 1 = true ∧
    NamesCopy (wEp [(1, ch1), (2, 3)]) ch1 { cluster := 0, ctx := 5, gen := 2, st := 2, fcause := 0, ep := 0, lat := 9, slots := [(0, 1), (0, 5)] } ∧
    (nx (exec (.cresize x) (wEp [(1, ch1), (2, 3)]))).dev.reqs.map (fun r => r.kind) = [.circuit 1 ch1 3 1 1 0] ∧
    (nx (exec (.cclose x) (wEp [(1, ch1)]))).dev.reqs.map (fun r => r.kind) = [.circuit 2 ch1 0 1 1 0] ∧ trapIs (wEp [(1, 1)]) (.cclose x) 0xC0 2 = true ∧
    trapIs (wEp [(1, 0x8000020000104000)]) (.cclose x) 0xC0 1 = true ∧
    goes (.cquery x) (wEp [(1, ch1)]) (wrote (wEp [(1, ch1)]) 3 3 0x2000000200090004) = true := by decide +kernel
theorem test_circuit_answer : let r := { rq (.circuit 0 0 2 0 3 0) with stage := .replied, out := ch1 }
    Came (wR [r] []) r true ∧ (nx (exec (.circuitAnswer 1) (wR [r] []))).dev.getG 0 3 = ch1 ∧ (nx (exec (.circuitAnswer 1) (wR [r] []))).dev.reqs = [] := by decide +kernel
/-- A flit at cluster 0's router from its endpoint port in slot 3 goes east; nothing is set up for slot 4 (R29, R30). -/
theorem test_flits : let f := fun (slot : Nat) => { id := 1, cnum := 1, rev := false, payload := .burst 7 8, pos := some (0, 0, 4, slot, 10) : Flit }
    let s := fun (slot : Nat) => dv (wEp []) fun d => { d with flits := [f slot], links := { d.links with active := [((1 * 8) * 1024 + 3, 0x84)] } }
    (s 3).live.outputsFor 0 0 4 3 = [1] ∧ (nx (exec (.flitArrival 1 false) (s 3))).dev.flits = [{ f 3 with pos := some (0, 1, 3, 4, 10) }] ∧
    (nx (exec (.flitArrival 1 false) (s 4))).dev.flits = [] ∧ tget (nx (exec (.flitArrival 1 false) (s 4))).dev.links.rtrstat 0 0 = 1 ∧
    ((nx (exec (.circuitInject 1 false 1) (dv (wEp []) fun d => { d with flits := [{ f 0 with pos := none }], circuits := [(1, { st := 2, gen := 2 })] }))).dev.flits.map fun f => f.pos) =
      [some (0, 0, 4, 1, 0)] := by decide +kernel
/-- A change of circuit 1 whose entry writes have come to router 0; its acknowledgement; its commit; its switch (R35 to R37). -/
theorem test_circuit_change : let c : Change := { fwd := [(0, 5)], rev := [], wins := [], routers := [0], waiting := [0], turn := some 9, close := false }
    let s := fun (m : List CfgMsg) (c : Change) => dv (wEp []) fun d =>
      { d with cfg := m, circuits := [(1, { st := 3, gen := 2, ctx := 5, change := some c })], links := { d.links with commits := [(0, 9)], shadow := [(8197, 0x84)], winShadow := [(3, 4)] } }
    let none_ := fun (m : List CfgMsg) => dv (s m c) fun d => { d with links := {} }
    let at0 := fun (k : CfgKind) => [{ id := 1, cnum := 1, at_ := 0, dest := 0, kind := k, turn := 3 : CfgMsg }]
    let a := nx (exec (.configFlitReceive 1) (none_ (at0 (.writes [(0, 1, 0, 5, 0x84)] []))))
    let bad := nx (exec (.configFlitReceive 1) (none_ (at0 (.writes [(0, 1, 0, 5, 0x85)] []))))
    let done := nx (exec (.switchTurn 9) (s [] c))
    tget a.dev.links.shadow 0 8197 = 0x84 ∧ (a.dev.cfg.map fun m => (m.kind, m.dest)) = [(.ack [0], 193)] ∧
    badPort 0 5 = true ∧ bad.dev.links.shadow = [] ∧ Recorded bad 0 0xC7 ∧
    tget (nx (exec (.configFlitReceive 1) (none_ (at0 (.writes [] [(2, 3, 5)]))))).dev.links.winShadow 0 259 = 5 ∧
    ((circ (nx (exec (.configAckReceive 1) (s [{ id := 1, cnum := 1, at_ := 193, dest := 193, kind := .ack [0], turn := 3 }] { c with turn := none }))) 1).change.map
      fun c => (c.waiting, c.turn.isSome)) = some ([], true) ∧
    (nx (exec (.commitReceive 1) (none_ (at0 (.commit 9))))).dev.links.commits = [(0, 9)] ∧ (nx (exec (.commitReceive 1) (none_ (at0 (.commit 2))))).dev.links.commits = [] ∧
    (circ done 1).st = 2 ∧ ((tfind done.dev.copies 1).map NiCopy.slots) = some [(0, 5)] ∧ tget done.dev.links.active 0 8197 = 0x84 ∧
    circ (nx (exec (.switchTurn 9) (s [] { c with close := true }))) 1 = { gen := 3 } ∧
    ((circ (nx (exec (.injectStop 1) (s [] c))) 1).change.map Change.stopped) = some true ∧
    ((nx (exec (.configFlitForward 1) (none_ [{ id := 1, cnum := 1, at_ := 0, dest := 1, kind := .commit 9, turn := 3 }]))).dev.cfg.map fun m => (m.at_, m.turn)) = [(1, 4)] := by decide +kernel
/-- A message on its first hop from cluster 0 to cluster 1, with a place on the link (R40 to R42). -/
theorem test_relay : let r := { rq (.rput 512 3 7 false) with stage := .going, dest := .cluster 1 }
    let m : Msg := { id := 2, ctx := 5, req := 1, back := false, path := [(0, 1)], node := 0, dest := .cluster 1, flits := 1 }
    let s := fun (m : Msg) => dv (wR [r] []) fun d => { d with msgs := [m], links := { d.links with places := [(placeKey 0 1 0, 5), (placeKey 1 3 0, 5)] } }
    let t := nx (exec (.relayFlitSend 0 1 5) (s m))
    (s m).live.outQueue 0 1 5 = [m] ∧ linkOk boot0 (s m).live 0 1 = true ∧ (s m).live.holdsPlace boot0 0 1 5 = true ∧
    (t.dev.msgs.map fun m => (m.node, m.path, m.came)) = [(1, [], some (0, 1))] ∧ (t.live.credit 0 1 5).held = 7 ∧
    ((nx (exec (.relayMessageAccept 2) t)).dev.reqs.map fun r => r.stage) = [.home] ∧
    (let u := dv (s m) fun d => { d with msgs := [], credits := [(linkKey 0 1 5, { held := 6, owed := 2 })] }
     let of := fun (t : State) => let c := t.live.credit 0 1 5; (c.held, c.owed, c.flying)
     of (nx (exec (.creditReturnSend 1 3 5) u)) = (6, 0, 2) ∧ of (nx (exec (.creditReturnReceive 0 1 5) (nx (exec (.creditReturnSend 1 3 5) u)))) = (8, 0, 0)) ∧
    (w []).live.holdsPlace boot0 192 26 5 = false ∧ (w []).live.freeLinkPlace boot0 192 26 = some 0 ∧
    (nx (exec (.relayPlaceRequest 5 { links := [(192, 26)] }) (w []))).live.placeOwner 192 26 0 = 5 ∧
    goes (.relayPlaceRequest 5 { links := [(0, 1)] }) (s m) (s m) = true := by decide +kernel
/-- A request of cluster 0 to the connection manager, with these circuits. -/
def wCm (op : Nat) (a lim : Word) (cnum : Nat) (cs : List (Nat × Circuit)) : State :=
  dv (wEp []) fun d => { d with reqs := [{ rq (.circuit op a lim cnum 3 0) with dest := .gateway 1 38 }], fresh := 9, circuits := cs }
/-- COPEN of two flits a wheel on plane 0 from cluster 0 to cluster 1 (R282, R283); CRESIZE to the same number, of a stale handle; CCLOSE of an ACTIVE and of
a FAILED circuit (R289). -/
theorem test_connection_manager : let s := wCm 0 0x100 2 0 []
    let t := nx (exec (.cmRequest 1) s)
    let c : Circuit := { st := 2, gen := 2, ctx := 5, fwd := { slots := [(0, 1), (0, 5)] } }
    let outs := fun (t : State) => t.dev.reqs.map fun r => (r.out, r.stage)
    s.dev.cmDown = false ∧ HasReq s 1 { rq (.circuit 0 0x100 2 0 3 0) with dest := .gateway 1 38 } ∧ s.live.changing = false ∧
    circuitEnd boot0 s.live 0 (s.live.endpoint 5 0 0) = some (.cluster 1) ∧ (circ t 1).st = 1 ∧ (circ t 1).fwd.hops.map (fun h => (h.1, h.2.1)) = [(0, 1), (1, 4)] ∧
    ((circ t 1).change.map fun c => c.fwd.length) = some 2 ∧
    outs (nx (exec (.cmRequest 1) (wCm 1 ch1 2 1 [(1, c)]))) = [(ch1, .back)] ∧ outs (nx (exec (.cmRequest 1) (wCm 1 0x8000010000100000 2 1 [(1, c)]))) = [(0xA800010000100000, .back)] ∧
    (let less := circ (nx (exec (.cmRequest 1) (wCm 1 ch1 1 1 [(1, c)]))) 1
     less.st = 3 ∧ (less.change.map fun c => c.fwd) = some [(0, 1)] ∧ less.fwd.slots = c.fwd.slots) ∧
    (let res := fun (f : Ctx → Ctx) (lim : Word) => outs (nx (exec (.cmRequest 1) (dv (wCm 0 0x100 lim 0 []) fun d => { d with ctxs := [(5, f (d.ctx 5))] })))
     res (fun c => { c with st := 6 }) 2 = [(0x2800000000000000, .back)] ∧ res (fun c => { c with endpoints := [] }) 2 = [(0x1800000000000000, .back)] ∧
     res id 9 = [(0x0800000000000000, .back)] ∧ res id 0x10001 = [(0x1000000000000000, .back)]) ∧
    (circ (nx (exec (.cmRequest 1) (wCm 2 ch1 0 1 [(1, c)]))) 1).st = 4 ∧ circ (nx (exec (.cmRequest 1) (wCm 2 ch1 0 1 [(1, { c with st := 6 })]))) 1 = { gen := 3 } := by
  decide +kernel
theorem test_manager_peers : let p : PeerRequest := { pkg := 1, cnum := 1, port := 0, kind := .answer 0 7 4 [] 0 }
    let s := wCm 0 0 0 0 [(1, { st := 1, gen := 2, ctx := 5, peer := some 3 })]
    circ (nx (exec (.cmPeerRequest p) (wCm 0 0 0 0 [(1, { st := 1, gen := 2, ctx := 5, peer := some 3, maxlat := 3 })]))) 1 = { gen := 3 } ∧
    (nx (exec (.cmPeerRequest { p with kind := .plan 5 0x8000000001000000 [(0, 2)] 1 0 false false }) (w []))).dev.out = [.peer 1 1 (.answer 3 0 0 [] 0)] ∧
    (circ (nx (exec (.cmPeerRequest p) s)) 1).far = 4 ∧ (circ (nx (exec (.cmPeerRequest p) s)) 1).other.isSome = true ∧
    circ (nx (exec (.cmPeerRequest { p with kind := .answer 3 0 0 [] 0 }) s)) 1 = { gen := 3 } ∧
    circ (nx (exec (.cmPeerTimeout 1) s)) 1 = { gen := 3 } ∧ (nx (exec (.cmPeerTimeout 1) s)).dev.slots = 8024 ∧
    (let q : PeerRequest := { p with kind := .plan 5 0x8000000001000000 [(0, 2)] 1 0 false false }
     let t := nx (exec (.cmPeerRequest q) (dv (w []) fun d => { d with links := { d.links with trkwhl := [(0, 0x4000000000020000)] } }))
     (circ t 1).st = 1 ∧ (circ t 1).src = 192 ∧ (circ t 1).isFar = true ∧ (circ t 1).change.isSome = true) ∧
    (let c : Change := { fwd := [], rev := [], wins := [], routers := [0], waiting := [0], turn := none, close := false }
     let u := wCm 0 0 0 0 [(1, { st := 1, gen := 2, ctx := 5, other := some (1, 7, 0), change := some c })]
     (circ (nx (exec (.cmPeerRequest { p with kind := .turn 30 }) u)) 1).change = some { c with theirs := some 30 } ∧
     (circ (nx (exec (.cmPeerRequest { p with kind := .failed 2 }) (wCm 0 0 0 0 [(1, { st := 2, gen := 2, ctx := 5, other := some (1, 7, 0) })]))) 1).st = 6) := by decide +kernel
theorem test_failures : let s := dv (w []) fun d => { d with circuits := [(1, { st := 2, gen := 2, ctx := 5 })], msgs := [], links := { d.links with failed := [(0, 1), (1, 3)] } }
    goes (.linkFail 0 1 7) s s = true ∧ (nx (exec (.linkFail 1 1 7) s)).dev.links.failed.contains (2, 3) = true ∧ (nx (exec .routeRecompute s)).dev.links.routed = [(0, 1), (1, 3)] ∧
    (circ (nx (exec (.ueTransportFail 1) s)) 1).st = 6 ∧ Recorded (nx (exec (.ueTransportFail 1) s)) 5 0xC1 ∧
    tget (nx (exec (.rtrstatWrite 3 0) (dv s fun d => { d with links := { d.links with rtrstat := [(3, 0x100000007)] } }))).dev.links.rtrstat 0 3 = 0x100000000 := by decide +kernel
/-- A package whose die 8, LPDDR-6 channel 3 and link 0 fail; the image fails; FWRLD; the clock of cluster 0 (R17 to R23, R331, R18). -/
def ba : BootArgs :=
  { imageOk := true, failedLinks := [], failedChannels := [3], hbmRate := 0, whldesc := 0x8000000802008003, log2b := 10, pkg := 4, homes := [], trecoRoutes := [], peers := [], fillLimit := false }
theorem test_cold_boot : let t := nx (exec (.coldBoot ba) (w []))
    (nx (exec (.coldBoot { ba with imageOk := false }) (w []))).boot.status = 2 ∧ t.boot.status = 1 ∧ t.boot.pkg = 4 ∧ t.boot.hasChannel 3 = false ∧ t.boot.hasChannel 4 = true ∧ t.boot.hasCluster 191 = true ∧
    t.dev.threads = [] := by decide +kernel
theorem test_clock : let s := dv (w []) fun d => { d with sched := { d.sched with fwrld := 0x8000000000000000 } }
    wbits (nx (exec (.fwrldWrite 4096) s)).dev.sched.fwrld 63 62 = 1 ∧ goes (.fwrldWrite 0) s s = true ∧
    ((nx (exec (.setptWrite 0 0x2000) s)).dev.cluster 0).setpt = 32 ∧ ((nx (exec (.setptWrite 0 0x2000) s)).dev.cluster 0).busy = true ∧
    ((nx (exec (.setptWrite 0 0x1D00) s)).dev.cluster 0).err = true ∧
    ((nx (exec (.setptChangeDone 0) (nx (exec (.setptWrite 0 0x2000) s)))).dev.cluster 0).freq = 32 ∧ ((nx (exec (.supplyDroop 0 31 false) s)).dev.cluster 0).freq = 31 := by decide +kernel
theorem test_treco : let s := fun (st : Nat) => dv (w []) fun d => { d with links := { d.links with trkctl := [(2, BitVec.ofNat 64 (st * 2 ^ 60))] } }
    let ctl := fun (t : State) => wbits (tget t.dev.links.trkctl 0 2) 63 60
    ctl (nx (exec (.trecoTrained 2 true true 3 4) (s 1))) = 2 ∧ ctl (nx (exec (.trecoTrained 2 false true 3 4) (s 1))) = 5 ∧ ctl (nx (exec (.trecoRetrain 2) (s 5))) = 1 ∧
    ctl (nx (exec (.trecoLaneFail 2) (s 3))) = 5 ∧ ctl (nx (exec (.trecoAlign 2 100 1 0) (s 2))) = 2 ∧
    wbits (tget (nx (exec (.ptpExchange 2 100) (s 3))).dev.links.trkwhl 0 2) 55 40 = 100 ∧ Recorded (nx (exec (.ieee1588Lost 2) (s 3))) 0 0xD6 ∧
    wbits (tget (nx (exec (.trkwhlWrite 2 0x50000) (s 2))).dev.links.trkwhl 0 2) 23 16 = 5 := by decide +kernel
theorem test_links : let s := dv (w []) fun d => { d with links := { d.links with lnkstat := [(1, 0x1000000400000000)] } }
    wbits (s.live.lnkstat 1) 63 60 = 1 ∧ goes (.laneErrorThreshold 2 0) s s = true ∧
    tget (nx (exec (.laneErrorThreshold 1 256) s)).dev.links.repairs 0 (4096 + 66) = 1 ∧
    wbits (tget (nx (exec (.laneErrorThreshold 1 256) (dv s fun d => { d with links := { d.links with repairs := [(66, 4)] } }))).dev.links.lnkstat 0 1) 63 60 = 2 ∧
    tget (nx (exec (.laneRepairApply 1) (nx (exec (.laneErrorThreshold 1 256) s)))).dev.links.repairs 0 66 = 1 ∧
    wbits ((nx (exec (.uePortUp 3) s)).live.uestat 3) 63 60 = 1 ∧ Recorded (nx (exec (.uePortDown 3) s)) 0 0xCE ∧ (nx (exec .hostLinkUp s)).dev.hostUp = true ∧
    (nx (exec .hostLinkDown s)).dev.hostUp = false ∧ Recorded (nx (exec .ideIntegrityFail s)) 0 0xF4 ∧ (let u := nx (exec .ideIntegrityFail (dv s fun d => { d with sessions := [(1, false)], links := { d.links with hlstat := 0x9000000000000000 } }))
     (nx (exec .ideKeyProgram u)).dev.hostUp = true ∧ (nx (exec .ideKeyProgram { u with dev := { u.dev with sessions := [] } })).dev.hostUp = false) ∧
    (nx (exec (.hbmrateRequest 1) s)).dev.links.rateTo = some 1 ∧ (nx (exec .hbmRateStallBegin (nx (exec (.hbmrateRequest 1) s)))).dev.slots = 256 ∧
    wbits (nx (exec .hbmRateSwitchDone (nx (exec .hbmRateStallBegin (nx (exec (.hbmrateRequest 1) s)))))).dev.links.hbmrate 17 16 = 1 ∧ (nx (exec (.hbmRefresh 5) s)).dev.slots = 16 ∧
    tget (nx (exec (.lnkstatWrite 1 0) (dv s fun d => { d with links := { d.links with lnkstat := [(1, 0x400000009)] } }))).dev.links.lnkstat 0x400000000 1 = 0x400000000 ∧
    wbits ((nx (exec (.uestatWrite 1 0) s)).live.uestat 1) 31 0 = 0 ∧ wbits ((nx (exec (.lpstatWrite 1 0) s)).live.lpstat 1) 31 0 = 0 := by decide +kernel
theorem test_fence_and_eyes : let s := dv (w []) fun d => { d with links := { d.links with lpstat := [(3, 0x1000000000000000)], trkctl := [(0, 0x3000000000000000)] } }
    wbits (tget (nx (exec (.lpddrFence 3) s)).dev.links.lpstat 0 3) 63 60 = 2 ∧ Recorded (nx (exec (.lpddrFence 3) s)) 0 0x54 ∧
    wbits ((nx (exec (.eyeMonitorWrite 1 0x4014280000000000) s)).live.eye 1) 55 48 = 0x14 ∧ s.live.laneLive 0 = true ∧
    ((nx (exec (.eyeSample 0 9 50) (nx (exec (.eyeMonitorWrite 0 0x4014280000000000) s)))).live.eye 0).getLsbD 63 = true := by decide +kernel
/-- A request of thread 0 for a granule at its home. -/
def rM (op : MemOp) (pa : Nat) (wr : Bool) : Req := { rq (.mem op 3) with parts := [{ pa, n := 8, write := wr }], va := 0x3000000000400100 }
def wM (op : MemOp) (pa : Nat) (wr : Bool) : State :=
  { wR [{ rM op pa wr with va := if pa < 2 ^ 49 then 0 else 0x2000000000400100 }] [] with mem := { cells := cellsOf pa [5, 6] } }
/-- In a bank of cluster 1, at HBM4 pseudo-channel 1 and at LPDDR-6 channel 0 (R44, R412). -/
theorem test_requests_served : let pa := 2 * 2 ^ 48 + 2 ^ 22 + 0x100
    let out := fun (t : State) => t.dev.reqs.map fun r => r.out
    let queued := fun (pa : Nat) => nx (exec (.dramRequestArrive 1 0) (wM (.load 8 false) pa false))
    (wM (.load 8 false) pa false).mem.anyPoison pa 8 = false ∧
    HasReq (wM (.load 8 false) pa false) 1 { rM (.load 8 false) pa false with va := 0x2000000000400100 } ∧ (paHome boot0 pa).isSome = true ∧
    out (nx (exec (.homeRequestArrive 1 0 false) (wM (.load 8 false) pa false))) = [0x605] ∧
    (nx (exec (.homeRequestArrive 1 0 false) (wM (.store 8 0x77) pa true))).mem.read pa 8 = 0x77 ∧
    (nx (exec (.homeRequestArrive 1 0 false) (wM (.amo 8 7 9 0) pa true))).mem.read pa 8 = 9 ∧
    chanOf 16 = 1 ∧ (queued 0x100).live.dramQueue 1 = [(1, 0)] ∧ out (nx (exec (.hbmAccessWindow 1 0 false) (queued 0x100))) = [0x605] ∧
    (nx (exec (.hbmAccessWindow 1 0 false) (queued 0x100))).live.dramQueue 1 = [] ∧
    (let u := dv (queued 0x100) fun d => { d with links := { d.links with windows := [(128, 5)] }, ctxs := [(5, { st := 3, prot := true })] }
     (nx (exec (.hbmAccessWindow 1 0 true) u)).mem.isPoisoned 16 = true ∧ (nx (exec (.hbmAccessWindow 1 0 true) u)).dev.reqs.map (fun r => r.fail) = [some (0xE0, 0, false)]) ∧
    out (nx (exec (.lpddrServe 0 false) (queued (2 ^ 48)))) = [0x605] := by decide +kernel
theorem test_replies : let s := fun (r : Req) => dv (wR [{ r with stage := .replied }] []) fun d => { d with ctxs := [] }
    let relaxed := fun (k : ReqKind) => dv (w []) fun d => { d with kernels := [k1], reqs := [{ rq k with cls := .relaxed, stage := .replied, out := 42 }], fresh := 9 }
    (thr (nx (exec (.remoteReplyArrive 1) (s { rM (.load 8 false) 0 false with out := 42 })))).pc = 0x100C ∧
    (nx (exec (.remoteReplyArrive 1) (s { rM (.load 8 false) 0 false with out := 42 }))).dev.getG 0 3 = 42 ∧
    (nx (exec (.remoteReplyArrive 1) (relaxed (.mem (.load 8 false) 3)))).dev.getG 0 3 = 42 ∧ (thr (nx (exec (.remoteReplyArrive 1) (relaxed (.mem (.load 8 false) 3))))).pc = 0x1000 ∧
    (thr (nx (exec (.storeAckArrive 1) (s (rM (.store 8 1) 0 true))))).pc = 0x100C ∧ (nx (exec (.storeAckArrive 1) (relaxed (.mem (.store 8 1) 0)))).dev.reqs = [] ∧
    (let u := dv (w []) fun d => { d with kernels := [k1], reqs := [{ rq (.mem (.red 0 7 1) 0) with cls := .red, stage := .replied, flags := 1 }] }
     (thr (nx (exec (.redAckArrive [1]) u))).status = 1 ∧ (nx (exec (.redAckArrive [1]) u)).dev.reqs = []) ∧
    (let r := { rM (.load 8 false) 0 false with stage := .back, fail := some (0x47, 3, false) }
     let u := dv (wR [r] []) fun d => { d with msgs := [{ id := 3, ctx := 5, req := 1, back := true, path := [], node := 0, dest := .cluster 0, flits := 1 }] }
     Came u r true ∧ (thr (nx (exec (.relayFailureReport 1 false) u))).faultInfo = 0x30047) := by decide +kernel
/-- R318, R322, R324, R418. -/
theorem test_device_writes : let s := dv (w []) fun d => { d with ctxs := [(5, { st := 3 })], sched := { d.sched with fwrld := 0xC000000000000000, queues := [(3, { st := 2, tail := 7 })] } }
    let cfg : Word := 0x8000050004000000
    ((nx (exec (.qcfgWrite 3 cfg) s)).live.queue 3).cfg = cfg ∧ ((nx (exec (.qcfgWrite 3 cfg) s)).live.queue 3).head = 7 ∧
    goes (.qcfgWrite 3 cfg) (nx (exec (.qcfgWrite 3 cfg) s)) (nx (exec (.qcfgWrite 3 cfg) s)) = true ∧ ((nx (exec (.qcfgWrite 3 0x8000050003000000) s)).live.queue 3).cfg = 0x50003000000 ∧
    ((nx (exec (.fqcfgWrite 5 0x8004000000000000) s)).dev.collector 5).cfg = 0x8004000000000000 ∧ ((nx (exec (.fqcfgWrite 5 0x8003000000000000) s)).dev.collector 5).cfg = 0x3000000000000 ∧
    (nx (exec (.owncfgWrite 4 0x10009) s)).live.weight 4 = 9 ∧ ((nx (exec (.owncfgWrite 4 0x10009) s)).live.queue 3).st = 1 ∧
    (nx (exec (.registerWrite 0xE0000000010000C0 cfg) s)).live.queue 3 = (nx (exec (.qcfgWrite 3 cfg) s)).live.queue 3 ∧ goes (.registerWrite 8 5) s s = true ∧
    goes (.registerWrite 0xE000000000200000 0x802004003) s s = true ∧
    (nx (exec (.registerWrite 0xE000000000200000 0x8000000802004003) { s with boot := { s.boot with whldesc := 0 } })).boot.whldesc = 0x802004003 := by decide +kernel
/-- A copy shape in the own cluster's memory at 0x100, named by register 3; ga and gb are on path 0x2. -/
def wShape (bs : List Nat) : State :=
  { dv (w [(1, 0x2000000000001000), (2, 0x2000000000002000), (3, 0x2000000000000100)]) fun d => { d with kernels := [k1], ctxs := [(5, { st := 3, adom := 1, attached := [(0, 0, 0, 64)] })] } with
    mem := { cells := cellsOf (2 * 2 ^ 48 + 0x100) bs } }
def xJ : Ext := { x0 with d := 4, a := 1, b := 2, c := 3 }
/-- 64 bytes, two items. -/
def copy2 : List Nat := [64, 0, 0, 0, 2, 0, 0, 0, 1, 0, 0, 0]
theorem test_enqueues : let s := wShape copy2
    let t := nx (exec (.cpy xJ) s)
    let kinds := fun (t : State) => t.dev.jobs.map fun e => (e.2.kind, e.2.count)
    ReadyX s xJ [4, 1, 2, 3] [] ∧ s.dev.kernel? 5 1 = some k1 ∧ drawJid s.dev k1 0 = some (0, 0) ∧ s.dev.copyRoom 0 0 = true ∧ kinds t = [(0, 2)] ∧
    t.dev.getG 0 4 = 0x8000000000000000 ∧ kinds (nx (exec (.cpyg xJ) s)) = [(1, 2)] ∧ kinds (nx (exec (.cpys xJ) s)) = [(2, 2)] ∧ kinds (nx (exec (.qfence xJ) t)) = [(0, 2), (6, 0)] ∧
    (nx (exec (.qfence xJ) t)).dev.getG 0 4 = 0x8000000000000001 ∧
    (let n := { s with mem := { cells := cellsOf (2 * 2 ^ 48 + 0x100) [0, 0, 0, 0, 2, 0, 0, 0, 1] ++ cellsOf (2 * 2 ^ 48 + 0x2000) [7] } }
     kinds (nx (exec (.cpyn xJ) n)) = [(4, 2)] ∧ (nx (exec (.cpyn xJ) n)).dev.reqs.map (fun r => (match r.kind with | .attic 8 name 0 _ 0 0 0 => name | _ => 0)) = [7]) := by decide +kernel
theorem test_block_here : let s := wShape copy2
    (reg s 3).toNat % 64 = 0 ∧ (∀ o, o < 64 → inWindow (s.dev.core 0).cmwin ((reg s 3).toNat % 2 ^ 22 + o) = true) ∧ s.mem.anyPoison (place s (reg s 3)) 64 = false := by decide +kernel
/-- A job of two items of the copy unit of cluster 0 (R293 to R299, R303). -/
def j0 : Job :=
  { kind := 0, ctx := 5, knum := 1, owner := 3, lclu := 0, jid := 0, epoch := 0, queue := .copy 0, core := 0, ga := 0x2000000000001000, gb := 0x2000000000002000,
    shape := 0x0000000100000002 * 2 ^ 32 + 64, imm := 0, count := 2 }
def wJob (j : Job) : State := dv (wShape []) fun d => { d with jobs := [(7, j)], fresh := 9 }
/-- A flit at a link that failed at turn 9; injection while a change switches at turn 9; a close stops what waits (R32, R38, R48, R287). -/
theorem test_injection_stops : let f : Flit := { id := 1, cnum := 1, rev := false, payload := .stream 7 0 0 8, pos := none }
    let c : Change := { fwd := [(0, 5)], rev := [], wins := [], routers := [0], waiting := [], turn := some 9, close := false }
    let s := fun (c : Change) => dv (wEp []) fun d =>
      { d with flits := [f], circuits := [(1, { st := 3, gen := 2, change := some c })], jobs := [(7, { j0 with kind := 3, st := 1, items := [{ idx := 0 }], next := 1 })] }
    let gone := nx (exec (.injectStop 1) (s { c with turn := some 0, close := true }))
    (let d := dv (wEp []) fun d => { d with flits := [{ f with pos := some (0, 0, 4, 3, 10) }], links := { d.links with failedFrom := [(4, 9)] } }
     d.live.switchDue 0 10 = false ∧ (nx (exec (.flitArrival 1 false) d)).dev.flits = [] ∧ (nx (exec (.flitArrival 1 false) d)).dev.links.rtrstat = []) ∧
    (s c).live.nextInject boot0 1 false = some (f, 8) ∧ ((nx (exec (.circuitInject 1 false 1) (s c))).dev.flits.map fun f => f.pos) = [some (0, 0, 4, 1, 0)] ∧
    ((s { c with turn := some 0 }).live.nextInject boot0 1 false).isNone = true ∧ gone.dev.flits = [] ∧ Recorded gone 5 0x46 := by decide +kernel
theorem test_job_handles : let h : Word := 0x8000000000000000
    let s := fun (j : Job) => dv (wJob j) fun d => { d with regs := [(1, h)] }
    (thr (nx (exec (.jwait xJ) (s j0)))).st = .parked (.job h) ∧ goes (.jwait xJ) (s { j0 with st := 3, done := 2 }) (passed 3 (s { j0 with st := 3, done := 2 })) = true ∧
    (nx (exec (.jpoll xJ) (s { j0 with st := 1, done := 1 }))).dev.getG 0 4 = 0x2000000000200000 ∧ ((nx (exec (.jcancel xJ) (s j0))).dev.jobs.map fun e => e.2.st) = [5] ∧
    trapIs (dv (s j0) fun d => { d with regs := [(1, 5)] }) (.jpoll xJ) 0x80 1 = true := by decide +kernel
theorem test_copy_job : let run := { j0 with st := 1 }
    let t := nx (exec (.jobItemStart 7 0) (wJob run))
    ((nx (exec (.jobBegin 7) (wJob j0))).dev.jobs.map fun e => e.2.st) = [1] ∧ t.dev.reqs.map (fun r => r.kind) = [.piece 7 0] ∧ t.dev.reqs.map (fun r => r.parts.length) = [8] ∧
    (t.dev.jobs.map fun e => (e.2.next, e.2.items.map Item.idx)) = [(1, [0])] ∧
    ((nx (exec (.jobUnstall 7 true) (wJob { j0 with st := 2, items := [{ idx := 0, waiting := true }] }))).dev.jobs.map fun e => (e.2.st, e.2.items.map Item.waiting)) = [(1, [false])] ∧
    (let u := dv (wJob { run with items := [{ idx := 1, req := some 1 }], done := 1, next := 2 }) fun d => { d with reqs := [{ rq (.piece 7 1) with parts := [{ pa := 0, n := 16, done := true }] }] }
     let bad := nx (exec (.jobItemDone 7 1) (dv (wJob { run with items := [{ idx := 1, req := some 1, src := 64, dst := 128 }], done := 1, next := 2 }) fun d =>
       { d with reqs := [{ rq (.piece 7 1) with parts := [{ pa := 0, n := 16, done := true }], fail := some (0x45, 0, false) }] }))
     ((nx (exec (.jobItemDone 7 1) u)).dev.jobs.map fun e => (e.2.st, e.2.done)) = [(3, 2)] ∧ (bad.dev.jobs.map fun e => (e.2.items.length, e.2.nfail)) = [(0, 1)] ∧
     ((bad.dev.collector 5).queue.head?.map fun r => (r.cause, r.item, r.addr)) = some (0x45, 1, 128)) ∧
    ((nx (exec (.engineWatchdog 7 0) (wJob { run with items := [{ idx := 0 }] }))).dev.jobs.map fun e => (e.2.items.length, e.2.nfail)) = [(0, 1)] ∧
    Recorded (nx (exec (.engineWatchdog 7 0) (wJob { run with items := [{ idx := 0 }] }))) 5 0x88 := by decide +kernel
/-- An all-reduce of two 512-byte segments over a ring of two, unsigned sums (R300, R304, R305). -/
def jc : Job :=
  { j0 with kind := 5, queue := .coll 0 0, shape := BitVec.ofNat 512 (1024 + 1 * 2 ^ 32 + 2 * 2 ^ 48 + 2 * 2 ^ 56 + 50 * 2 ^ 128), count := 2, st := 1, cnum := 4 }
theorem test_ring_job : let c : CollShape := ⟨jc.shape⟩
    let r := { rq (.coll 7 4) with dest := .gateway 0 37 }
    let u := dv (wJob { jc with pending := true, st := 0, cnum := 0 }) fun d => { d with reqs := [r] }
    c.p = 2 ∧ c.efmt = 2 ∧ c.op = 1 ∧ c.blocks = 1 ∧ c.tmo = 50 ∧ (HasReq u 1 r ∧ Came u r false) ∧ ((nx (exec (.collEnqueueAccept 1) u)).dev.jobs.map fun e => e.2.pending) = [false] ∧
    (nx (exec (.collEnqueueAccept 1) u)).dev.reqs.map (fun q => q.out) = [0xC000000000000000] ∧
    ((nx (exec (.collTimeout 7) (wJob jc))).dev.jobs.map fun e => (e.2.st, e.2.nfail, e.2.fcause)) = [(4, 2, 0x82)] ∧
    (let f : RingFlit := { eng := 0, ctx := 6, rid := 0, nb := 1024, op := 1, red := 0, efmt := 2, p := 2, phase := 0, seg := 1, blk := 0, n := 0, data := 5, bad := false }
     Recorded (nx (exec (.ringFlitArrive f) (wJob jc))) 6 0x87 ∧ ((ringJob (wJob jc).live { f with ctx := 5 }).map Prod.fst) = some 7 ∧ ringMismatch c f = false) := by decide +kernel
/-- A stream on circuit 1 of one row of 4 bytes from cluster 0 into cluster 1's memory (R301). -/
theorem test_streams : let j := { j0 with kind := 3, st := 1, ga := 0x3000000000400100, shape := BitVec.ofNat 512 (0x0000000100000001 * 2 ^ 32 + 4 + ch1.toNat * 2 ^ 448), count := 1 : Job }
    let s := fun (rs : List Req) => dv (wJob j) fun d => { d with reqs := rs, ctxs := [(5, { st := 3, attached := [(1, 0, 0, 64)] })] }
    let r := { rq (.stream 7) with dest := .cluster 1 }
    let t := nx (exec (.streamDescriptor 1) (s [r]))
    let u := dv t fun d => { d with flits := [{ id := 5, cnum := 1, rev := false, payload := .stream 7 0 0 0x04030201, at_ := some (.cluster 1) }] }
    (t.dev.streams.map fun x => (x.cluster, x.cnum, x.base, x.n0, x.n1)) = [(1, 1, 0x100, 4, 1)] ∧ (t.dev.reqs.map fun q => q.stage) = [.back] ∧
    (nx (exec (.streamFlitArrive 1 1) u)).mem.read (clusterPa 1 0x100) 4 = 0x04030201 ∧ ((nx (exec (.streamFlitArrive 1 1) u)).dev.streams.map fun x => x.row) = [1] ∧
    ((nx (exec (.streamFlitArrive 1 1) u)).dev.reqs.filterMap fun q => (match q.kind with | .rows 7 ks => some ks | _ => none)) = [[0]] ∧
    (let v := dv (wJob { j with items := [{ idx := 0 }], next := 1 }) fun d => { d with reqs := [rq (.rows 7 [0])] }
     ((nx (exec (.rowAck 7 1) v)).dev.jobs.map fun e => (e.2.items.length, e.2.done, e.2.st)) = [(0, 1, 3)]) := by decide +kernel
theorem test_other_jobs_begin : let b := fun (j : Job) => nx (exec (.jobBegin 7) (wJob j))
    (b { j0 with kind := 6 }).dev.jobs.map (fun e => e.2.st) = [1] ∧ (b { j0 with kind := 6, count := 0 }).dev.jobs.map (fun e => e.2.st) = [3] ∧
    (b { jc with st := 0, cnum := 0 }).dev.reqs.map (fun r => (match r.kind with | .circuit 9 _ _ 0 0 n => n | _ => 0)) = [7] ∧
    (let m := nx (exec (.jobBegin 7) (dv (wJob { jc with st := 0, cnum := 0, count := 1, items := [] }) fun d => { d with ctxs := [(5, { st := 3, endpoints := (List.range 64).map fun i => (i, 0x8030008100000000) })] }))
     (m.dev.jobs.map fun e => (e.2.st, e.2.nfail, e.2.fcause), m.dev.reqs.length) = ([(4, 1, 0x8D)], 0)) ∧
    (b { j0 with kind := 3, ga := 0x3000000000400100 }).dev.reqs.map (fun r => (r.kind, r.dest)) = [(.stream 7, .cluster 1)] := by decide +kernel
/-- The memory of a page table of context 5 at 0 that maps the first 2 MiB to HBM4 from 1 GiB (R379, R380). -/
def ptMem : Mem := { cells := cellsOf 0 [0, 0, 8, 0, 0, 0, 0, 0x80] ++ cellsOf 0x80000 [0, 0, 0, 0x40, 0, 0, 0, 0xD2] }
/-- A flit of the ring at rank 0 (R305): sums with the input at VA 0x1200, sent on; a gathered one, written to the output at 0x3200. -/
theorem test_ring_flits : let j := { jc with ga := 0x1000, gb := 0x3000, ringDue := 100 }
    let c : CollShape := ⟨j.shape⟩
    let f : RingFlit := { eng := 0, ctx := 5, rid := 0, nb := 1024, op := 1, red := 0, efmt := 2, p := 2, phase := 0, seg := 1, blk := 0, n := 0, data := 5, bad := false }
    let s := { wJob j with mem := { cells := ptMem.cells ++ cellsOf 0x40001200 [7] } }
    let t := nx (exec (.ringFlitArrive { f with phase := 1 }) s)
    (ringJob s.live f).map Prod.fst = some 7 ∧ c.rank = 0 ∧ c.q = 512 ∧ ringMismatch c f = false ∧
    (match collBlock s.boot s.live 5 0x1200 false (spotsOf 0x1200 512) [] with
      | .ok pas => pas.head? == some 0x40001200 && !pas.any fun pa => s.mem.isPoisoned (pa / 16)
      | .error _ => false) = true ∧
    (nx (exec (.ringFlitArrive f) s)).dev.flits.map (fun e => (match e.payload with | .ring g => (g.seg, g.data) | _ => (9, 0))) = [(1, 12)] ∧
    (t.dev.jobs.map fun e => e.2.written) = [[(1, 64)]] ∧ t.mem.read 0x40003200 4 = 5 ∧
    (nx (exec (.ringFlitArrive { f with phase := 1, n := 7 }) (dv s fun d => { d with jobs := [(7, { j with written := [(1, 448)] })] }))).dev.jobs.map (fun e => e.2.itemsOver) = [[1]] := by
  decide +kernel
/-- A launch record for core 0 of context 5, owner 3: entry 0x40, 32 registers, one thread a core, FPOL 1, its core-set list at 0x100 of cluster 0 (R308). -/
def lr : BitVec 1024 := BitVec.ofNat 1024 (0x40 + 77 * 2 ^ 64 + 0x2000000000000100 * 2 ^ 832 + (1 + 32 * 2 ^ 16 + 2 ^ 40 + 3 * 2 ^ 48 + 2 ^ 56) * 2 ^ 896 + 5 * 2 ^ 960)
/-- Queue 3 of context 5 on the host, with one packet, which the scheduler serves. -/
def wQ (p : Nat) (ks : List Kernel) : State :=
  { dv (w []) fun d => { d with
      ctxs := [(5, { st := 3, owner := 3, attached := [(0, 3, 0, 64)] })], kernels := ks, hostUp := true, clusters := [(0, { user := 3 })],
      host := cellsOf 0x1000 ((List.range 256).map fun i => p / 256 ^ i % 256),
      sched := { d.sched with queues := [(3, { cfg := 0x8000050304000000, base := 0x8000000000001000, tail := 1, st := 1 })], serving := some (3, 1) } } with
    mem := { cells := cellsOf (2 * 2 ^ 48 + 0x100) [1] } }
/-- The kernel of that record. -/
def kq : Kernel := { k1 with st := 0, owner := 3, queue := 3, lrec := lr, cores := [0], populated := 0 }
theorem test_launch : let p := 1 + lr.toNat * 2 ^ 512
    let s := wQ p []
    let t := nx (exec (.launch 3) s)
    s.live.schedRuns boot0 = true ∧ s.live.servedNow = some 3 ∧ (s.live.queue 3).owner = 3 ∧ (match s.live.headPacket boot0 (s.live.queue 3) with | .ok v => v == p | _ => false) = true ∧
    s.live.lrecFault boot0 lr 5 3 = none ∧ s.live.coreSet boot0 lr = some [0] ∧ t.dev.kernels.map (fun k => (k.st, k.knum, k.cores)) = [(0, 1, [0])] ∧
    t.dev.sched.heap.map (fun h => (h.ctx, h.knum, h.cores)) = [(5, 1, [0])] ∧ (t.live.queue 3).head = 1 ∧
    (let b := nx (exec .heapBind t)
     t.live.schedRuns boot0 = true ∧ b.dev.sched.heap = [] ∧ b.dev.sched.binds = [{ kind := 0, ctx := 5, knum := 1, queue := 3, ring := 0, cores := [0] }] ∧ b.dev.sched.bound = [(5, 1)]) ∧
    (let u := wQ (1 + (lr.toNat - 0x40 + 1) * 2 ^ 512) []
     (nx (exec (.launch 3) u)).dev.kernels.map (fun k => k.cores) = [[]]) := by decide +kernel
theorem test_doorbell : let s := dv (wQ 1 []) fun d => { d with sched := { d.sched with serving := none, kicks := [] } }
    ((nx (exec (.doorbellWrite 3 2) s)).live.queue 3).tail = 2 ∧ (nx (exec (.doorbellWrite 3 2) s)).dev.sched.kicks = [3] ∧ goes (.doorbellWrite 4 2) s s = true ∧
    (let k := fun (tail : Nat) => dv s fun d => { d with sched := { d.sched with kicks := [3], queues := [(3, { cfg := 0x8000050304000000, base := 0x8000000000001000, tail, st := 1 })] } }
     (nx (exec .queueScan (k 1))).dev.sched.serving = some (3, 1) ∧ ((nx (exec .queueScan (k 17))).live.queue 3).ecode = 3 ∧ ((nx (exec .queueScan (k 0))).live.queue 3).st = 0) := by
  decide +kernel
/-- THRESUME, THEND and KEND of kernel 1, logical core 0, LTHREAD 0. -/
theorem test_control_packets : let s := fun (ty : Nat) (th : Thread) (k : Kernel) => dv (wQ (ty + 1 * 2 ^ 192) [k]) fun d => { d with threads := [(0, th)] }
    let k := { kq with st := 2, populated := 1 }
    (s 2 { th0 with st := .trapped } k).live.target ((s 2 th0 k).live.queue 3) (2 + 2 ^ 192) = some 0 ∧ k.fpol = 1 ∧
    (thr (nx (exec (.thresume 3) (s 2 { th0 with st := .trapped } k)))).st = .ready ∧ ((nx (exec (.thend 3) (s 3 th0 k))).dev.thread 0).st = .free ∧
    (nx (exec (.kend 3) (s 4 th0 k))).dev.kernels.map (fun k => (k.st, k.end_)) = [(6, 2)] ∧ ((nx (exec (.kend 3) (s 4 th0 k))).live.queue 3).head = 1 := by decide +kernel
/-- A bind record is begun, then core 0 populated; the kernel is pre-empted; its retirement; its completion (R311, R314, R317, R330). -/
theorem test_dispatch : let s := fun (k : Kernel) => dv (wQ 0 [k]) fun d => { d with threads := [], sched := { d.sched with queues := [], serving := none } }
    let b := dv (s kq) fun d => { d with sched := { d.sched with binds := [{ kind := 0, ctx := 5, knum := 1, queue := 3, ring := 0, cores := [0] }] } }
    let q := { kq with st := 1, cores := [0, 1] }
    let t := nx (exec .bindRecord (s q))
    b.live.populating.isNone = true ∧ b.live.areaWaits boot0 5 0 32 = false ∧ (nx (exec .bindRecord b)).dev.kernels.map (fun k => k.st) = [1] ∧
    ((nx (exec .bindRecord b)).dev.sched.fifo.map fun c => c.taken) = [true] ∧ (nx (exec .retireReport (nx (exec .bindRecord b)))).dev.sched.fifo = [] ∧
    (let e := dv (s { kq with st := 6, populated := 1 }) fun d =>
       { d with threads := [(0, { th0 with st := .parked (.granule 9 true) })], sched := { d.sched with binds := [{ kind := 2, ctx := 5, knum := 1, queue := 3, ring := 0, cores := [] }] } }
     ((nx (exec .bindRecord e)).dev.thread 0).st = .halted false ∧ (nx (exec .bindRecord e)).dev.sched.binds = []) ∧
    (s q).live.populating = some q ∧ q.cores[0]? = some 0 ∧ (s q).dev.freeSlot 0 0 56 = some 0 ∧ (t.dev.thread 0).pc = 0x40 ∧ (t.dev.thread 0).wsize = 32 ∧ t.dev.getG 0 1 = 77 ∧
    t.dev.kernels.map (fun k => k.populated) = [1] ∧
    (let u := dv (s { kq with st := 2, populated := 1 }) fun d => { d with threads := [(0, th0)] }
     NoRecall u ∧ (nx (exec (.preemptRequest 5 1) u)).dev.kernels.map (fun k => k.st) = [3] ∧ ((nx (exec (.preemptRequest 5 1) u)).dev.thread 0).st = .halted false) ∧
    (let u := s { kq with st := 5, populated := 1, cmpaddr := 0x2000, cmpval := 9, flags := 4 }
     let v := nx (exec (.kernelRetire 5 1) u)
     u.dev.domainEmpty 5 1 = true ∧ v.dev.kernel? 5 1 = none ∧ v.dev.sched.fifo.map (fun c => (c.addr, c.val, c.info)) = [(0x2000, 9, 0x100000001)] ∧
     (nx (exec .retireReport v)).dev.hostRead 0x2000 16 = 9 + 2 ^ 64 * 0x100000001) := by decide +kernel
/-- Firmware reaches every byte of it. -/
theorem pt_reach (l : Live) (hm : l.mem = ptMem) (hr : (l.dev.ctx 5).ptroot = 0) (hp : (l.dev.ctx 5).prot = false) (va : Nat) (h : va < 2097152) :
    l.fwReach boot0 5 va true = .ok (0x40000000 + va) := by
  have h1 : bitsAt va 47 37 = 0 := by unfold bitsAt; omega
  have h2 : bitsAt va 36 21 = 0 := by unfold bitsAt; omega
  have w : l.walk boot0 5 va = .leaf 0xD200000040000000 true := by
    have q1 : readPte boot0 ptMem (wbits (0 : Word) 51 14 * 16384 + 8 * 0) = some 0x8000000000080000 := by decide +kernel
    have q2 : readPte boot0 ptMem (pteAddr 0x8000000000080000 + 8 * 0) = some 0xD200000040000000 := by decide +kernel
    have q3 : pteV 0x8000000000080000 = true ∧ pointerOk 0x8000000000080000 524288 = true ∧ pteV 0xD200000040000000 = true ∧ pteLeaf 0xD200000040000000 = true ∧
      leafOk boot0 false true 0xD200000040000000 = true := by decide +kernel
    simp only [Live.walk, hr, hp, hm, walkFrom, h1, h2, q1, q2, q3, Bool.not_true, Bool.false_eq_true, if_false, if_true]
  have k : leafPa 0xD200000040000000 true va = 0x40000000 + va := by
    have : pteAddr 0xD200000040000000 / pageBytes true * pageBytes true = 0x40000000 := by decide
    have e : pageBytes true = 2097152 := rfl
    rw [leafPa, this, e]; omega
  have v : pteTier 0xD200000040000000 ≠ 0 ∧ pteVerdict 0xD200000040000000 1 0x61 = .ok := by decide +kernel
  have p : (paHome boot0 (0x40000000 + va)).isNone = false := by
    have a1 : bitsAt (0x40000000 + va) 51 48 = 0 := by unfold bitsAt; omega
    have a2 : bitsAt (0x40000000 + va) 47 40 = 0 := by unfold bitsAt; omega
    have a3 : bitsAt (0x40000000 + va) 39 36 = 0 := by unfold bitsAt; omega
    have a4 : bitsAt (0x40000000 + va) 35 0 < 64000000000 := by unfold bitsAt; omega
    have a5 : boot0.hasStack 0 = true := by decide
    simp [paHome, a1, a2, a3, a4, a5]
  have m : ∀ g, ptMem.isPoisoned g = false := fun g => by simp [ptMem, Mem.isPoisoned, shas]
  simp only [Live.fwReach, w, v.1, v.2, k, p, hm, m, if_true, if_false, Bool.false_eq_true]
theorem pt_reach_all (l : Live) (hm : l.mem = ptMem) (hr : (l.dev.ctx 5).ptroot = 0) (hp : (l.dev.ctx 5).prot = false) (va n : Nat) (h : va + 16 * n + 16 ≤ 2097152) :
    l.fwReachAll boot0 5 va true n = .ok (0x40000000 + va) := by
  induction n with
  | zero => exact pt_reach l hm hr hp va (by omega)
  | succ n ih => rw [Live.fwReachAll, pt_reach l hm hr hp _ (by omega)]; exact ih (by omega)
/-- A halted kernel's core, and the kernel, may be saved (R314, R315). -/
def kh : Kernel := { kq with st := 3, populated := 1 }
def wSave : State := { dv (wQ 0 [kh]) fun d => { d with threads := [(0, { th0 with st := .halted false })], sched := { d.sched with bound := [(5, 1)] } } with mem := ptMem }
theorem test_save : HasKernel wSave kh ∧ kh.cores[0]? = some 0 ∧ wSave.live.quiet 5 1 = true ∧ wSave.dev.stillOn 5 1 (· == 0) = true ∧ wSave.live.jobsSaved 5 1 = true ∧
    wSave.live.fwReachAll boot0 5 (kh.coreBlock 0) true (kh.cbBytes / 16 - 1) = .ok (0x40000000 + kh.coreBlock 0) ∧
    wSave.live.fwReachAll boot0 5 kh.savea true (4096 * (kh.nclu + 1) / 16 - 1) = .ok (0x40000000 + kh.savea) := by
  have c : (wSave.live.dev.ctx 5).ptroot = 0 ∧ (wSave.live.dev.ctx 5).prot = false := by decide +kernel
  exact ⟨by decide +kernel, by decide, by decide +kernel, by decide +kernel, by decide +kernel,
    pt_reach_all _ rfl c.1 c.2 _ _ (by decide +kernel), pt_reach_all _ rfl c.1 c.2 _ _ (by decide +kernel)⟩
theorem test_scheduler_units : let s := fun (f : Sched → Sched) => dv (w []) fun d => { d with sched := f d.sched }
    Recorded (nx (exec .schedHeartbeatTimeout (s fun c => { c with sbyok := true }))) 0 0xF0 ∧ (nx (exec .schedHeartbeatTimeout (s fun c => { c with sbyok := true }))).dev.sched.tko = true ∧
    (nx (exec .schedImemError (s id))).dev.sched.lost = true ∧ (nx (exec .takeOverEnd (s fun c => { c with tko := true, hold := true }))).dev.sched.hold = false ∧
    (nx (exec .standbyReady (s id))).dev.sched.sbyok = true ∧ runs .progressCheck (s id) = true ∧
    (let u := dv (w []) fun d => { d with threads := [], clusters := [(1, { xfer := true, xferTo := 4 })] }
     ((nx (exec (.borderMove 1) u)).dev.cluster 1).user = 4 ∧ ((nx (exec (.borderMove 1) u)).dev.cluster 1).xfer = false) := by decide +kernel
/-- Contexts: 5 in this state with two clusters; cluster 1 is of owner 3; the host holds an attested SPDM session. -/
def wC (f : Ctx → Ctx) : State :=
  dv (w []) fun d => { d with threads := [], sessions := [(1, true)], ctxs := [(5, f { st := 3, owner := 3, relay := true })], clusters := [(1, { user := 3, home := 3 })] }
def key1 : BitVec 256 := 9
theorem test_context_commands : let s := fun (n : Nat) => wC fun c => { c with st := n }
    let c := fun (t : State) => t.dev.ctx 5
    goes (.activate 0) (s 2) (refusedWith (s 2) 4 3) = true ∧ goes (.activate 5) (s 3) (refusedWith (s 3) 4 1) = true ∧ (c (nx (exec (.activate 5) (s 2)))).st = 3 ∧
    Answers (s 2) (nx (exec (.activate 5) (s 2))) 4 0 ∧ (c (nx (exec (.attach 5 1 3 0 8) (s 3)))).attached = [(1, 3, 0, 8)] ∧ goes (.attach 5 2 3 0 8) (s 3) (refusedWith (s 3) 2 5) = true ∧
    (nx (exec (.epset 5 1 2 0x8000000001000000) (wC fun c => { c with attached := [(1, 3, 0, 8)] }))).live.endpoint 5 1 2 = 0x8000000001000000 ∧
    (c (nx (exec (.efwd 5 true) (s 1)))).efwd = true ∧ (c (nx (exec (.destroy 5) (s 3)))).st = 6 ∧ (c (nx (exec (.destroy 5) (s 5)))).destroy = true ∧ (c (nx (exec (.resume 5) (s 4)))).st = 3 ∧
    (c (nx (exec (.keyload 5 0 key1 0) (s 1)))).keyMem = some key1 ∧
    Attested (s 1) ∧ (let n := dv (s 1) fun d => { d with sessions := [(1, false)] }
     goes (.keyload 5 0 key1 0) n (refusedWith n 9 5) = true) ∧ (c (nx (exec (.keyload 5 1 key1 0) (wC fun c => { c with st := 1, keyMem := some 1 })))).st = 2 ∧
    (c (nx (exec (.rekey 5 1 key1) (wC fun c => { c with keyFab := some 1 })))).rekey = some (1, key1) ∧ goes (.rekey 5 3 key1) (s 3) (refusedWith (s 3) 5 4) = true ∧
    (c (nx (exec (.rekey 5 3 key1) (wC fun c => { c with keyW := [(1, 7)] })))).keyW = [(1, 9)] ∧ goes (.keyload 5 6 key1 2) (s 3) (refusedWith (s 3) 9 4) = true := by decide +kernel
theorem test_create : let s := { wC fun _ => {} with mem := { cells := [(0x40000008, 7)], empties := [0x4000000] } }
    let t := nx (exec (.create 5 3 true 0 0x4000 [{ pa := 0x40000000, bytes := 65536 }]) s)
    Page.ok boot0 { pa := 0x40000000, bytes := 65536 } = true ∧ s.live.paLost boot0 0x40000000 = false ∧ s.live.poolLines = [] ∧ (t.dev.ctx 5).st = 1 ∧ (t.dev.ctx 5).prot = true ∧
    t.mem.byteAt 0x40000008 = 0 ∧ t.mem.isFull 0x4000000 = true := by decide +kernel
theorem test_lending : let s := wC id
    let l := nx (exec (.lend 1 4) s)
    s.live.idleCluster 1 = true ∧ (l.dev.cluster 1).user = 4 ∧ (l.dev.cluster 1).lent = true ∧ ((nx (exec (.recallCluster 1) l)).dev.cluster 1) = { user := 3, home := 3 } ∧
    (let u := dv l fun d => { d with kernels := [{ k1 with cores := [8] }] }
     ((nx (exec (.recallCluster 1) u)).dev.cluster 1).rcl = true ∧ (nx (exec (.recallCluster 1) u)).dev.kernels.map (fun k => k.st) = [3]) ∧
    (nx (exec (.snap 3 77) s)).dev.snaps = s.dev.snaps + 1 ∧ goes (.snap 256 77) s (refusedWith s 12 3) = true ∧
    (tfind (nx (exec (.adomcfg 2 (some key1) [{ stack := 0, base := 0x40000000, lines := 512 }]) s)).dev.domains 2).map (fun d => d.dk) = some key1 := by decide +kernel
theorem test_context_life : let c := fun (t : State) => t.dev.ctx 5
    let r := wC fun c => { c with st := 5, rekey := some (1, key1), keyFab := some 1 }
    r.live.rekeyDrained 5 = true ∧ (c (nx (exec (.rekeySwap 5) r))).keyFab = some key1 ∧ (c (nx (exec (.rekeyAbandon 5) r))).keyFab = some 1 ∧ Recorded (nx (exec (.rekeyAbandon 5) r)) 5 0xED ∧
    (c (nx (exec (.fabricRekeyAuto 5) (wC fun c => { c with keyFab := some 1 })))).st = 5 ∧ (c (nx (exec (.contextPoison 5) (wC fun c => { c with efwd := true })))).st = 6 ∧
    Recorded (nx (exec (.contextPoison 5) (wC fun c => { c with efwd := true }))) 5 0xE1 ∧ (c (nx (exec .hotReset (wC id)))).st = 4 ∧ Recorded (nx (exec .hotReset (wC id))) 5 0xEB ∧
    (c (nx (exec (.suspendExpire 5) (wC fun c => { c with st := 4 })))).st = 6 := by decide +kernel
theorem test_scrub : let s := { wC fun c => { c with st := 6, attached := [(1, 3, 1, 2)] } with mem := { cells := [(clusterPa 1 65537, 7), (clusterPa 1 9, 8)] } }
    let t := nx (exec (.scrubStart 5) s)
    let u := nx (exec (.scrubDone 5) t)
    s.live.drained 5 = true ∧ (t.dev.ctx 5).st = 7 ∧ (t.dev.cluster 1).held = true ∧ NoRecall t ∧ (t.live.scrubOf 5).isSome = true ∧ u.dev.ctx 5 = {} ∧ (u.dev.cluster 1).held = false ∧
    u.mem.cells = [(clusterPa 1 9, 8)] := by decide +kernel
theorem test_dies : let s := wC fun c => { c with tdies := 4 }
    let t := nx (exec (.dieLoss 2) s)
    (nx (exec (.dieLoss 8) s)).dev.stopped = some 0xDC ∧ boot0.hasDie 2 = true ∧ dieOf 12 = 2 ∧ (t.dev.cluster 12).lost = true ∧ (t.dev.core 96).lost = true ∧ Recorded t 5 0xC8 ∧ (t.dev.ctx 5).st = 6 := by
  decide +kernel
theorem test_machine_checks : let m : MachineCheck := { cause := 0x56, ctx := 5, unit := 1, tid := 0, addr := 0x40000000 }
    let s := wC id
    (nx (exec (.machineCheck m) s)).mem.isPoisoned 0x4000000 = true ∧ goes (.machineCheck { m with cause := 5 }) s s = true ∧ Recorded (nx (exec (.machineCheck m) s)) 0 0x56 ∧
    (nx (exec (.machineCheck { m with cause := 0xD5 }) s)).dev.cmDown = true ∧ (thr (nx (exec (.machineCheck { m with cause := 0x2D }) (w [])))).faultInfo = 0x2D ∧
    ((nx (exec (.machineCheck { m with cause := 0xEE }) s)).dev.ctx 5).st = 6 ∧ coreChecks ≠ [] ∧ packageChecks ≠ [] := by decide +kernel
/-- A record of cause 6 goes to slot 0 of a ring of 16 on the host (R418, R419). -/
theorem test_fault_records : let q := (nx (exec (.trap 7) (w []))).dev.collector 5
    let s := fun (cfg : Word) => dv (w []) fun d => { d with hostUp := true, sched := d.sched, collectors := [(5, { q with cfg, base := 0x8000000000001000 })] }
    let next := fun (t : State) => nx (exec (.faultRecordWrite 5) t)
    let t := next (next (next (s 0x8004010000000000)))
    (q.queue.map fun r => r.cause) = [6] ∧ ((next (s 0)).dev.collector 5).drop = 1 ∧ (t.dev.collector 5).tail = 1 ∧ (t.dev.collector 5).queue = [] ∧ 128 ≤ t.dev.hostRead 0x103F 1 ∧
    ((next (s 0x8004010000000000)).dev.collector 5).phase = 1 := by decide +kernel
theorem test_services : let s := wC id
    (nx (exec .debugSessionOpen s)).dev.debugOpen = true ∧ Recorded (nx (exec .debugSessionOpen s)) 5 0xFD ∧
    (nx (exec (.debugRead (.page 5 0x40000000 0)) { s with mem := { cells := [(0x40000001, 3)] } })).dev.out = [.debug false 0x300] ∧
    (nx (exec (.debugRead (.page 5 0x40000000 1)) s)).dev.out = [.debug true 0] ∧
    (nx (exec (.debugRead (.bank 0 1)) (dv s fun d => { d with banks := [(1, { sealed := true })] }))).dev.out = [.debug true 0] ∧
    (nx (exec (.debugRead (.acc 0 1)) (dv s fun d => { d with slices := [(0, { tags := 2 })] }))).dev.out = [.debug true 0] ∧ (nx (exec (.spdmRequest 1 ⟨.measure, 2⟩) s)).dev.out = [.spdm 1 2] ∧
    (nx (exec (.spdmRequest 7 ⟨.attest, 2⟩) (nx (exec (.spdmRequest 7 ⟨.keyExchange, 2⟩) s)))).dev.sessions = [(1, true), (7, true)] ∧
    (nx (exec (.spdmRequest 7 ⟨.selectiveIde, 2⟩) s)).dev.out = [.unsupported] ∧
    Recorded (nx (exec (.serviceCoreWatchdog 1) s)) 0 0xFC ∧ (nx (exec .fabricReferenceLost s)).dev.stopped = some 0xD7 ∧ (nx (exec .thermalShutdown s)).dev.stopped = some 0xE5 := by decide +kernel
/-- Context 5 has Attic domain 2; these entries stand in the index of the stack of their names. -/
def wA (es : List NameEntry) (regs : List (Nat × Word)) : State :=
  dv (w regs) fun d =>
    { d with ctxs := [(5, { st := 3, adom := 2 })], kernels := [k1], cores := [(0, { cmwin := 0x40, ctxnum := 5 })],
             names := es.map fun e => (homeStack boot0 e.name, e), domains := [(2, { dk := 9, free := [(0, [0x40000000])] })] }
/-- A leaf named 0x1234 at 1 GiB with two references. -/
def e0 : NameEntry := { name := 0x1234, pa := 0x40000000, adom := 2, sat := false, dorm := false, height := 0, count := 2, nleaf := 1 }
def xA : Ext := { x0 with d := 8, a := 2, b := 4, c := 6 }
theorem test_attic_instructions : let s := wA [] [(2, 0x1234)]
    let k := fun (t : State) => t.dev.reqs.map fun r => (match r.kind with | .attic op n _ x y st d => (op, n, x, y, st, d) | _ => (99, 0, 0, 0, 0, 0))
    domainOf s = 2 ∧ nameIn s 2 = 0x1234 ∧ CanName s 0x1234 ∧ k (nx (exec (.nld { xA with imm := 8 }) s)) = [(1, 0x1234, 8, 0, 0, 8)] ∧ k (nx (exec (.nstat xA) s)) = [(4, 0x1234, 0, 0, 0, 8)] ∧
    k (nx (exec (.nref xA) s)) = [(2, 0x1234, 0, 0, 0, 0)] ∧ k (nx (exec (.nrel xA) s)) = [(3, 0x1234, 0, 0, 0, 0)] ∧ goes (.nref xA) (wA [] []) (passed 3 (wA [] [])) = true ∧
    trapIs (w []) (.nld xA) 0x6C 0 = true ∧ (thr (nx (exec (.nstat xA) s))).pc = 0x1000 := by
  dsimp only
  repeat' apply And.intro
  all_goals decide +kernel
/-- A root slot at 0x100 of the own cluster that holds 0x1234, replaced by the null name; the expected name does not match (R374 to R376). -/
theorem test_root_slots : let s := { wA [] [(2, 0x2000000000000100), (4, 0x1234)] with mem := { cells := cellsOf (2 * 2 ^ 48 + 0x100) [0x34, 0x12] } }
    let t := nx (exec (.nswap xA) s)
    Own s (reg s 2) 16 ∧ nameIn s 4 = 0x1234 ∧ nameIn s 6 = 0 ∧ t.mem.cells = [] ∧ (t.dev.reqs.map fun r => r.dest) = [engineDest (homeStack boot0 0x1234)] ∧
    (let u := nx (exec (.nswap xA) (dv s fun d => { d with regs := [(2, 0x2000000000000100)] }))
     u.mem.cells = cellsOf (2 * 2 ^ 48 + 0x100) [0x34, 0x12] ∧ (thr u).pc = 0x100C) ∧
    (nx (exec (.nroot xA) s)).dev.reqs.length = 1 ∧ (thr (nx (exec (.nroot xA) (wA [] [(2, 0x2000000000000100)])))).pc = 0x100C := by decide +kernel
/-- Requests at the engine of a name: a reference, a release to zero, a read, the status, an absent name (R363, R366, R373 to R377). -/
theorem test_attic_engine : let r := fun (op : Nat) (x : BitVec 128) => { rq (.attic op 0x1234 0 x 0 0 8) with dest := engineDest (homeStack boot0 0x1234) }
    let s := fun (e : List NameEntry) (op : Nat) => { dv (wA e []) fun d => { d with reqs := [r op 8], fresh := 9 } with mem := { cells := [(0x40000008, 7)] } }
    let es := fun (t : State) => t.dev.names.map fun e => (e.2.count, e.2.dorm)
    let out := fun (t : State) => t.dev.reqs.map fun q => (q.out, q.fail)
    HasReq (s [e0] 2) 1 (r 2 8) ∧ Came (s [e0] 2) (r 2 8) false ∧ (s [e0] 2).live.engineBehind (r 2 8) = false ∧ HasEntry (s [e0] 2) 2 0x1234 e0 ∧ es (nx (exec (.atticRefRequest 1) (s [e0] 2))) = [(3, false)] ∧
    es (nx (exec (.atticRelRequest 1) (s [{ e0 with count := 1 }] 3))) = [(0, true)] ∧ out (nx (exec (.atticNldRequest 1) (s [e0] 1))) = [(7, none)] ∧
    out (nx (exec (.atticStatRequest 1) (s [e0] 4))) = [(0x280000001, none)] ∧ out (nx (exec (.atticRefRequest 1) (s [] 2))) = [(0, some (0x6E, 1, false))] ∧
    out (nx (exec (.atticLeafRead 1) (s [e0] 7))) = [(0, none)] ∧
    (nx (exec (.atticReclaim (homeStack boot0 0x1234) 0) (s [{ e0 with dorm := true, count := 0 }] 0))).dev.names = [] := by
  dsimp only
  repeat' apply And.intro
  all_goals decide +kernel
/-- Two requests stand at an engine's port: the one that came later waits (R369); a NAME that fails waits for the release of a child reference (R378). -/
theorem test_attic_turns : let r := fun (id : Nat) => { rq (.attic 2 0x1234 0 0 0 0 8) with id, stage := .going, dest := engineDest (homeStack boot0 0x1234) }
    let m := fun (id req ready : Nat) => ({ id, ctx := 5, req, back := false, path := [], node := 192, dest := engineDest (homeStack boot0 0x1234), flits := 1, ready } : Msg)
    let s := dv (wA [e0] []) fun d => { d with reqs := [r 1, r 2], msgs := [m 7 1 5, m 8 2 3], fresh := 9, slots := 6 }
    s.live.engineBehind (r 1) = true ∧ s.live.engineBehind (r 2) = false ∧ (nx (exec (.atticRefRequest 1) s)).dev.names = s.dev.names ∧
    (let c := fun (id : Nat) (f : Option (Nat × Nat × Bool)) => { rq (.attic 9 0x1234 0 1 0 0 0) with id, stage := .replied, fail := f, src := 192 }
     let u := nx (exec (.atticChildReply 1) (dv (wA [] []) fun d => { d with fresh := 9, reqs := [{ rq (.attic 0 0 0 1 0 1 8) with dest := .gateway 0 37 }, c 2 none, c 3 (some (0x6E, 1, false))] }))
     releasesDone u.live 1 = false ∧ (u.dev.reqs.map fun q => q.fail) = [none, none] ∧
     ((nx (exec (.atticChildReply 1) (dv u fun d => { d with reqs := d.reqs.take 1 }))).dev.reqs.map fun q => q.fail) = [some (0x71, 1, false)]) := by
  dsimp only
  repeat' apply And.intro
  all_goals decide +kernel
/-- Answers in the waiting thread; a NAME whose child reference has failed (R371, R373). -/
theorem test_attic_replies : let s := fun (op : Nat) (f : Option (Nat × Nat × Bool)) => wR [{ rq (.attic op 0x1234 0 0 0 0 8) with stage := .replied, out := 3, out2 := 4, fail := f }] []
    let t := nx (exec (.atticReply 1) (s 0 none))
    t.dev.getG 0 8 = 3 ∧ t.dev.getG 0 9 = 4 ∧ (thr t).pc = 0x100C ∧ (nx (exec (.atticReply 1) (s 1 none))).dev.getG 0 8 = 3 ∧ (nx (exec (.atticReply 1) (s 1 none))).dev.getG 0 9 = 0 ∧
    (thr (nx (exec (.atticReply 1) (s 3 none)))).pc = 0x100C ∧ (thr (nx (exec (.atticReply 1) (s 3 (some (0x72, 0, false)))))).faultInfo = 0x72 ∧
    (let u := dv (wA [] []) fun d => { d with fresh := 9, reqs := [{ rq (.attic 0 0 0 1 0 1 8) with dest := .gateway 0 37 }, { rq (.attic 9 0x1234 0 1 0 0 0) with id := 2, stage := .replied, fail := some (0x6E, 1, false), src := 192 }] }
     (childReqs u.live 1).map (fun r => r.id) = [2] ∧ (nx (exec (.atticChildReply 1) u)).dev.reqs.map (fun r => (r.id, r.fail)) = [(1, some (0x71, 1, false))]) := by decide +kernel
/-- NAME of a leaf block of zeros asks the engine of its hash (R368). -/
theorem test_name : (nx (exec (.name { xA with a := 2 }) (wA [] [(2, 0x100)]))).dev.reqs.length = 1 := by decide +kernel
/-- A walker at 0x2000. -/
def wk : Thread := { walkerInit with flight := .none, pc := 0x2000 }
/-- The walker of core 0, whose TLB is empty; context 5. -/
def wT (regs : List (Nat × Word)) (ms : List Miss) : State :=
  dv (wW regs) fun d => { d with threads := [(63, wk)], ctxs := [(5, { st := 3 })], cores := [(0, { cmwin := 0x40, ctxnum := 5, misses := ms })] }
/-- The head miss: a load of thread 0 at VA 0x10000. -/
def m0 : Miss := { kind := 0, va := 0x10000, slot := 0, job := 0, jid := 0, defers := 0, due := none, arrived := true }
def pte0 : Word := 0xD200000040000000
theorem test_tlb : let x := { x0 with d := 3, a := 1, b := 2 }
    let s := wT [(1, 0x10002), (2, pte0)] []
    let t := nx (exec (.tlbw x) s)
    let e : TlbEntry := { ctx := 5, page := 1, big := false, pte := pte0 }
    ReadyX s x [1, 2] [] ∧ s.dev.cur % 64 = 63 ∧ leafOk boot0 false false pte0 = true ∧ pteTier pte0 ≠ 0 ∧ (t.dev.core 0).tlb = [e] ∧ (t.dev.cluster 0).tlb2 = [e] ∧ (thr t).pc = (thr s).pc + 12 ∧
    (thr (nx (exec (.tlbw x) (wT [(1, 0x10000), (2, 0)] [])))).faultInfo = 0x49 ∧
    (nx (exec (.tlbp x) (dv t fun d => { d with regs := [(2017, 0x10000)] }))).dev.getG 63 3 = pte0 + 3 ∧
    ((nx (exec (.tlbi x) (dv t fun d => { d with regs := [(2017, 0x10000)] }))).dev.core 0).tlb = [] ∧
    ((nx (exec (.tlbi { x with imm := 1 }) (dv t fun d => { d with regs := [(2017, 0x8000000000000000)] }))).dev.cluster 0).tlb2 = [] ∧
    Alone (w []) ∧ trapIs (w []) (.tlbw x) 2 0 = true := by decide +kernel
theorem test_walkret : let x := { x0 with a := 1 }
    let s := fun (a : Word) => dv (wT [(1, a)] [m0]) fun d => { d with threads := [(0, { th0 with st := .parked .tlb }), (63, wk)] }
    HasHead (s 0) 0 m0 ∧ (s 0).live.covered 0 0x10000 = false ∧ ((nx (exec (.walkret x) (s 0))).dev.core 0).misses.map (fun m => m.arrived) = [false] ∧
    ((nx (exec (.walkret x) (s 0x50002))).dev.core 0).misses.map (fun m => m.due) = [some 5] ∧
    ((nx (exec (.walkret x) (s 0x4801))).dev.thread 0).faultInfo = 0x48 ∧ (thr (nx (exec (.walkret x) (s 0x4801)))).flight = .walk (wk.pc + 12) ∧
    (let c := dv (s 0) fun d => { d with cores := [(0, { cmwin := 0x40, ctxnum := 5, misses := [m0], tlb := [{ ctx := 5, page := 1, big := false, pte := pte0 }] })] }
     ((nx (exec (.walkret x) c)).dev.thread 0).st = .ready) := by decide +kernel
theorem test_misses : let s := fun (ms : List Miss) => dv (wT [] ms) fun d => { d with threads := [(0, { th0 with st := .parked .tlb }), (63, { wk with flight := .walk 0x100C })] }
    HasHead (nx (exec (.walkerMissArrive 0) (s [{ m0 with arrived := false }]))) 0 m0 ∧ (thr (nx (exec (.walkerMissArrive 0) (s [{ m0 with arrived := false }])))).pc = 0x100C ∧
    ((nx (exec (.missDeferExpire 0 0) (s [{ m0 with due := some 0, arrived := false }]))).dev.core 0).misses.map (fun m => m.due) = [none] ∧
    goes (.missDeferExpire 0 0) (s [{ m0 with due := some 9 }]) (s [{ m0 with due := some 9 }]) = true ∧
    goes (.walkerOverdue 0 0) (s [{ m0 with due := some 9 }]) (s [{ m0 with due := some 9 }]) = true ∧
    ((nx (exec (.walkerOverdue 0 0) (s [m0]))).dev.thread 0).faultInfo = 0x5C ∧
    (let u := fun (back : Bool) (ws : List (Nat × Nat)) => dv (wT [] []) fun d =>
      { d with reqs := [{ rq (.tlbi true 0 ws) with tid := 63 }], threads := [(63, { wk with flight := .request 1 0x100C })],
               msgs := [{ id := 3, ctx := 5, req := 1, back, path := [], node := if back then 0 else 1, dest := .cluster (if back then 0 else 1), flits := 1, grp := 2 }],
               cores := [(8, { tlb := [{ ctx := 5, page := 1, big := false, pte := pte0 }] })] }
     let a := nx (exec (.tlbiRemote 1 1) (u false [(1, 0), (2, 2)]))
     translatedPending (u false []).live 5 0 true (· == 1) = false ∧ (a.dev.core 8).tlb = [] ∧ a.dev.reqs.map (fun q => q.kind) = [.tlbi true 0 [(1, 2), (2, 2)]] ∧
     (a.dev.msgs.map fun m => (m.back, m.grp)) = [(true, 2)] ∧ goes (.tlbiRemote 1 2) (u false [(2, 0)]) (u false [(2, 0)]) = true ∧
     (thr (nx (exec (.remoteReplyArrive 1) (u true [(1, 2)])))).pc = 0x100C ∧ (thr (nx (exec (.tlbiRemote 1 0) (u true [(0, 1)])))).pc = 0x100C) := by decide +kernel
/-- A page table whose third level, at 0x900, gives VA 0x10000 the entry v (R379); a fill of an absent page; what a migration needs (R391 to R393). -/
def wP (v : Word) : State :=
  { dv (w []) fun d => { d with ctxs := [(5, { st := 3, pages := [{ pa := 0x40000000, bytes := 0x200000 }, { pa := 0x50000000, bytes := 0x200000 }] })], threads := [] } with
    mem := { cells := cellsOf 0 [0, 0, 8, 0, 0, 0, 0, 0x80] ++ cellsOf 0x908 ((List.range 8).map fun i => v.toNat / 256 ^ i % 256) ++ cellsOf 0x80000 [0, 9, 0, 0, 0, 0, 0, 0x80] ++
      cellsOf 0x40000000 [5, 6] } }
theorem test_pages : let s := wP 0xC000000000000000
    let g := wP 0xD280000040000000
    s.live.holdsPage 5 (pteAddr pte0) 65536 = true ∧ g.live.holdsPage 5 0x50000000 65536 = true ∧ pteW 0xD280000040000000 = pteW 0xD200000050000000 ∧
    ((nx (exec (.pageFillDone 5 0x10000 0xD200000060000000) s)).dev.ctx 5).pages.length = 3 ∧
    s.live.walk boot0 5 0x10000 = .leaf 0xC000000000000000 false ∧ (leafAt boot0 s.live 5 0x10000).map Prod.fst = some 0x908 ∧ leafOk boot0 false false pte0 = true ∧
    (nx (exec (.pageFillDone 5 0x10000 pte0) s)).mem.read 0x908 8 = pte0.toNat ∧ pteM 0xD280000040000000 = true ∧
    g.live.walk boot0 5 0x10000 = .leaf 0xD280000040000000 false ∧ leafOk boot0 false false 0xD200000050000000 = true ∧ translatedPending g.live 5 1 false (fun _ => true) = false ∧
    pteAddr 0xD280000040000000 % pageBytes false = 0 ∧ goes (.pageFillTimeout 5 0x10000) s s = true ∧
    (let f := { s with boot := { s.boot with fillLimit := true } }
     f.boot.fillLimit = true ∧ f.live.walk f.boot 5 0x10000 = .leaf 0xC000000000000000 false ∧ (nx (exec (.pageFillTimeout 5 0x10000) f)).mem = f.mem) ∧
    Recorded (nx (exec (.remapTableError 3) s)) 0 0x53 ∧ (nx (exec (.remapTableError 3) s)).mem.isPoisoned 0x30 = true ∧
    (nx (exec (.pseudoChannelUnfence 3) (nx (exec (.remapTableError 3) s)))).mem.isPoisoned 0x30 = true ∧
    shas (nx (exec (.pseudoChannelUnfence 3) (nx (exec (.remapTableError 3) s)))).dev.links.fenced 3 = false := by decide +kernel
/-! Words, most of them as the spec's own examples print them (04_opcode_map.md, 10_memory.md, 14_circuit.md, 19_strongroom.md, 24_programs_a.md,
25_programs_b.md); the rest put together by hand from R51, R54 and the tables of R74 to R76. -/

/-- A string of words decodes to an instruction at the start of a block. -/
def reads (ws : List Code) (i : Instr) : Bool := (match decode 0 ws with | .ok j => j == i | .error _ => false)
theorem test_words_base : reads [0x10120C21] (.sub 9 3 4) = true ∧ reads [0x1F120020] (.mfs 9 1) = true ∧ reads [0x0E202400] (.cmpi 1 0 9 0) = true ∧
    reads [0x19200001] (.brp 1 false 1) = true ∧ reads [0x2B080900] (.st64 4 2 1 0) = true ∧ reads [0x2B0A0600] (.st64 5 1 2 0) = true ∧
    reads [0x2B140C04] (.st64 10 3 0 4) = true ∧ reads [0x26140400] (.ld64 10 1 0 0) = true ∧ reads [0x1BE00000] (.loop 7 0) = true ∧ reads [0x12183040] (.mul 12 12 8) = true ∧
    reads [0x2C143400] (.st128 10 13 0 0) = true ∧ reads [0x27143400] (.ld128 10 13 0 0) = true ∧ reads [0x2E120000] (.mtd 1 16 0 0) = true ∧
    reads [0x01000000] .nop = true ∧ reads [0x0200002A] (.trap 42) = true ∧ reads [0x4C0A0000, 0x89ABCDEF, 0x01234567] (.movl 5 0x0123456789ABCDEF) = true := by decide +kernel
theorem test_words_memory : reads [0xB2008038, 0x00083000, 0] (.stf { x0 with a := 2, b := 6, dfmt := 7 }) = true ∧ reads [0xB2004038, 0x0A080000, 0] (.ldfClr { x0 with d := 5, a := 2, dfmt := 7 }) = true ∧
    reads [0xB3000038, 0x16045000, 0x00020000] (.aadd { x0 with d := 11, a := 1, b := 10, dfmt := 7, imm := 0x20000 }) = true ∧
    reads [0xB2000838, 0x1C040000, 0xC0] (.ldf { x0 with pg := 1, d := 14, a := 1, dfmt := 7, imm := 0xC0 }) = true := by decide +kernel
theorem test_words_numbers : reads [0xB1020050, 0x18300006, 0] (.fcvt { x0 with d := 12, a := 12, dfmt := 10, sfmt := 6 }) = true ∧
    reads [0xB6000048, 0x04000800, 0x07C00000] (.vadd { x0 with d := 2, b := 1, dfmt := 9, rcnt := 31 }) = true ∧
    reads [0xB6001C48, 0x04000800, 0x07C00000] (.vadd { x0 with pg := 3, pn := true, d := 2, b := 1, dfmt := 9, rcnt := 31 }) = true ∧
    reads [0xB7060050, 0x00280000, 0x03C00000] (.vbcst { x0 with a := 10, dfmt := 10, rcnt := 15 }) = true := by decide +kernel
theorem test_words_tiles : reads [0xB5004000, 0x00300800, 0x03C00000] (.tst { x0 with a := 12, b := 1, rcnt := 15 }) = true ∧
    reads [0xB8010000, 0x0000080A, 0x00400000] (.mma { x0 with b := 1, sfmt := 10, rcnt := 1 }) = true ∧
    reads [0xB8014048, 0x02000000, 0x00400001] (.mdrain { x0 with d := 1, dfmt := 9, rcnt := 1, imm := 1 }) = true ∧ reads [0x2E112000] (.mtd 1 9 0 0) = true := by decide +kernel
/-- SPAWN, WPOP, PHREG and TLBW are put together by hand. -/
theorem test_words_threads : reads [0xB4000000, 0x060C2000 + 5 * 2048 - 0x2000, 0x00000001] (.spawn { x0 with d := 3, a := 3, b := 5, imm := 1 }) = true ∧
    reads [0xB9004000, 0x06000000, 0] (.wpop { x0 with d := 3 }) = true ∧ reads [0xBA004000, 0x00041000, 0] (.phreg { x0 with a := 1, b := 2 }) = true ∧
    reads [0xBE000000, 0x00041000, 0] (.tlbw { x0 with a := 1, b := 2 }) = true := by decide +kernel
theorem test_words_units : reads [0xBB000000, 0x14102800, 0] (.copen { x0 with d := 10, a := 4, b := 5 }) = true ∧ reads [0xBB004000, 0x00283000, 0] (.cresize { x0 with a := 10, b := 6 }) = true ∧
    reads [0xBB008000, 0x00280000, 0] (.cclose { x0 with a := 10 }) = true ∧ reads [0xBC00C000, 0x16080830, 0] (.cpyc { x0 with d := 11, a := 2, b := 1, c := 3 }) = true ∧
    reads [0xBC014000, 0x32041140, 3] (.coll { x0 with d := 25, a := 1, b := 2, c := 20, imm := 3 }) = true ∧ reads [0xBC01C000, 0x002C0000, 0] (.jwait { x0 with a := 11 }) = true ∧
    reads [0xBD000000, 0x0A183800, 0] (.wlds { x0 with d := 5, a := 6, b := 7 }) = true ∧ reads [0xBD004000, 0x12180000, 0] (.srq { x0 with d := 9, a := 6 }) = true ∧
    reads [0xBD020000, 0x14300000, 0] (.name { x0 with d := 10, a := 12 }) = true ∧ reads [0xBD030000, 0x2008F0E0, 0] (.nswap { x0 with d := 16, a := 2, b := 30, c := 14 }) = true := by
  decide +kernel
/-- Decoding refuses the words with the check named. -/
def refuses (lane : Nat) (ws : List Code) (e : DecodeError) : Bool := (match decode lane ws with | .ok _ => false | .error f => f == e)
/-- What each check of decoding refuses: 1 length, 2 straddle, 3 assignment, 4 fields (R63, R77); the error names the check. -/
theorem test_decode_refuses : refuses 0 [0] .zeroOrLength = true ∧ refuses 0 [0x81000000, 0, 0] .zeroOrLength = true ∧ refuses 14 [0x4C0A0000, 0, 0] .straddle = true ∧
    refuses 0 [0x11120C26] .unassigned = true ∧ refuses 0 [0x3F000000] .unassigned = true := by decide +kernel
theorem test_decode_fields : refuses 0 [0xB6000048, 0x04000801, 0x07C00000] .field = true ∧ refuses 0 [0xB6000388, 0x04000800, 0x07C00000] .field = true ∧
    refuses 0 [0xB6000048, 0x04000800, 0x0FC00000] .field = true ∧ refuses 0 [0xB6000049, 0x04000800, 0] .field = true ∧ refuses 0 [0x27163400] .field = true ∧
    refuses 0 [0x26140700] .field = true ∧ refuses 0 [0xB6000048] .short = true := by decide +kernel
/-- Ill-formed terms, one for each check of WellFormed (R55 to R58, R75, R76, R122, R140, R143, R160, R186, R201, R299, R302). -/
theorem test_ill_formed : (Instr.cmp 1 12 1 2).wf = false ∧ (Instr.fcmp 1 8 1 2 false).wf = false ∧ (Instr.mtd 1 2 7 0).wf = false ∧ (Instr.mfs 3 0x010).wf = false ∧
    (Instr.mts 3 0x001).wf = false ∧ (Instr.pand 8 0 1).wf = false ∧ (Instr.loop 0 1).wf = false ∧ (Instr.ld64 3 1 2 0).wf = false ∧ (Instr.st64 3 1 3 0).wf = false ∧
    (Instr.ld128 3 1 0 0).wf = false ∧ (Instr.tzero 1 0).wf = false ∧ (Instr.fadd { x0 with dfmt := 10 }).wf = false ∧ (Instr.fadd { x0 with dfmt := 9, c := 1 }).wf = false ∧
    (Instr.fadd { x0 with dfmt := 9, rm := 6 }).wf = false ∧ (Instr.fadd { x0 with dfmt := 9, sat := true }).wf = false ∧ (Instr.fcvt { x0 with sfmt := 0, dfmt := 1 }).wf = false ∧
    (Instr.ext { x0 with imm := 0x1000 }).wf = true ∧ (Instr.ext { x0 with imm := 0x1001 }).wf = false ∧ (Instr.ext { x0 with imm := 5 }).wf = false := by decide
theorem test_ill_formed_units : (Instr.aadd { x0 with dfmt := 9 }).wf = false ∧ (Instr.aadd { x0 with dfmt := 2, imm := 0x60000 }).wf = false ∧ (Instr.tld { x0 with d := 16 }).wf = false ∧
    (Instr.tld { x0 with row0 := 20, rcnt := 12 }).wf = false ∧ (Instr.vadd { x0 with rm := 1 }).wf = false ∧ (Instr.vshl { x0 with dfmt := 9 }).wf = false ∧
    (Instr.vcmp { x0 with rcnt := 1 }).wf = false ∧ (Instr.vcmp { x0 with d := 4 }).wf = false ∧ (Instr.vsel x0).wf = false ∧ (Instr.vqnt { x0 with sfmt := 9, dfmt := 14, rm := 1 }).wf = false ∧
    (Instr.vbcst { x0 with imm := 0x100 }).wf = false ∧ (Instr.mma { x0 with sfmt := 9 }).wf = false ∧ (Instr.mma { x0 with sfmt := 10, b := 16 }).wf = false ∧
    (Instr.mdrain { x0 with dfmt := 9, imm := 2 }).wf = false ∧ (Instr.mgang { x0 with imm := 0x400 }).wf = false ∧ (Instr.cpy { x0 with imm := 4 }).wf = false ∧
    (Instr.qfence { x0 with imm := 0x200 }).wf = false ∧ (Instr.name { x0 with d := 1 }).wf = false ∧ (Instr.nld { x0 with imm := 4 }).wf = false ∧ (Instr.tlbi { x0 with imm := 3 }).wf = false ∧
    (Instr.wswap { x0 with lit := some 0 }).wf = false ∧ (Instr.tld { x0 with imm := 1, lit := some 0 }).wf = false ∧ (Instr.nld { x0 with a := 2, imm := 8 }).wf = true := by decide

/-- The thread of core 0 at 0x1000, in a page that the TLB maps to 1 GiB, where two instructions stand: add g3, g1, g2 and a word that is none. -/
def wStep (word : List Nat) : State :=
  { dv (w [(1, -1), (2, 5)]) fun d => { d with
      ctxs := [(5, { st := 3 })], kernels := [k1],
      cores := [(0, { cmwin := 0x40, ctxnum := 5, tlb := [{ ctx := 5, page := 0, big := false, pte := 0xD000000040000000 }], code := cellsOf 0x40001000 word })] } with
    mem := { cells := cellsOf 0x40001000 word } }
theorem test_step_runs : let s := wStep [0x10, 0x04, 0x06, 0x10]
    let t := nx (step s)
    s.live.nextSlot s.boot 0 = some 0 ∧ (s.dev.core 0).lost = false ∧ pteVerdict 0xD000000040000000 2 0x60 = .ok ∧ (paHome boot0 (leafPa 0xD000000040000000 false 0x1000)).isSome = true ∧
    blockWords (BitVec.ofNat 512 (s.mem.read 0x40001000 64)) 0 = 0x10060410 :: List.replicate 15 0 ∧ reads [0x10060410] (.add 3 1 2) = true ∧ t.dev.getG 0 3 = 4 ∧
    (t.dev.thread 0).pc = 0x1004 ∧ t.dev.cur = 0 := by decide +kernel
/-- A word that is no instruction: the illegal-instruction trap, DETAIL 4 (R63, R79); the model's schedule comes first. -/
theorem test_step_refuses : ((nx (step (wStep []))).dev.thread 0).faultInfo = 0x40001 := by decide +kernel
theorem test_step_agenda : nx (step { wStep [] with agenda := [.event (.setptWrite 0 0x2000)] }) = nx (exec (.setptWrite 0 0x2000) (wStep [])) := by decide +kernel
theorem test_reset_runs : let t := nx (step (State.withFetchWord State.reset 32 0x4C0A0000))
    let u := nx (step (State.withFetchWord State.reset 32 0x01000000))
    t.dev.getG t.dev.cur 5 = 0 ∧ (thr t).faultInfo = 0 ∧ (thr u).faultInfo = 0 ∧ decodeTableWord 32 0x01000000 = some .nop := by decide +kernel
theorem test_invariant : Inv (wStep [1]) := by unfold Inv BootSound; decide +kernel
/-- A stopped package; a scalar instruction and its frame. -/
theorem test_stopped : (dv (w []) fun d => { d with stopped := some 0xDC }).dev.stopped ≠ none ∧ exec .nop (dv (w []) fun d => { d with stopped := some 0xDC }) = .fault .packageStopped ∧
    (w []).dev.stopped = none := ⟨by decide, rfl, rfl⟩
theorem test_frame : goes (.add 3 1 2) (w [(1, -1), (2, 5)]) (nx (exec (.add 3 1 2) (w [(1, -1), (2, 5)]))) = true := by decide +kernel

end Sys2Proof.Tests
end

section
/-!
Words of form REG: what they are as numbers, and their fields (R51, R74).
-/

namespace Sys2Proof.Laws

/-- The low bits of form REG as a number (R51). -/
theorem toNat_lowReg (d a b : BitVec 7) (fn : BitVec 3) :
    (lowReg d a b fn).toNat = d.toNat * 2 ^ 17 + a.toNat * 2 ^ 10 + b.toNat * 2 ^ 3 + fn.toNat := by
  simp only [lowReg, BitVec.toNat_append]
  rw [← Nat.shiftLeft_add_eq_or_of_lt a.isLt, ← Nat.shiftLeft_add_eq_or_of_lt b.isLt, ← Nat.shiftLeft_add_eq_or_of_lt fn.isLt]
  simp only [Nat.shiftLeft_eq]
  omega

/-- A one-word base form is the number that R49 gives it. -/
theorem short_eq_ofNat (maj : BitVec 6) (low : BitVec 24) : short maj low = [BitVec.ofNat 32 (maj.toNat * 2 ^ 24 + low.toNat)] := by
  have hmaj := maj.isLt
  have hlow := low.isLt
  have hlen : (BitVec.ofBool false ++ BitVec.ofBool false).toNat = 0 := rfl
  unfold short packBase
  congr 1
  apply BitVec.eq_of_toNat_eq
  rw [BitVec.toNat_append, ← Nat.shiftLeft_add_eq_or_of_lt hlow, BitVec.toNat_append, ← Nat.shiftLeft_add_eq_or_of_lt hmaj, hlen,
    BitVec.toNat_ofNat, Nat.shiftLeft_eq, Nat.zero_shiftLeft]
  omega

/-- A word of form REG is the number that R51 gives it. -/
theorem short_lowReg {d a b : BitVec 7} {maj fn : Nat} (hm : maj < 64) (hf : fn < 8) :
    short (BitVec.ofNat 6 maj) (lowReg d a b (BitVec.ofNat 3 fn)) =
      [BitVec.ofNat 32 (maj * 2 ^ 24 + d.toNat * 2 ^ 17 + a.toNat * 2 ^ 10 + b.toNat * 2 ^ 3 + fn)] := by
  rw [short_eq_ofNat, toNat_lowReg, BitVec.toNat_ofNat, BitVec.toNat_ofNat, Nat.mod_eq_of_lt hm, Nat.mod_eq_of_lt hf]
  simp only [Nat.add_assoc]

/-- A field below MAJ is a field of the low 24 bits. -/
theorem fieldOf_packBase (lit : Bool) (maj : BitVec 6) (low : BitVec 24) {lo n : Nat} (h : lo + n ≤ 24) (hn : 0 < n) :
    fieldOf (packBase lit maj low) lo n = low.extractLsb' lo n := by
  simp only [fieldOf, packBase, BitVec.extractLsb'_append_eq_ite]
  rw [dif_pos (by omega), dif_pos h]

theorem bOf_packReg (lit : Bool) (maj : BitVec 6) (d a b : BitVec 7) (fn : BitVec 3) : bOf (packBase lit maj (lowReg d a b fn)) = b := by
  rw [bOf, fieldOf_packBase _ _ _ (by omega) (by omega)]
  apply BitVec.eq_of_toNat_eq
  rw [BitVec.extractLsb'_toNat, toNat_lowReg, Nat.shiftRight_eq_div_pow]
  omega

theorem fnOf_packReg (lit : Bool) (maj : BitVec 6) (d a b : BitVec 7) (fn : BitVec 3) : fnOf (packBase lit maj (lowReg d a b fn)) = fn := by
  rw [fnOf, fieldOf_packBase _ _ _ (by omega) (by omega)]
  apply BitVec.eq_of_toNat_eq
  rw [BitVec.extractLsb'_toNat, toNat_lowReg, Nat.shiftRight_eq_div_pow]
  omega

/-- Form REG without B refuses a B that is not zero, at check 4 (R63, R74). -/
theorem checked_reg2_error {w : Code} {mk : BitVec 7 → BitVec 7 → Instr} (hb : bOf w ≠ 0) (ha : (mk (dOf w) (aOf w)).assigned = true) :
    checked (reg2 w none mk) = .error .field := by
  rw [reg2, beq_false_of_ne hb]
  simp [noLit, need, checked, ha]

/-- A one-word base instruction is read by its form once its length is right. -/
theorem decode_packBase {maj : BitVec 6} (low : BitVec 24) (h1 : maj ≠ 0) (h : maj.toNat ≤ 0x30) :
    decode 0 [packBase false maj low] = checked (decodeBase (packBase false maj low) none) := by
  obtain ⟨_, _, he, h0, hw, hn⟩ := head_short low h1 h
  cases he
  simp only [decode, beq_false_of_ne h0, hw, hn, lenOf_packBase]
  rfl

/-- The bit-count and move words with a B that is not zero are refused at check 4 (R63, R139). -/
theorem decode_bitCount_error {d a b : BitVec 7} {fn : Nat} (hb : b ≠ 0) (hfn : fn ≤ 4) :
    decode 0 (short 0x13#6 (lowReg d a b (BitVec.ofNat 3 fn))) = .error .field := by
  rw [short, decode_packBase _ (by decide) (by decide)]
  have hB : bOf (packBase false 0x13#6 (lowReg d a b (BitVec.ofNat 3 fn))) ≠ 0 := by rwa [bOf_packReg]
  have hF := fnOf_packReg false 0x13#6 d a b (BitVec.ofNat 3 fn)
  have hM := majOf_packBase false 0x13#6 (lowReg d a b (BitVec.ofNat 3 fn))
  generalize packBase false 0x13#6 (lowReg d a b (BitVec.ofNat 3 fn)) = w at hB hF hM ⊢
  have hfn : fn = 0 ∨ fn = 1 ∨ fn = 2 ∨ fn = 3 ∨ fn = 4 := by omega
  rcases hfn with rfl | rfl | rfl | rfl | rfl <;> simp only [decodeBase, hM, hF] <;> exact checked_reg2_error hB rfl

end Sys2Proof.Laws
end

section
/-!
Instructions that write one register: from the checks of `instr` to the state `wrote`.
-/

namespace Sys2Proof.Laws

open Sys2Proof.Machine Sys2Proof.Say

/-- An instruction whose operands are ready and whose body writes one register leaves the state `wrote` (R70). -/
theorem instr_writes {s : State} {len : Nat} {gs : List (BitVec 7)} {body : Boot → Live → Out} {d : BitVec 7} {v : Word}
    (hr : Ready s gs) (hb : body s.boot ⟨s.dev, s.mem, []⟩ = .done (Live.setG ⟨s.dev, s.mem, []⟩ d v)) :
    instr s len gs body = .next (wrote s len d v) := by
  obtain ⟨hs, hg⟩ := hr
  rw [instr_ready hs (fun i hi => (hg i hi).1) (fun i hi => (hg i hi).2), onLive_next _ hs, hb, finish_done]
  simp [wrote, passed, withReg, thr, Mem.applyAll]

variable {s : State} {d a b : BitVec 7}

theorem alu3_ready (f : Word → Word → Word) (h : Ready s [d, a, b]) : alu3 s d a b f = .next (wrote s 1 d (f (reg s a) (reg s b))) :=
  instr_writes h rfl

theorem alu2_ready (f : Word → Word) (h : Ready s [d, a]) : alu2 s d a f = .next (wrote s 1 d (f (reg s a))) :=
  instr_writes h rfl

theorem aluDiv_ready (f : Word → Word → Word) (h : Ready s [d, a, b]) (hb : reg s b ≠ 0) :
    aluDiv s d a b f = .next (wrote s 1 d (f (reg s a) (reg s b))) :=
  instr_writes h (if_neg hb)

end Sys2Proof.Laws
end

section
/-!
Taking a trap in the issuing thread alone: what it leaves as it was (R313, R414).
-/

namespace Sys2Proof.Machine

/-- A thread slot after some threads have been halted. -/
theorem tfind_map_halt (t : Table Thread) (c : Nat × Thread → Bool) (k : Nat) :
    tfind (t.map fun e => if c e then (e.1, haltThread e.2) else e) k = (tfind t k).map fun v => if c (k, v) then haltThread v else v := by
  induction t with
  | nil => rfl
  | cons e r ih =>
    obtain ⟨j, v⟩ := e
    have hj : (if c (j, v) then (j, haltThread v) else (j, v)) = (j, if c (j, v) then haltThread v else v) := by split <;> rfl
    by_cases h : k = j
    · subst h; simp [tfind, hj]
    · simpa [tfind, hj, h] using ih

/-- What the end of a kernel leaves of one thread: it may be halted; the issuing thread and every register stay. -/
structure Dev.HaltsAtMost (tid : Nat) (d d' : Dev) : Prop where
  cur : d'.cur = d.cur
  regs : d'.regs = d.regs
  thread : d'.thread tid = d.thread tid ∨ d'.thread tid = haltThread (d.thread tid)

section

variable (tid : Nat) (d : Dev) (ctx knum : Nat)

theorem Dev.haltsAtMost_haltKernel : d.HaltsAtMost tid (d.haltKernel ctx knum) where
  cur := rfl
  regs := rfl
  thread := by
    simp only [Dev.thread, tget, Dev.haltKernel, tfind_map_halt]
    cases tfind d.threads tid with
    | none => exact .inl rfl
    | some t =>
      simp only [Option.map_some]
      split
      · exact .inr rfl
      · exact .inl rfl

theorem Dev.haltsAtMost_endKernel : d.HaltsAtMost tid (d.endKernel ctx knum) := by
  unfold Dev.endKernel
  split
  · exact ⟨rfl, rfl, .inl rfl⟩
  · split
    · exact ⟨rfl, rfl, .inl rfl⟩
    · split
      · exact haltsAtMost_haltKernel tid d ctx knum
      · obtain ⟨hcur, hregs, hthread⟩ := haltsAtMost_haltKernel tid (d.onKernel ctx knum fun k => { k with st := 6, end_ := 2 }) ctx knum
        exact ⟨hcur, hregs, hthread⟩

theorem Dev.haltsAtMost_faultPolicy (cause : Nat) (auto : Bool) : d.HaltsAtMost tid (d.faultPolicy ctx knum cause auto) := by
  unfold Dev.faultPolicy
  split
  · exact ⟨rfl, rfl, .inl rfl⟩
  · dsimp only
    split
    · exact ⟨rfl, rfl, .inl rfl⟩
    · obtain ⟨hcur, hregs, hthread⟩ := haltsAtMost_endKernel tid (d.onKernel ctx knum _) ctx knum
      exact ⟨hcur, hregs, hthread⟩

end

/-- The trap of one thread as the step sees it: FAULTINFO is set, the thread is TRAPPED or HALTED by its own trap, and its PC, every register and
memory are as they were. -/
structure Live.TrapTaken (tid : Nat) (info : Word) (l l' : Live) : Prop where
  cur : l'.dev.cur = l.dev.cur
  regs : l'.dev.regs = l.dev.regs
  writes : l'.writes = l.writes
  pc : (l'.dev.thread tid).pc = (l.dev.thread tid).pc
  faultInfo : (l'.dev.thread tid).faultInfo = info
  st : (l'.dev.thread tid).st = .trapped ∨ (l'.dev.thread tid).st = .halted true

/-- A record goes to a collector and changes nothing else (R417). -/
theorem sendRecord_keeps {tid : Nat} {info : Word} {l l' : Live} (r : Record) (h : l.TrapTaken tid info l') :
    l.TrapTaken tid info (l'.map fun d => d.sendRecord r) := by
  obtain ⟨hcur, hregs, hwrites, hpc, hinfo, hst⟩ := h
  exact ⟨hcur, hregs, hwrites, hpc, hinfo, hst⟩

/-- The records of the failures that wait follow (R415). -/
theorem secondRecords_keep {b : Boot} {tid : Nat} {info : Word} {l l' : Live} (fs : List Deferred) (h : l.TrapTaken tid info l') :
    l.TrapTaken tid info (fs.foldl (fun l f => secondRecord b tid f l) l') := by
  induction fs generalizing l' with
  | nil => exact h
  | cons f fs ih => exact ih (sendRecord_keeps _ h)

@[simp] theorem haltThread_pc (t : Thread) : (haltThread t).pc = t.pc := by
  unfold haltThread; repeat' split
  all_goals rfl

@[simp] theorem haltThread_faultInfo (t : Thread) : (haltThread t).faultInfo = t.faultInfo := by
  unfold haltThread; repeat' split
  all_goals rfl

/-- A thread that its own trap has stopped stays so when its kernel halts (R109, R313). -/
theorem haltThread_st_of_trap {t : Thread} (h : t.st = .trapped ∨ t.st = .halted true) : (haltThread t).st = .halted true := by
  rcases h with h | h <;> simp [haltThread, h]

/-- The fault policy keeps what a trap keeps; where it ends the kernel the thread is HALTED by its trap (R313). -/
theorem faultPolicy_keeps {tid cause : Nat} {info : Word} {l l' : Live} {auto : Bool} {ctx knum : Nat} (h : l.TrapTaken tid info l') :
    l.TrapTaken tid info (l'.map fun d => d.faultPolicy ctx knum cause auto) := by
  obtain ⟨hcur, hregs, hwrites, hpc, hinfo, hst⟩ := h
  obtain ⟨pcur, pregs, pthread⟩ := l'.dev.haltsAtMost_faultPolicy tid ctx knum cause auto
  rcases pthread with e | e
  · exact ⟨pcur.trans hcur, pregs.trans hregs, hwrites, by simp [e, hpc], by simp [e, hinfo], by simpa [e] using hst⟩
  · exact ⟨pcur.trans hcur, pregs.trans hregs, hwrites, by simp [e, hpc], by simp [e, hinfo],
      .inr (by simpa [e] using haltThread_st_of_trap hst)⟩

/-- Taking a trap in one slot (R414). -/
theorem trapOne_taken (b : Boot) (tid cause detail src flags : Nat) (pc addr handle : Word) (resume : Option Word) (l : Live) :
    l.TrapTaken tid (BitVec.ofNat 64 (detail % 65536 * 65536 + cause % 256)) (trapOne b tid cause detail src flags pc addr handle resume l) := by
  unfold trapOne
  extract_lets t auto record r trapped sent records
  have htrapped : l.TrapTaken tid (BitVec.ofNat 64 (detail % 65536 * 65536 + cause % 256)) trapped :=
    ⟨rfl, rfl, rfl, by simp [trapped], by simp [trapped], by simp [trapped]⟩
  have hrecords : l.TrapTaken tid _ records := secondRecords_keep _ (sendRecord_keeps r htrapped)
  split
  · exact hrecords
  · exact faultPolicy_keeps hrecords

/-- A trap that takes no gang with it and restarts no walker is the trap of its one thread (R191, R424). -/
theorem takeTrap_alone {b : Boot} {tid cause detail src flags : Nat} {pc addr handle : Word} {resume : Option Word} {l : Live}
    (hw : tid % 64 ≠ 63) (hg : (l.dev.thread tid).toGang = 0) :
    takeTrap b tid cause detail src flags pc addr handle resume l = trapOne b tid cause detail src flags pc addr handle resume l := by
  simp [takeTrap, trapSlot, hw, hg]

/-- An instruction that traps alone has taken its trap (R70, R414). -/
theorem finish_trap_taken {b : Boot} {l : Live} {len cause detail : Nat} {addr : Word} (hw : l.dev.cur % 64 ≠ 63) (hg : l.th.toGang = 0)
    (hc : cause < 256) (hd : detail < 65536) :
    l.TrapTaken l.dev.cur (BitVec.ofNat 64 (detail * 65536 + cause)) (finish b len (.trap l cause detail addr)) := by
  simp only [finish]
  rw [takeTrap_alone hw hg]
  have := trapOne_taken b l.dev.cur cause detail
  rw [Nat.mod_eq_of_lt hc, Nat.mod_eq_of_lt hd] at this
  exact this ..

end Sys2Proof.Machine

namespace Sys2Proof.Laws

open Sys2Proof.Machine Sys2Proof.Say

/-- An instruction whose operands are ready and whose body traps has trapped (R70, R414). -/
theorem instr_traps {s : State} {len cause detail : Nat} {addr : Word} {gs : List (BitVec 7)} {body : Boot → Live → Out} (hr : Ready s gs)
    (ha : Alone s) (hb : body s.boot ⟨s.dev, s.mem, []⟩ = .trap ⟨s.dev, s.mem, []⟩ cause detail addr)
    (hc : cause < 256) (hd : detail < 65536) :
    ∃ t, instr s len gs body = .next t ∧ Trapped s t cause detail := by
  obtain ⟨hs, hg⟩ := hr
  obtain ⟨hwalker, hgang⟩ := ha
  rw [instr_ready hs (fun i hi => (hg i hi).1) (fun i hi => (hg i hi).2), onLive_next _ hs, hb]
  obtain ⟨hcur, hregs, hwrites, hpc, hinfo, hst⟩ :=
    finish_trap_taken (b := s.boot) (l := ⟨s.dev, s.mem, []⟩) (len := len) (addr := addr) hwalker hgang hc hd
  refine ⟨_, rfl, ?_⟩
  unfold Trapped thr
  simp only [hcur, hwrites]
  exact ⟨hinfo, hpc, trivial, hregs, rfl, hst⟩

/-- A division by zero raises the division-by-zero trap and writes nothing (R138). -/
theorem aluDiv_traps {s : State} {d a b : BitVec 7} (f : Word → Word → Word) (h : Ready s [d, a, b]) (ha : Alone s) (hb : reg s b = 0) :
    ∃ t, aluDiv s d a b f = .next t ∧ Trapped s t 0x20 0 :=
  instr_traps h ha (if_pos hb) (by omega) (by omega)

end Sys2Proof.Laws
end

section
/-!
The operations of the scalar instructions as arithmetic on the signed and unsigned readings of words (R134, R138).
-/

namespace Sys2Proof.Machine

variable (a b : Word) (n : Nat)

theorem add_eq_ofNat : a + b = BitVec.ofNat 64 (a.toNat + b.toNat) := by simp [BitVec.ofNat_add]

theorem sub_eq_ofInt : a - b = BitVec.ofInt 64 ((a.toNat : Int) - b.toNat) := by
  rw [Int.sub_eq_add_neg, BitVec.ofInt_add, BitVec.ofInt_neg]
  simp [BitVec.sub_eq_add_neg]

theorem mul_eq_ofInt : a * b = BitVec.ofInt 64 (a.toInt * b.toInt) := by simp [BitVec.ofInt_mul]

theorem minS_eq_ofInt : minS a b = BitVec.ofInt 64 (min a.toInt b.toInt) := by
  unfold minS
  split <;> rename_i h <;> rw [BitVec.slt_iff_toInt_lt] at h
  · rw [Int.min_eq_left (Int.le_of_lt h), BitVec.ofInt_toInt]
  · rw [Int.min_eq_right (Int.not_lt.1 h), BitVec.ofInt_toInt]

theorem maxS_eq_ofInt : maxS a b = BitVec.ofInt 64 (max a.toInt b.toInt) := by
  unfold maxS
  split <;> rename_i h <;> rw [BitVec.slt_iff_toInt_lt] at h
  · rw [Int.max_eq_right (Int.le_of_lt h), BitVec.ofInt_toInt]
  · rw [Int.max_eq_left (Int.not_lt.1 h), BitVec.ofInt_toInt]

theorem minU_eq_ofNat : minU a b = BitVec.ofNat 64 (min a.toNat b.toNat) := by
  unfold minU
  split <;> rename_i h <;> rw [BitVec.ult_iff_lt, BitVec.lt_def] at h
  · rw [Nat.min_eq_left (Nat.le_of_lt h), BitVec.ofNat_toNat, BitVec.setWidth_eq]
  · rw [Nat.min_eq_right (Nat.not_lt.1 h), BitVec.ofNat_toNat, BitVec.setWidth_eq]

theorem maxU_eq_ofNat : maxU a b = BitVec.ofNat 64 (max a.toNat b.toNat) := by
  unfold maxU
  split <;> rename_i h <;> rw [BitVec.ult_iff_lt, BitVec.lt_def] at h
  · rw [Nat.max_eq_right (Nat.le_of_lt h), BitVec.ofNat_toNat, BitVec.setWidth_eq]
  · rw [Nat.max_eq_left (Nat.not_lt.1 h), BitVec.ofNat_toNat, BitVec.setWidth_eq]

theorem shlW_eq_ofNat : shlW a n = BitVec.ofNat 64 (a.toNat * 2 ^ n) := by
  apply BitVec.eq_of_toNat_eq
  simp [shlW, Nat.shiftLeft_eq]

theorem shrW_eq_ofNat : shrW a n = BitVec.ofNat 64 (a.toNat / 2 ^ n) := by
  apply BitVec.eq_of_toNat_eq
  have : a.toNat / 2 ^ n < 2 ^ 64 := Nat.lt_of_le_of_lt (Nat.div_le_self _ _) a.isLt
  rw [shrW, BitVec.toNat_ushiftRight, Nat.shiftRight_eq_div_pow, BitVec.toNat_ofNat, Nat.mod_eq_of_lt this]

theorem sarW_eq_ofInt : sarW a n = BitVec.ofInt 64 (a.toInt / 2 ^ n) := by
  rw [sarW, BitVec.sshiftRight_eq, Int.shiftRight_eq_div_pow]
  simp

/-- A quotient whose sign is changed where the product of its operands is negative: where that product is zero, so is the quotient. -/
theorem neg_natDiv_eq_ite (m n : Nat) : -((m / n : Nat) : Int) = if -((m : Int) * n) < 0 then -((m / n : Nat) : Int) else (m / n : Nat) := by
  split
  · rfl
  · rename_i h
    have h0 : ((m * n : Nat) : Int) = 0 := by
      rw [Int.natCast_mul]
      have := Int.mul_nonneg (Int.natCast_nonneg m) (Int.natCast_nonneg n)
      omega
    rcases Nat.mul_eq_zero.1 (Int.natCast_eq_zero.1 h0) with rfl | rfl
    · rw [Nat.zero_div]; rfl
    · rw [Nat.div_zero]; rfl

/-- Division truncated toward zero by the magnitudes, as R138 writes it. -/
theorem tdiv_eq_natAbs (x y : Int) :
    x.tdiv y = if x * y < 0 then -((x.natAbs / y.natAbs : Nat) : Int) else (x.natAbs / y.natAbs : Nat) := by
  obtain ⟨m, rfl | rfl⟩ := x.eq_nat_or_neg <;> obtain ⟨n, rfl | rfl⟩ := y.eq_nat_or_neg <;>
    simp only [Int.tdiv_neg, Int.neg_tdiv, Int.natAbs_neg, Int.natAbs_natCast, ← Int.ofNat_tdiv, Int.neg_mul, Int.mul_neg, Int.neg_neg]
  · exact (if_neg (Int.not_lt.2 (Int.mul_nonneg (Int.natCast_nonneg m) (Int.natCast_nonneg n)))).symm
  · exact neg_natDiv_eq_ite m n
  · exact neg_natDiv_eq_ite m n
  · exact (if_neg (Int.not_lt.2 (Int.mul_nonneg (Int.natCast_nonneg m) (Int.natCast_nonneg n)))).symm

end Sys2Proof.Machine
end

section
/-!
The three-register members and the multiply and divide members (R134, R138).
-/

namespace Sys2Proof.Laws

open Sys2Proof.Machine Sys2Proof.Say

/-- Settles O1: each member is its word of form REG and an `alu3` whose operation is the arithmetic that R134 states. -/
theorem threeRegisterResults : Obligations.ThreeRegisterResults := by
  intro s d a b A B n gives
  have member {i : Instr} {maj fn : Nat} {v : Word} (f : Word → Word → Word)
      (hw : encode i = short (BitVec.ofNat 6 maj) (lowReg d a b (BitVec.ofNat 3 fn)))
      (hm : maj < 64) (hf : fn < 8) (hx : exec i s = alu3 s d a b f) (hv : f A B = v) : gives i maj fn v :=
    ⟨hw.trans (short_lowReg hm hf), fun h => by rw [hx, alu3_ready f h, hv]⟩
  refine ⟨?add, ?sub, ?and, ?or, ?xor, ?andn, ?min, ?max, ?shl, ?shr, ?sar, ?rot, ?minn, ?maxn⟩
  case add => exact member (fun a b => a + b) rfl (by decide) (by decide) rfl (add_eq_ofNat A B)
  case sub => exact member (fun a b => a - b) rfl (by decide) (by decide) rfl (sub_eq_ofInt A B)
  case and => exact member (fun a b => a &&& b) rfl (by decide) (by decide) rfl rfl
  case or => exact member (fun a b => a ||| b) rfl (by decide) (by decide) rfl rfl
  case xor => exact member (fun a b => a ^^^ b) rfl (by decide) (by decide) rfl rfl
  case andn => exact member (fun a b => a &&& ~~~b) rfl (by decide) (by decide) rfl rfl
  case min => exact member minS rfl (by decide) (by decide) rfl (minS_eq_ofInt A B)
  case max => exact member maxS rfl (by decide) (by decide) rfl (maxS_eq_ofInt A B)
  case shl => exact member (fun a b => shlW a (shiftCount b)) rfl (by decide) (by decide) rfl (shlW_eq_ofNat A n)
  case shr => exact member (fun a b => shrW a (shiftCount b)) rfl (by decide) (by decide) rfl (shrW_eq_ofNat A n)
  case sar => exact member (fun a b => sarW a (shiftCount b)) rfl (by decide) (by decide) rfl (sarW_eq_ofInt A n)
  case rot => exact member (fun a b => rotW a (shiftCount b)) rfl (by decide) (by decide) rfl rfl
  case minn => exact member minU rfl (by decide) (by decide) rfl (minU_eq_ofNat A B)
  case maxn => exact member maxU rfl (by decide) (by decide) rfl (maxU_eq_ofNat A B)

/-- Settles O2: each member is its word of form REG and an `alu3` or `aluDiv`; a zero divisor is taken as a trap of one thread. -/
theorem multiplyAndDivideResults : Obligations.MultiplyAndDivideResults := by
  intro s d a b A B word gives q
  have member {i : Instr} {fn : Nat} (hw : encode i = short (BitVec.ofNat 6 0x12) (lowReg d a b (BitVec.ofNat 3 fn))) (hf : fn < 8) : word i fn :=
    hw.trans (short_lowReg (by decide) hf)
  refine ⟨member rfl (by decide), member rfl (by decide), member rfl (by decide), member rfl (by decide), member rfl (by decide),
    member rfl (by decide), member rfl (by decide),
    fun h => ⟨?mul, ?mulh, ?mulhn, fun hB => ⟨?div, ?rem, ?divn, ?remn⟩, fun hB ha i hi => ?zero⟩⟩
  case mul => exact (alu3_ready (fun a b => a * b) h).trans (by rw [mul_eq_ofInt])
  case mulh => exact alu3_ready mulHigh h
  case mulhn => exact alu3_ready mulHighN h
  case div => exact (aluDiv_ready divS h hB).trans (by rw [divS, tdiv_eq_natAbs])
  case rem => exact (aluDiv_ready remS h hB).trans (by rw [remS, Int.tmod_def, tdiv_eq_natAbs])
  case divn => exact aluDiv_ready divU h hB
  case remn => exact aluDiv_ready remU h hB
  case zero =>
    simp only [List.mem_cons, List.not_mem_nil, or_false] at hi
    rcases hi with rfl | rfl | rfl | rfl <;> exact aluDiv_traps _ h ha hB

end Sys2Proof.Laws
end

section
/-!
The bit-count and move members (R139).
-/

namespace Sys2Proof.Machine

/-- The leading zeros of the low n bits are zero bits, and the bit below them is one (R139). -/
theorem leadingZeros_spec (a : Word) (n : Nat) : leadingZeros a n ≤ n ∧ (∀ i, n - leadingZeros a n ≤ i → i < n → a.getLsbD i = false) ∧
    (leadingZeros a n < n → a.getLsbD (n - 1 - leadingZeros a n) = true) := by
  induction n with
  | zero => simp [leadingZeros]
  | succ n ih =>
    obtain ⟨hle, hzero, hone⟩ := ih
    cases h : a.getLsbD n
    · have e : leadingZeros a (n + 1) = 1 + leadingZeros a n := by simp [leadingZeros, h]
      rw [e]
      refine ⟨by omega, fun i hlo hhi => ?_, fun hlt => ?_⟩
      · rcases Nat.lt_succ_iff_lt_or_eq.1 hhi with hi | rfl
        · exact hzero i (by omega) hi
        · exact h
      · rw [show n + 1 - 1 - (1 + leadingZeros a n) = n - 1 - leadingZeros a n by omega]
        exact hone (by omega)
    · have e : leadingZeros a (n + 1) = 0 := by simp [leadingZeros, h]
      rw [e]
      exact ⟨by omega, fun i hlo hhi => by omega, fun _ => h⟩

/-- The trailing zeros over n bits from bit i are zero bits, and the bit above them is one (R139). -/
theorem trailingZeros_spec (a : Word) (i n : Nat) : trailingZeros a i n ≤ n ∧ (∀ j < trailingZeros a i n, a.getLsbD (i + j) = false) ∧
    (trailingZeros a i n < n → a.getLsbD (i + trailingZeros a i n) = true) := by
  induction n generalizing i with
  | zero => simp [trailingZeros]
  | succ n ih =>
    obtain ⟨hle, hzero, hone⟩ := ih (i + 1)
    cases h : a.getLsbD i
    · have e : trailingZeros a i (n + 1) = trailingZeros a (i + 1) n + 1 := by simp [trailingZeros, h, Nat.add_comm]
      rw [e]
      refine ⟨by omega, fun j hj => ?_, fun hlt => ?_⟩
      · cases j with
        | zero => exact h
        | succ j => simpa [Nat.add_assoc, Nat.add_comm 1] using hzero j (by omega)
      · simpa [Nat.add_assoc, Nat.add_comm 1] using hone (by omega)
    · have e : trailingZeros a i (n + 1) = 0 := by simp [trailingZeros, h]
      rw [e]
      exact ⟨by omega, fun j hj => by omega, fun _ => h⟩

/-- CLZ as a bound on the operand's magnitude (R139). -/
theorem leadingZeros_bounds (a : Word) : leadingZeros a 64 ≤ 64 ∧ a.toNat < 2 ^ (64 - leadingZeros a 64) ∧
    (leadingZeros a 64 < 64 → 2 ^ (63 - leadingZeros a 64) ≤ a.toNat) := by
  obtain ⟨hle, hzero, hone⟩ := leadingZeros_spec a 64
  refine ⟨hle, Nat.lt_pow_two_of_testBit _ fun i hi => ?_, fun hlt => Nat.ge_two_pow_of_testBit ?_⟩
  · rw [BitVec.testBit_toNat]
    by_cases h : i < 64
    · exact hzero i hi h
    · exact BitVec.getLsbD_of_ge a i (by omega)
  · rw [BitVec.testBit_toNat]
    exact hone hlt

/-- CTZ as the power of two that divides the operand (R139). -/
theorem trailingZeros_divides (a : Word) : trailingZeros a 0 64 ≤ 64 ∧ a.toNat % 2 ^ trailingZeros a 0 64 = 0 ∧
    (trailingZeros a 0 64 < 64 → a.toNat / 2 ^ trailingZeros a 0 64 % 2 = 1) := by
  obtain ⟨hle, hzero, hone⟩ := trailingZeros_spec a 0 64
  simp only [Nat.zero_add] at hzero hone
  refine ⟨hle, Nat.eq_of_testBit_eq fun i => ?_, fun hlt => ?_⟩
  · rw [Nat.testBit_mod_two_pow, BitVec.testBit_toNat, Nat.zero_testBit]
    by_cases h : i < trailingZeros a 0 64
    · rw [hzero i h, Bool.and_false]
    · simp [h]
  · have := hone hlt
    rwa [← BitVec.testBit_toNat, Nat.testBit_eq_decide_div_mod_eq, decide_eq_true_iff] at this

/-- POPC counts the one bits (R139). -/
theorem onesOf_eq_countP (a : Word) (n : Nat) : onesOf a n = (List.range n).countP fun i => a.getLsbD i := by
  induction n with
  | zero => rfl
  | succ n ih => rw [onesOf, ih, List.range_succ, List.countP_append, List.countP_singleton, Nat.add_comm]

/-- BREV by its bits (R139). -/
theorem getLsbD_reverseBits (a : Word) {i : Nat} (h : i < 64) : (reverseBits a).getLsbD i = a.getLsbD (63 - i) := by
  rw [reverseBits, BitVec.getLsbD_reverse, BitVec.getMsbD_eq_getLsbD]
  simp [h]

end Sys2Proof.Machine

namespace Sys2Proof.Laws

open Sys2Proof.Machine Sys2Proof.Say

/-- Settles O4: each member is its word of form REG and an `alu2`; the counts are described by the bits they pass over. -/
theorem bitCountResults : Obligations.BitCountResults := by
  intro s d a A word
  have member {i : Instr} {fn : Nat} (hw : encode i = short 0x13#6 (lowReg d a 0#7 (BitVec.ofNat 3 fn))) (hf : fn < 8) : word i fn := by
    have h := hw.trans (short_lowReg (by decide) hf)
    rwa [BitVec.toNat_zero, Nat.zero_mul, Nat.add_zero] at h
  refine ⟨member rfl (by decide), member rfl (by decide), member rfl (by decide), member rfl (by decide), member rfl (by decide), ?refused,
    fun h => ⟨?clz, ?ctz, ?popc, ?brev, ?mov⟩⟩
  case refused =>
    intro b fn hb hfn
    rw [← short_lowReg (by decide) (by omega)]
    exact decode_bitCount_error hb hfn
  case clz =>
    obtain ⟨hle, hlt, hge⟩ := leadingZeros_bounds A
    exact ⟨leadingZeros A 64, hle, alu2_ready (fun a => BitVec.ofNat 64 (leadingZeros a 64)) h, hlt, hge⟩
  case ctz =>
    obtain ⟨hle, hmod, hdiv⟩ := trailingZeros_divides A
    exact ⟨trailingZeros A 0 64, hle, alu2_ready (fun a => BitVec.ofNat 64 (trailingZeros a 0 64)) h, hmod, hdiv⟩
  case popc => exact (alu2_ready (fun a => BitVec.ofNat 64 (onesOf a 64)) h).trans (by rw [onesOf_eq_countP])
  case brev => exact ⟨reverseBits A, alu2_ready reverseBits h, fun i hi => getLsbD_reverseBits A hi⟩
  case mov => exact alu2_ready (fun a => a) h

end Sys2Proof.Laws
end
